-- ==== Sys2Proof/Word.lean ====
section
/-! DEFINITION. The word types of the CQ-D1 and the lane index list (00_scope.md R3, 02_formats.md R41). -/

namespace Sys2Proof

/-- A byte, the unit of memory (R3). -/
abbrev Byte := BitVec 8

/-- A word of 32 bits: one lane of a vector register (R3, R41). -/
abbrev Word := BitVec 32

/-- A doubleword of 64 bits: one scalar register (R3, R41). -/
abbrev DWord := BitVec 64

/-- A set of lanes of one warp, bit l for lane l (04 R135). -/
abbrev LaneMask := BitVec 32

/-- The lane numbers of a warp in ascending order (04_thread.md). -/
def laneIdx : List Nat :=
  [0, 1, 2, 3, 4, 5, 6, 7, 8, 9, 10, 11, 12, 13, 14, 15,
   16, 17, 18, 19, 20, 21, 22, 23, 24, 25, 26, 27, 28, 29, 30, 31]

/-- The 32 lane values of a vector register, lane 0 first. A lane beyond the list reads zero. -/
abbrev Lanes := List Word

end Sys2Proof
end

