-- ==== Sys2Proof/Syntax.lean ====
section
/-! DEFINITION. The instructions, operations and events of the CQ-D1, one constructor of `Instr` for each row
of spec/opcode_table.json (03_encoding.md; the rows that are no instruction of the stream are the steps of
the other agents of the part, 95_what_each_step_holds.md). -/

namespace Sys2Proof

/-- The fields of a PREFIX word (03 R82, R86). `rnd` is the ordering, `ext` and `sat` part of ext8 on an
atomic (R87). -/
structure Pfx where
  mask : BitVec 4
  mz : Bool
  rnd : BitVec 3
  c : BitVec 6
  lc : Bool
  sat : Bool
  ext : BitVec 6
  deriving DecidableEq, Repr

/-- The fields of a REPEAT word (03 R82, R90). -/
structure Rpt where
  count : BitVec 6
  stepD : BitVec 2
  stepA : BitVec 2
  stepB : BitVec 2
  stepC : BitVec 2
  deriving DecidableEq, Repr

/-- What the group of a 32-bit instruction carries beside its payload (03 R73, R74, R93). -/
structure Grp where
  stop : Bool
  dist : BitVec 2
  pfx : Option Pfx
  rpt : Option Rpt
  deriving DecidableEq, Repr

/-- Format A (R82). -/
structure OpsA where
  d : BitVec 6
  a : BitVec 6
  b : BitVec 6
  la : Bool
  lb : Bool
  deriving DecidableEq, Repr

/-- Format I. -/
structure OpsI where
  d : BitVec 6
  a : BitVec 6
  la : Bool
  imm : BitVec 7
  deriving DecidableEq, Repr

/-- Format K. -/
structure OpsK where
  d : BitVec 6
  imm : BitVec 16
  deriving DecidableEq, Repr

/-- Format C. -/
structure OpsC where
  md : BitVec 4
  a : BitVec 6
  b : BitVec 6
  la : Bool
  lb : Bool
  cond : BitVec 3
  deriving DecidableEq, Repr

/-- Format U; the function is the constructor's. -/
structure OpsU where
  d : BitVec 6
  a : BitVec 6
  la : Bool
  flag : BitVec 3
  deriving DecidableEq, Repr

/-- Format M. -/
structure OpsM where
  md : BitVec 4
  ma : BitVec 4
  mb : BitVec 4
  s : BitVec 6
  ls : Bool
  deriving DecidableEq, Repr

/-- Format X. -/
structure OpsX where
  d : BitVec 6
  a : BitVec 6
  b : BitVec 6
  la : Bool
  lb : Bool
  fill : BitVec 2
  deriving DecidableEq, Repr

/-- Format LD. -/
structure OpsLD where
  d : BitVec 6
  a : BitVec 6
  s : BitVec 3
  la : Bool
  ls : Bool
  flag : BitVec 3
  fmt : BitVec 2
  deriving DecidableEq, Repr

/-- Format LDA. -/
structure OpsLDA where
  d : BitVec 6
  a : BitVec 6
  s : BitVec 2
  la : Bool
  ls : Bool
  flag : BitVec 2
  scope : BitVec 4
  deriving DecidableEq, Repr

/-- Format ST; `d` is the data field. -/
structure OpsST where
  d : BitVec 6
  a : BitVec 6
  s : BitVec 3
  la : Bool
  ld : Bool
  ls : Bool
  fmt : BitVec 4
  deriving DecidableEq, Repr

/-- Format STR. -/
structure OpsSTR where
  d : BitVec 6
  a : BitVec 6
  s : BitVec 2
  la : Bool
  ld : Bool
  ls : Bool
  scope : BitVec 4
  deriving DecidableEq, Repr

/-- Format STF. -/
structure OpsSTF where
  d : BitVec 6
  a : BitVec 6
  s : BitVec 2
  la : Bool
  ld : Bool
  ls : Bool
  cons : BitVec 5
  deriving DecidableEq, Repr

/-- Format LDL. -/
structure OpsLDL where
  d : BitVec 6
  a : BitVec 6
  la : Bool
  flag : BitVec 3
  fmt : BitVec 2
  off : BitVec 4
  deriving DecidableEq, Repr

/-- Format STL. -/
structure OpsSTL where
  d : BitVec 6
  a : BitVec 6
  la : Bool
  ld : Bool
  fmt : BitVec 4
  off : BitVec 4
  deriving DecidableEq, Repr

/-- Format AT; the operation is the constructor's. -/
structure OpsAT where
  d : BitVec 6
  a : BitVec 6
  b : BitVec 6
  la : Bool
  lb : Bool
  deriving DecidableEq, Repr

/-- Format P16. -/
structure OpsP16 where
  d : BitVec 6
  a : BitVec 6
  s : BitVec 3
  ld : Bool
  la : Bool
  ls : Bool
  sync : BitVec 4
  deriving DecidableEq, Repr

/-- Format F. -/
structure OpsF where
  sa : BitVec 6
  sb : BitVec 6
  la : Bool
  lb : Bool
  scope : BitVec 4
  deriving DecidableEq, Repr

/-- Format B; call is the constructor's. -/
structure OpsB where
  mask : BitVec 4
  sense : Bool
  off : BitVec 16
  deriving DecidableEq, Repr

/-- Format T. -/
structure OpsT where
  a : BitVec 6
  la : Bool
  imm : BitVec 8
  deriving DecidableEq, Repr

/-- Format S. -/
structure OpsS where
  sd : BitVec 6
  sa : BitVec 6
  sb : BitVec 6
  la : Bool
  lb : Bool
  deriving DecidableEq, Repr

/-- A 16-bit lane form (R76). -/
structure OpsC16 where
  rd : BitVec 5
  rs : BitVec 4
  ls : Bool
  deriving DecidableEq, Repr

/-- The payload of a 32-bit instruction by its format, the selector apart (R82). -/
inductive Body where
  | A (o : OpsA)
  | I (o : OpsI)
  | K (o : OpsK)
  | C (o : OpsC)
  | U (o : OpsU)
  | M (o : OpsM)
  | X (o : OpsX)
  | LD (o : OpsLD)
  | LDA (o : OpsLDA)
  | ST (o : OpsST)
  | STR (o : OpsSTR)
  | STF (o : OpsSTF)
  | LDL (o : OpsLDL)
  | STL (o : OpsSTL)
  | AT (o : OpsAT)
  | P16 (o : OpsP16)
  | F (o : OpsF)
  | B (o : OpsB)
  | T (o : OpsT)
  | S (o : OpsS)
  deriving DecidableEq, Repr

/-- Why a group is no instruction (03 R99), each reason with the rule that names it. -/
inductive IllegalWhy where
  /-- majors 0x00 and 0x3A to 0x3D (R95) -/
  | reservedMajor
  /-- a reserved minor or function (R95 to R97) -/
  | reservedSelector
  /-- a reserved condition, format, fill, scope, ordering or rounding code (R85, R87, R96, R49) -/
  | reservedCode
  /-- a zero field that is not zero (R82, R97, R98) -/
  | zeroField
  /-- an operand code 62 or 63, or a destination code 56 to 59 or 61 to 63 (R80) -/
  | operandCode
  /-- a last-use bit against R81 -/
  | lastUse
  /-- a 16-bit parcel of R77 that is no lane form -/
  | laneForm
  /-- a PREFIX or REPEAT against R74, R86 to R89 -/
  | pfxRule
  /-- a REPEAT against R91 -/
  | repeatRule
  /-- a group against R79 or R93 -/
  | groupShape
  /-- a stop bit against R75 -/
  | stopBit
  /-- a field condition of R83, R84 or R98, or of the instruction's own description -/
  | fieldRule
  deriving DecidableEq, Repr

/-- A group that is no instruction: why, and what the trap frame reports of it (R100). -/
structure BadGroup where
  why : IllegalWhy
  insn : BitVec 32
  pfxw : BitVec 32
  len : Nat
  deriving DecidableEq, Repr

/-- A message of a host or a peer as its connection delivers it (26 R488, R489): the port, the sending host
or package, and the header's fields with the payload. -/
structure Msg where
  port : Nat
  peer : Nat
  conn : BitVec 32
  seq : BitVec 32
  ack : BitVec 32
  addr : BitVec 64
  len : BitVec 16
  op : BitVec 8
  tag : BitVec 32
  payload : List Byte
  deriving DecidableEq, Repr

/-- One island's measurement over one interval (27 R520): dynamic and idle energy in nanojoules, and for
each launch its u and r counts. -/
structure EnergySample where
  island : Nat
  dyn : Nat
  idle : Nat
  uses : List (Nat × Nat × Nat)
  deriving DecidableEq, Repr

/-- Where an uncorrectable soft error strikes (01 R38, R39). -/
inductive ErrorSite where
  /-- the word at physical address pa in a core's L1 -/
  | l1Word (core pa : Nat)
  /-- the L2 line at pa in its home slice, in a way of that slice -/
  | l2Line (pa way : Nat)
  /-- the line at pa in a replica held by a die -/
  | replica (die pa : Nat)
  /-- the memory at pa -/
  | hbm (pa : Nat)
  /-- the memory of the next packet of a trigger queue, as the Ringmaster reads it (16 R334) -/
  | packet (queue : Nat)
  /-- the memory of the next record of a completion queue, as the Ringmaster writes it (16 R335) -/
  | record (queue : Nat)
  /-- a core's scratchpad at an offset -/
  | scratch (core off : Nat)
  /-- a view in a core's pool, by its place among them -/
  | view (core place : Nat)
  deriving DecidableEq, Repr

/-- What one pass of the patrol scrubber found (01 R38): corrected errors by island, the HBM rows (socket,
bank, row) in which it corrected one, and the L2 ways (address of a line, way) that were uncorrectable. -/
structure ScrubReport where
  corrected : List (Nat × Nat)
  rows : List (Nat × Nat × Nat)
  ways : List (Nat × Nat)
  deriving DecidableEq, Repr

/-- The instructions, operations and events, one constructor for each row of spec/opcode_table.json. -/
inductive Instr where

  /-- IADD (R158): Adds a and b in each ACTIVE lane modulo 2^32. -/
  | iadd (g : Grp) (o : OpsA)
  /-- ISUB (R158): Subtracts b from a in each ACTIVE lane modulo 2^32. -/
  | isub (g : Grp) (o : OpsA)
  /-- IMUL (R158): Low 32 bits of the product of a and b in each ACTIVE lane. -/
  | imul (g : Grp) (o : OpsA)
  /-- IMULH (R158): High 32 bits of the signed 64-bit product of a and b. -/
  | imulh (g : Grp) (o : OpsA)
  /-- IMULHU (R158): High 32 bits of the unsigned 64-bit product of a and b. -/
  | imulhu (g : Grp) (o : OpsA)
  /-- IMAD (R158): Computes (a × b + c) mod 2^32 with c from the required PREFIX. -/
  | imad (g : Grp) (o : OpsA)
  /-- IDIV (R165): Defined signed division that raises UNIMPL in this part for a handler to emulate. -/
  | idiv (g : Grp) (o : OpsA)
  /-- IREM (R165): Defined signed remainder that raises UNIMPL in this part for a handler to emulate. -/
  | irem (g : Grp) (o : OpsA)
  /-- IMIN (R158): Signed minimum of a and b per lane. -/
  | imin (g : Grp) (o : OpsA)
  /-- IMAX (R158): Signed maximum of a and b per lane. -/
  | imax (g : Grp) (o : OpsA)
  /-- UMIN (R158): Unsigned minimum of a and b per lane. -/
  | umin (g : Grp) (o : OpsA)
  /-- UMAX (R158): Unsigned maximum of a and b per lane. -/
  | umax (g : Grp) (o : OpsA)
  /-- AND (R158): Bitwise AND of a and b per lane. -/
  | and (g : Grp) (o : OpsA)
  /-- OR (R158): Bitwise OR of a and b per lane. -/
  | or (g : Grp) (o : OpsA)
  /-- XOR (R158): Bitwise XOR of a and b per lane. -/
  | xor (g : Grp) (o : OpsA)
  /-- ANDN (R158): a AND NOT b per lane. -/
  | andn (g : Grp) (o : OpsA)
  /-- SHL (R159): Shifts a left by the whole of b, giving 0 for counts of 32 or more. -/
  | shl (g : Grp) (o : OpsA)
  /-- SHR (R159): Logical right shift of a by the whole of b. -/
  | shr (g : Grp) (o : OpsA)
  /-- SAR (R159): Arithmetic right shift of a by the whole of b. -/
  | sar (g : Grp) (o : OpsA)
  /-- ROTL (R159): Rotates a left by b mod 32. -/
  | rotl (g : Grp) (o : OpsA)
  /-- BFX (R160): Extracts a zero-extended bit field of a under the control word b. -/
  | bfx (g : Grp) (o : OpsA)
  /-- BFI (R160): Inserts low bits of b into a at the field given by control word c. -/
  | bfi (g : Grp) (o : OpsA)
  /-- SEL (R160): Selects a where c is nonzero, else b. -/
  | sel (g : Grp) (o : OpsA)
  /-- IADD_IMM (R161): Adds a sign-extended 7-bit immediate to a. -/
  | iaddImm (g : Grp) (o : OpsI)
  /-- IMUL_IMM (R161): Multiplies a by a sign-extended 7-bit immediate. -/
  | imulImm (g : Grp) (o : OpsI)
  /-- AND_IMM (R161): ANDs a with a sign-extended 7-bit immediate. -/
  | andImm (g : Grp) (o : OpsI)
  /-- OR_IMM (R161): ORs a with a sign-extended 7-bit immediate. -/
  | orImm (g : Grp) (o : OpsI)
  /-- XOR_IMM (R161): XORs a with a sign-extended 7-bit immediate. -/
  | xorImm (g : Grp) (o : OpsI)
  /-- SHL_IMM (R161): Shifts a left by a 5-bit immediate count. -/
  | shlImm (g : Grp) (o : OpsI)
  /-- SHR_IMM (R161): Logical right shift of a by a 5-bit immediate count. -/
  | shrImm (g : Grp) (o : OpsI)
  /-- SAR_IMM (R161): Arithmetic right shift of a by a 5-bit immediate count. -/
  | sarImm (g : Grp) (o : OpsI)
  /-- MOVI (R162): Writes the sign-extended 16-bit immediate to each ACTIVE lane. -/
  | movi (g : Grp) (o : OpsK)
  /-- MOVH (R162): Replaces the high half of d with the immediate, keeping d's low half. -/
  | movh (g : Grp) (o : OpsK)
  /-- ICMP (R163): Writes mask bits from an integer comparison of a and b per ACTIVE lane. -/
  | icmp (g : Grp) (o : OpsC)
  /-- FADD (R176): FP32 sum of a and b rounded once in the instruction's mode. -/
  | fadd (g : Grp) (o : OpsA)
  /-- FSUB (R176): FP32 difference a − b rounded once. -/
  | fsub (g : Grp) (o : OpsA)
  /-- FMUL (R176): FP32 product rounded once. -/
  | fmul (g : Grp) (o : OpsA)
  /-- FFMA (R176): Fused a × b + c with one rounding, c from the required PREFIX. -/
  | ffma (g : Grp) (o : OpsA)
  /-- FMIN (R178): minimumNumber of a and b without rounding. -/
  | fmin (g : Grp) (o : OpsA)
  /-- FMAX (R178): maximumNumber of a and b without rounding. -/
  | fmax (g : Grp) (o : OpsA)
  /-- FCMP (R179): Writes mask bits from a quiet FP32 comparison per ACTIVE lane. -/
  | fcmp (g : Grp) (o : OpsC)
  /-- MOV (R164): Copies a to d in each ACTIVE lane. -/
  | mov (g : Grp) (o : OpsU)
  /-- NOT (R164): Bitwise NOT of a per lane. -/
  | not (g : Grp) (o : OpsU)
  /-- INEG (R164): Two's-complement negation of a per lane. -/
  | ineg (g : Grp) (o : OpsU)
  /-- IABS (R164): Absolute value of a as I32 per lane. -/
  | iabs (g : Grp) (o : OpsU)
  /-- POPC (R164): Counts set bits of a per lane. -/
  | popc (g : Grp) (o : OpsU)
  /-- CLZ (R164): Counts leading zero bits of a per lane. -/
  | clz (g : Grp) (o : OpsU)
  /-- BREV (R164): Reverses the bits of a per lane. -/
  | brev (g : Grp) (o : OpsU)
  /-- MOVS (R164): Copies bits [31:0] of a scalar register into every ACTIVE lane. -/
  | movs (g : Grp) (o : OpsU)
  /-- FNEG (R180): Inverts the sign bit of a, NaN giving the canonical NaN. -/
  | fneg (g : Grp) (o : OpsU)
  /-- FABS (R180): Clears the sign bit of a, NaN giving the canonical NaN. -/
  | fabs (g : Grp) (o : OpsU)
  /-- FRCP (R183): SFU reciprocal whose result lands 12 cc later, optionally counted on a flag. -/
  | frcp (g : Grp) (o : OpsU)
  /-- FRSQ (R183): SFU reciprocal square root landing 12 cc later. -/
  | frsq (g : Grp) (o : OpsU)
  /-- FSQRT (R185): SFU square root rounded once in its mode, landing 12 cc later. -/
  | fsqrt (g : Grp) (o : OpsU)
  /-- FEXP2 (R183): SFU base-2 exponential landing 12 cc later. -/
  | fexp2 (g : Grp) (o : OpsU)
  /-- FLOG2 (R183): SFU base-2 logarithm landing 12 cc later. -/
  | flog2 (g : Grp) (o : OpsU)
  /-- FSIN (R183): SFU sine in radians landing 12 cc later. -/
  | fsin (g : Grp) (o : OpsU)
  /-- FCOS (R183): SFU cosine in radians landing 12 cc later. -/
  | fcos (g : Grp) (o : OpsU)
  /-- FTANH (R183): SFU hyperbolic tangent landing 12 cc later. -/
  | ftanh (g : Grp) (o : OpsU)
  /-- FFLOOR (R180): Greatest integer not above a, as FP32. -/
  | ffloor (g : Grp) (o : OpsU)
  /-- FCEIL (R180): Least integer not below a, as FP32. -/
  | fceil (g : Grp) (o : OpsU)
  /-- FRINT (R180): Rounds a to an integer in the instruction's mode. -/
  | frint (g : Grp) (o : OpsU)
  /-- FCVTI (R181): Converts FP32 to I32 with saturation and NV on NaN or overflow. -/
  | fcvti (g : Grp) (o : OpsU)
  /-- ICVTF (R180): Converts I32 to FP32 rounded in the instruction's mode. -/
  | icvtf (g : Grp) (o : OpsU)
  /-- FCLASS (R182): Writes a one-hot class bit for a. -/
  | fclass (g : Grp) (o : OpsU)
  /-- RAND (R382): Writes the strand's keyed draw per lane and advances the draw counter. -/
  | rand (g : Grp) (o : OpsU)
  /-- MATCH (R217): Writes per lane the mask of ACTIVE lanes holding the same bit pattern. -/
  | matchLanes (g : Grp) (o : OpsU)
  /-- SADD (R168): 64-bit scalar sum, once per issue for the warp. -/
  | sadd (g : Grp) (o : OpsA)
  /-- SSUB (R168): 64-bit scalar difference. -/
  | ssub (g : Grp) (o : OpsA)
  /-- SMUL (R168): 64-bit scalar low product. -/
  | smul (g : Grp) (o : OpsA)
  /-- SAND (R168): 64-bit scalar AND. -/
  | sand (g : Grp) (o : OpsA)
  /-- SOR (R168): 64-bit scalar OR. -/
  | sor (g : Grp) (o : OpsA)
  /-- SXOR (R168): 64-bit scalar XOR. -/
  | sxor (g : Grp) (o : OpsA)
  /-- SSHL (R168): 64-bit scalar left shift. -/
  | sshl (g : Grp) (o : OpsA)
  /-- SSHR (R168): 64-bit scalar logical right shift. -/
  | sshr (g : Grp) (o : OpsA)
  /-- SSAR (R168): 64-bit scalar arithmetic right shift. -/
  | ssar (g : Grp) (o : OpsA)
  /-- SMOV (R168): Copies one scalar register to another. -/
  | smov (g : Grp) (o : OpsA)
  /-- SRDL (R169): Reads lane sb[4:0] of a vector operand into a scalar. -/
  | srdl (g : Grp) (o : OpsA)
  /-- SCMP (R170): Writes an all-ones or all-zeros mask from a 64-bit scalar comparison. -/
  | scmp (g : Grp) (o : OpsC)
  /-- SMOVI (R171): Writes a sign-extended 16-bit immediate to a scalar. -/
  | smovi (g : Grp) (o : OpsK)
  /-- SMOVH (R171): Shifts a scalar left 16 and appends the immediate. -/
  | smovh (g : Grp) (o : OpsK)
  /-- SLD (R172): Plain 8-byte scalar load from memory, holding the warp until written. -/
  | sld (g : Grp) (o : OpsS)
  /-- SST (R172): Plain 8-byte scalar store to memory. -/
  | sst (g : Grp) (o : OpsS)
  /-- LADD (R226): Adds whole bound-group numbers with carry out to m15, counted on f11. -/
  | ladd (g : Grp) (o : OpsA)
  /-- LSUB (R226): Subtracts bound-group numbers with borrow to m15. -/
  | lsub (g : Grp) (o : OpsA)
  /-- LADC (R226): Adds bound-group numbers plus carry-in from m15. -/
  | ladc (g : Grp) (o : OpsA)
  /-- LMULS (R226): Multiply-accumulates a number by a scalar, carry limb to CARRYX. -/
  | lmuls (g : Grp) (o : OpsA)
  /-- LSHL (R226): Shifts bound-group numbers left, overflow flag to m15. -/
  | lshl (g : Grp) (o : OpsA)
  /-- LSHR (R226): Shifts bound-group numbers right, sticky bit to m15. -/
  | lshr (g : Grp) (o : OpsA)
  /-- LCMP (R226): Compares bound-group numbers, writing m15 and m14. -/
  | lcmp (g : Grp) (o : OpsA)
  /-- LNEG (R226): Negates bound-group numbers. -/
  | lneg (g : Grp) (o : OpsA)
  /-- MAND (R135): ANDs two masks for the lanes of the issuing split. -/
  | mand (g : Grp) (o : OpsM)
  /-- MOR (R135): ORs two masks for the split's lanes. -/
  | mor (g : Grp) (o : OpsM)
  /-- MXOR (R135): XORs two masks for the split's lanes. -/
  | mxor (g : Grp) (o : OpsM)
  /-- MNOT (R135): Inverts a mask for the split's lanes. -/
  | mnot (g : Grp) (o : OpsM)
  /-- MMOV (R135): Copies a scalar's bits into a mask for the split's lanes. -/
  | mmov (g : Grp) (o : OpsM)
  /-- MRD (R135): Reads a whole mask into a scalar. -/
  | mrd (g : Grp) (o : OpsM)
  /-- MPOPC (R135): Counts set bits of ma AND mb into a scalar. -/
  | mpopc (g : Grp) (o : OpsM)
  /-- MFFS (R135): Finds the lowest set bit of ma AND mb into a scalar. -/
  | mffs (g : Grp) (o : OpsM)
  /-- XRD (R212): Each ACTIVE lane reads a from the lane named by its b, with fill otherwise. -/
  | xrd (g : Grp) (o : OpsX)
  /-- XBFLY (R212): Each lane reads a from lane l XOR n. -/
  | xbfly (g : Grp) (o : OpsX)
  /-- XBCAST (R212): Each lane reads a from lane n. -/
  | xbcast (g : Grp) (o : OpsX)
  /-- XUP (R212): Each lane reads a from lane l − n. -/
  | xup (g : Grp) (o : OpsX)
  /-- XDN (R212): Each lane reads a from lane l + n. -/
  | xdn (g : Grp) (o : OpsX)
  /-- LD (R198): Checked, widening per-lane load in W32, BF16, F16 or I16, counted on a flag. -/
  | ld (g : Grp) (o : OpsLD)
  /-- LD_BYTE (R198): Checked, widening per-lane load in E4M3, E5M2, I8 or N8, counted on a flag. -/
  | ldByte (g : Grp) (o : OpsLD)
  /-- LDA (R199): W32 load followed by an acquire at its scope. -/
  | lda (g : Grp) (o : OpsLDA)
  /-- ST (R198): Checked, narrowing per-lane store. -/
  | st (g : Grp) (o : OpsST)
  /-- STR (R201): Release at its scope, then a W32 store. -/
  | str (g : Grp) (o : OpsSTR)
  /-- STF (R202): W32 store whose lines are forward-tagged for a consumer cluster. -/
  | stf (g : Grp) (o : OpsSTF)
  /-- LDL (R203): Per-lane scratchpad load with widening, counted on a flag. -/
  | ldl (g : Grp) (o : OpsLDL)
  /-- STL (R203): Per-lane scratchpad store with narrowing. -/
  | stl (g : Grp) (o : OpsSTL)
  /-- ATOM_ADD (R207): Atomic add at the word's home slice, returning the old value. -/
  | atomAdd (g : Grp) (o : OpsAT)
  /-- ATOM_AND (R207): Atomic AND at the home slice. -/
  | atomAnd (g : Grp) (o : OpsAT)
  /-- ATOM_OR (R207): Atomic OR at the home slice. -/
  | atomOr (g : Grp) (o : OpsAT)
  /-- ATOM_XOR (R207): Atomic XOR at the home slice. -/
  | atomXor (g : Grp) (o : OpsAT)
  /-- ATOM_MIN (R207): Atomic signed minimum at the home slice. -/
  | atomMin (g : Grp) (o : OpsAT)
  /-- ATOM_MAX (R207): Atomic signed maximum at the home slice. -/
  | atomMax (g : Grp) (o : OpsAT)
  /-- ATOM_UMIN (R207): Atomic unsigned minimum at the home slice. -/
  | atomUmin (g : Grp) (o : OpsAT)
  /-- ATOM_UMAX (R207): Atomic unsigned maximum at the home slice. -/
  | atomUmax (g : Grp) (o : OpsAT)
  /-- ATOM_XCHG (R207): Atomic exchange at the home slice. -/
  | atomXchg (g : Grp) (o : OpsAT)
  /-- ATOM_CAS (R207): Atomic compare-and-swap with comparand c from the required PREFIX. -/
  | atomCas (g : Grp) (o : OpsAT)
  /-- ATOM_FADD (R207): Atomic FP32 add in RNE at the home slice. -/
  | atomFadd (g : Grp) (o : OpsAT)
  /-- ATOM_SUB (R207): Atomic subtract at the home slice. -/
  | atomSub (g : Grp) (o : OpsAT)
  /-- ATOML_ADD (R207): Atomic add on a scratchpad word. -/
  | atomlAdd (g : Grp) (o : OpsAT)
  /-- ATOML_AND (R207): Atomic AND on a scratchpad word. -/
  | atomlAnd (g : Grp) (o : OpsAT)
  /-- ATOML_OR (R207): Atomic OR on a scratchpad word. -/
  | atomlOr (g : Grp) (o : OpsAT)
  /-- ATOML_XOR (R207): Atomic XOR on a scratchpad word. -/
  | atomlXor (g : Grp) (o : OpsAT)
  /-- ATOML_MIN (R207): Atomic signed minimum on a scratchpad word. -/
  | atomlMin (g : Grp) (o : OpsAT)
  /-- ATOML_MAX (R207): Atomic signed maximum on a scratchpad word. -/
  | atomlMax (g : Grp) (o : OpsAT)
  /-- ATOML_UMIN (R207): Atomic unsigned minimum on a scratchpad word. -/
  | atomlUmin (g : Grp) (o : OpsAT)
  /-- ATOML_UMAX (R207): Atomic unsigned maximum on a scratchpad word. -/
  | atomlUmax (g : Grp) (o : OpsAT)
  /-- ATOML_XCHG (R207): Atomic exchange on a scratchpad word. -/
  | atomlXchg (g : Grp) (o : OpsAT)
  /-- ATOML_CAS (R207): Atomic compare-and-swap on a scratchpad word with c from the required PREFIX. -/
  | atomlCas (g : Grp) (o : OpsAT)
  /-- ATOML_FADD (R207): Atomic FP32 add on a scratchpad word. -/
  | atomlFadd (g : Grp) (o : OpsAT)
  /-- ATOML_SUB (R207): Atomic subtract on a scratchpad word. -/
  | atomlSub (g : Grp) (o : OpsAT)
  /-- CPY16 (R210): Copies 16 bytes per ACTIVE lane from memory to scratchpad, counting at a sync word. -/
  | cpy16 (g : Grp) (o : OpsP16)
  /-- FENCE (R279): Release then acquire at its scope, joining the sc order. -/
  | fence (g : Grp) (o : OpsF)
  /-- FENCER (R279): Release restricted to in-range accesses, holding later in-range accesses. -/
  | fencer (g : Grp) (o : OpsF)
  /-- ACQ (R279): Acquire action at its scope. -/
  | acq (g : Grp) (o : OpsF)
  /-- ACQR (R279): Acquire invalidating only a range. -/
  | acqr (g : Grp) (o : OpsF)
  /-- REL (R279): Release action at its scope. -/
  | rel (g : Grp) (o : OpsF)
  /-- RELR (R279): Release restricted to in-range stores. -/
  | relr (g : Grp) (o : OpsF)
  /-- BRA (R125): PC-relative branch taken in lanes whose mask bit equals sense. -/
  | bra (g : Grp) (o : OpsB)
  /-- CALL (R125): Conditional call writing the return address to the per-warp return stack. -/
  | call (g : Grp) (o : OpsB)
  /-- BRX (R126): Per-lane indirect branch to a vector target. -/
  | brx (g : Grp) (o : OpsT)
  /-- CALLX (R126): Per-lane indirect call. -/
  | callx (g : Grp) (o : OpsT)
  /-- RET (R127): Returns each lane through its own return-stack frame. -/
  | ret (g : Grp) (o : OpsT)
  /-- EXIT (R122): Sets EXITED in every lane of the issuing split. -/
  | exit (g : Grp) (o : OpsT)
  /-- FUSE (R121): Parks the split until no LIVE lane has a lower key, then advances. -/
  | fuse (g : Grp) (o : OpsT)
  /-- YIELD (R244): Sets the warp's yield mark and advances. -/
  | yield (g : Grp) (o : OpsT)
  /-- TRAP (R322): Raises TRAP with an 8-bit code, reporting the next group. -/
  | trap (g : Grp) (o : OpsT)
  /-- TRET (R323): Reloads the warp from its edited frame and leaves handler. -/
  | tret (g : Grp) (o : OpsT)
  /-- BRK (R322): Raises BREAK with an 8-bit code against its own group. -/
  | brk (g : Grp) (o : OpsT)
  /-- LBIND (R221): Binds lanes into bound groups of 2 to 32 after f11 drains. -/
  | lbind (g : Grp) (o : OpsT)
  /-- LFREE (R221): Ends the lane binding after f11 drains. -/
  | lfree (g : Grp) (o : OpsT)
  /-- NOP (R129): Advances PC with no other effect. -/
  | nop (g : Grp) (o : OpsT)
  /-- TSPAWN (R373): Releases, creates a child task with extended pedigree and pushes it on the core's deque. -/
  | tspawn (g : Grp) (o : OpsS)
  /-- TSYNC (R375): Leapfrogs or parks until the epoch's children and merges are done, then starts a new epoch. -/
  | tsync (g : Grp) (o : OpsS)
  /-- PGRD (R378): Reads one level of the strand pedigree into a scalar. -/
  | pgrd (g : Grp) (o : OpsS)
  /-- PGKEY (R378): Reads the strand key or task key into a scalar. -/
  | pgkey (g : Grp) (o : OpsS)
  /-- PALLOC (R384): Claims a keyed arena slot and returns its address. -/
  | palloc (g : Grp) (o : OpsS)
  /-- TLOG (R385): Claims a keyed log slot and writes seven scalars to it. -/
  | tlog (g : Grp) (o : OpsS)
  /-- QEMIT (R339): Releases and offers a 32-byte record on an edge of the node. -/
  | qemit (g : Grp) (o : OpsS)
  /-- QREAD (R340): Reads one record of the launch's batch and the batch count. -/
  | qread (g : Grp) (o : OpsS)
  /-- RDECL (R392): Declares a reducer and creates the task's own view at identity. -/
  | rdecl (g : Grp) (o : OpsS)
  /-- RUPD (R393): Queues COMBINE of each ACTIVE lane's value into the task's holder view. -/
  | rupd (g : Grp) (o : OpsS)
  /-- RGET (R394): Reads the declarer's view value, the final read for FADD. -/
  | rget (g : Grp) (o : OpsS)
  /-- CPY (R427): Starts a bulk copy from a four-scalar descriptor in the open batch. -/
  | cpy (g : Grp) (o : OpsS)
  /-- CPYMX (R431): Bulk copy carrying a follow-on matrix command. -/
  | cpymx (g : Grp) (o : OpsS)
  /-- CPYNB (R433): Copies scratchpad to another block's scratchpad over Piste links. -/
  | cpynb (g : Grp) (o : OpsS)
  /-- CSEAL (R411): Returns the open batch number and opens the next. -/
  | cseal (g : Grp) (o : OpsS)
  /-- CWAITB (R412): Parks until every batch at or below n has completed. -/
  | cwaitb (g : Grp) (o : OpsS)
  /-- SYNCI (R404): Re-arms a sync word with a new target, keeping GEN. -/
  | synci (g : Grp) (o : OpsS)
  /-- SYNCA (R405): Optionally releases, then arrives at a sync word with an amount. -/
  | synca (g : Grp) (o : OpsS)
  /-- SYNCW (R407): Parks until the sync word's phase bit differs from the expected phase, then acquires. -/
  | syncw (g : Grp) (o : OpsS)
  /-- SYNCT (R406): Reads a sync word into a scalar. -/
  | synct (g : Grp) (o : OpsS)
  /-- RINGI (R417): Initialises a Carousel's pointers, configuration and slot words. -/
  | ringi (g : Grp) (o : OpsS)
  /-- RAWAIT (R418): Takes the next FULL Carousel slot with an acquire, parking while none is full. -/
  | rawait (g : Grp) (o : OpsS)
  /-- RREL (R419): Frees the oldest TAKEN Carousel slot. -/
  | rrel (g : Grp) (o : OpsS)
  /-- TIDSET (R447): Writes a tensor identifier image on every die and sets V. -/
  | tidset (g : Grp) (o : OpsS)
  /-- CBLOAD (R447): Writes the 16-entry codebook of a tensor identifier. -/
  | cbload (g : Grp) (o : OpsS)
  /-- MXLS (R460): Queues a load of the shadow plane from scratchpad weights. -/
  | mxls (g : Grp) (o : OpsS)
  /-- MXSWAP (R461): Queues an exchange of the active and shadow planes. -/
  | mxswap (g : Grp) (o : OpsS)
  /-- MXSTR (R462): Queues streaming of activation rows through the active plane into a tile. -/
  | mxstr (g : Grp) (o : OpsS)
  /-- MXZERO (R464): Queues zeroing of a tile and setting of its format. -/
  | mxzero (g : Grp) (o : OpsS)
  /-- MXRD (R465): Queues a read of a half tile row into all lanes of a vector register. -/
  | mxrd (g : Grp) (o : OpsS)
  /-- MXWR (R465): Queues a write of a vector register into a half tile row. -/
  | mxwr (g : Grp) (o : OpsS)
  /-- MXST (R466): Queues a narrowing store of a tile to scratchpad or memory. -/
  | mxst (g : Grp) (o : OpsS)
  /-- MXFLAGS (R467): Queues a read, and optional clear, of a tile's sticky flags. -/
  | mxflags (g : Grp) (o : OpsS)
  /-- TSTAMP (R468): Opens a stamp record on a tile at issue. -/
  | tstamp (g : Grp) (o : OpsS)
  /-- PPOINT (R470): Waits for the queue to empty and puts a live-tile mask in force. -/
  | ppoint (g : Grp) (o : OpsS)
  /-- CSRR (R314): Reads a context or warp register into a scalar. -/
  | csrr (g : Grp) (o : OpsS)
  /-- CSRW (R314): Writes a scalar to a context or warp register under its Access rules. -/
  | csrw (g : Grp) (o : OpsS)
  /-- TIME (R521): Reads the package time base into a scalar. -/
  | time (g : Grp) (o : OpsS)
  /-- BBC (R522): Adds the split's lane count to basic-block counter k. -/
  | bbc (g : Grp) (o : OpsS)
  /-- MIGRATE (R302): Moves a task warp to the home die of an address. -/
  | migrate (g : Grp) (o : OpsS)
  /-- IADD_C (R77): 16-bit lane form of IADD with d = a. -/
  | iaddC (o : OpsC16)
  /-- ISUB_C (R77): 16-bit lane form of ISUB. -/
  | isubC (o : OpsC16)
  /-- IMUL_C (R77): 16-bit lane form of IMUL. -/
  | imulC (o : OpsC16)
  /-- AND_C (R77): 16-bit lane form of AND. -/
  | andC (o : OpsC16)
  /-- OR_C (R77): 16-bit lane form of OR. -/
  | orC (o : OpsC16)
  /-- XOR_C (R77): 16-bit lane form of XOR. -/
  | xorC (o : OpsC16)
  /-- SHL_C (R77): 16-bit lane form of SHL. -/
  | shlC (o : OpsC16)
  /-- SHR_C (R77): 16-bit lane form of SHR. -/
  | shrC (o : OpsC16)
  /-- SAR_C (R77): 16-bit lane form of SAR. -/
  | sarC (o : OpsC16)
  /-- MOV_C (R77): 16-bit MOV from rs to rd. -/
  | movC (o : OpsC16)
  /-- FADD_C (R77): 16-bit lane form of FADD in RNE. -/
  | faddC (o : OpsC16)
  /-- FSUB_C (R77): 16-bit lane form of FSUB in RNE. -/
  | fsubC (o : OpsC16)
  /-- FMUL_C (R77): 16-bit lane form of FMUL in RNE. -/
  | fmulC (o : OpsC16)
  /-- FMIN_C (R77): 16-bit lane form of FMIN. -/
  | fminC (o : OpsC16)
  /-- FMAX_C (R77): 16-bit lane form of FMAX. -/
  | fmaxC (o : OpsC16)
  /-- IMIN_C (R77): 16-bit lane form of IMIN. -/
  | iminC (o : OpsC16)
  /-- NOP_C (R129): 16-bit NOP. -/
  | nopC
  /-- YIELD_C (R244): 16-bit YIELD. -/
  | yieldC
  /-- WAIT (R237): Issues once every named completion flag reads zero and its distance has elapsed. -/
  | wait (flags : BitVec 12)
  /-- POWER_INPUT_VALID (R16): 54 V input within limits for 10 ms moves POWER_OFF to RESET. -/
  | powerInputValid
  /-- RESET_RELEASE (R16): The regulator sequencer releases reset and the boot ROM checks the management firmware. -/
  | resetRelease
  /-- SELF_TEST_DONE (R16): Self-test ends, moving to UNOWNED with islands at point 3 or to FAILED. -/
  | selfTestDone (pass : Bool)
  /-- POWER_REMOVED (R16): Removal of input power returns THERMAL_TRIP or FAILED to POWER_OFF. -/
  | powerRemoved
  /-- THERMAL_TRIP (R16): A die reaching 110 °C turns every island off at once. -/
  | thermalTrip (socket : Nat)
  /-- THERMAL_WARNING (R35): A die reaching 100 °C is reported to every owner connection without action. -/
  | thermalWarning (socket : Nat) (temp : BitVec 32)
  /-- POWER_CAP_EXCEEDED (R35): Package input power exceeding the owner's cap is reported without action. -/
  | powerCapExceeded (watts : BitVec 32)
  /-- ENERGY_INTERVAL (R520): Each 1 µs interval measures island energy, updates telemetry and charges launches. -/
  | energyInterval (samples : List EnergySample)
  /-- TEMPERATURE_REPORT (R35): Every 100 µs the hottest sensor of each die and input power are recorded. -/
  | temperatureReport (temps : List (Nat × BitVec 16)) (power : BitVec 64)
  /-- CLAIM_NONCE_EXPIRY (R19): A connection's claim nonce ceases to be current after 10 s. -/
  | claimNonceExpiry (port : Nat) (conn : BitVec 32)
  /-- HANDOVER_TIMEOUT (R16): The 60 s handover timer expires and the owner is unchanged. -/
  | handoverTimeout
  /-- OPEN (R504): Opens a connection on CONN 0, checking package numbers on fabric ports. -/
  | openConn (m : Msg)
  /-- CLOSE (R492): Closes one of the sender's connections, which then fails. -/
  | close (m : Msg)
  /-- REGREAD (R502): Returns management register bytes, to any host for registers so marked. -/
  | regread (m : Msg)
  /-- REGWRITE (R502): Writes management registers that have no behaviour of their own. -/
  | regwrite (m : Msg)
  /-- FEATACCEPT_WRITE (R24): Owner write of the accepted feature set, once per ownership. -/
  | featacceptWrite (m : Msg)
  /-- ISLAND_GO (R33): Writing GO starts an island's transition to REQSTATE and REQPOINT or refuses it. -/
  | islandGo (m : Msg)
  /-- ISLAND_TRANSITION_DONE (R34): An island's state or point change completes and BUSY clears. -/
  | islandTransitionDone (island : Nat)
  /-- PORT_ENABLE (R486): PORTCTL.EN := 1 starts link training. -/
  | portEnable (m : Msg)
  /-- PORT_DISABLE (R486): PORTCTL.EN := 0 disables the port and fails its connections. -/
  | portDisable (m : Msg)
  /-- DEBUG_REGISTER_WRITE (R509): Owner write of DBGCTL, breakpoints or watchpoints with ordinal and state checks. -/
  | debugRegisterWrite (m : Msg)
  /-- CLAIM (R20): Signed claim that makes its key the owner key or binds an owner connection. -/
  | claim (m : Msg)
  /-- HANDOVER (R16): Signed command recording a successor key hash and starting the 60 s timer. -/
  | handover (m : Msg)
  /-- RELEASE (R16): Signed release returning the package to UNOWNED when every context is EMPTY. -/
  | release (m : Msg)
  /-- CANCEL (R16): Signed cancel of a handover. -/
  | cancel (m : Msg)
  /-- RESET (R16): Signed reset losing every context and returning to RESET. -/
  | reset (m : Msg)
  /-- ATTEST (R29): Returns an attestation report signed with the identity key. -/
  | attest (m : Msg)
  /-- FW_STAGE (R26): Delivers firmware image chunks, verified into the inactive slot after the last. -/
  | fwStage (m : Msg)
  /-- FW_ACTIVATE (R27): Signed activation of a staged firmware image. -/
  | fwActivate (m : Msg)
  /-- FW_ADVANCE (R28): Signed, irreversible advance of a component's minimum security version. -/
  | fwAdvance (m : Msg)
  /-- SPARE (R36): Planned sparing of a core: pre-empt, write back, map a spare, resume. -/
  | spare (m : Msg)
  /-- CORE_FAILURE (R37): An unplanned core failure fences the core and faults its contexts. -/
  | coreFailure (core : Nat)
  /-- UNCORRECTABLE_SOFT_ERROR (R39): An uncorrectable error is refetched if a current copy exists, else faults the context and retires the frame. -/
  | uncorrectableSoftError (site : ErrorSite)
  /-- PATROL_SCRUB (R38): The scrubber reads and corrects arrays and HBM rows over each 24-hour period. -/
  | patrolScrub (report : ScrubReport)
  /-- INVALIDATE (R295): Owner command broadcasting a translation invalidation to the compute dies. -/
  | invalidate (m : Msg)
  /-- INVALIDATE_DIE_DONE (R295): A die finishes dropping entries and draining accesses and acknowledges. -/
  | invalidateDieDone (op die : Nat)
  /-- MULTICAST_ACK (R484): A destination's acknowledgement is counted; the last completes the operation. -/
  | multicastAck (op dest : Nat)
  /-- MULTICAST_RESIDUAL_SEND (R483): A waiting residual multicast copy forks to branch ports that have room. -/
  | multicastResidualSend (op : Nat) (dests : List Nat)
  /-- RESOLVE (R298): Frees a fault-buffer entry and replays its waiters. -/
  | resolve (m : Msg)
  /-- UNRESOLVABLE (R298): Frees a fault-buffer entry and faults its waiters with TRANSLATION. -/
  | unresolvable (m : Msg)
  /-- BUILD (R307): Builds an EMPTY context from the owner's build block. -/
  | build (m : Msg)
  /-- RUN (R306): Moves a BUILT context to RUNNABLE. -/
  | run (m : Msg)
  /-- PREEMPT (R324): Stops dispatch and stealing for a context and starts saving its warps. -/
  | preempt (m : Msg)
  /-- RESUME (R329): Returns a PREEMPTED context to RUNNABLE for re-dispatch. -/
  | resume (m : Msg)
  /-- TEARDOWN (R308): Stops and discards a context's warps and state. -/
  | teardown (m : Msg)
  /-- TEARDOWN_DONE (R308): Teardown steps complete and the context becomes EMPTY. -/
  | teardownDone (ctx : Nat)
  /-- SLICE_PREEMPTION (R324): CTXCFG.SLICE expires while another context waits, starting a slice pre-emption. -/
  | slicePreemption (ctx : Nat)
  /-- PREEMPT_FORCE (R325): A warp without a stop site within 65,536 cc is forced to stop at its next boundary. -/
  | preemptForce (ctx warp : Nat)
  /-- WARP_PREEMPT_STOP (R325): A warp stops at its stop site, releases at system scope and writes its frame. -/
  | warpPreemptStop (ctx warp : Nat)
  /-- PREEMPT_COMPLETE (R325): Every warp and block is saved and the context becomes PREEMPTED or RUNNABLE. -/
  | preemptComplete (ctx : Nat)
  /-- DEFERRED_CAUSE_DELIVERY (R316): A deferred cause enters trap entry before the warp's next issue. -/
  | deferredCauseDelivery (ctx warp : Nat)
  /-- STRAND_TABLE (R370): After 1 ms with no progress possible the context-level cause is raised. -/
  | strandTable (ctx : Nat)
  /-- Q_CREATE (R330): Creates a trigger or completion queue descriptor. -/
  | qCreate (m : Msg)
  /-- Q_RESET (R331): Returns a queue in ERROR to ACTIVE at index n. -/
  | qReset (m : Msg)
  /-- Q_DESTROY (R336): Destroys a queue, with FORCE aborting its running work. -/
  | qDestroy (m : Msg)
  /-- QUEUE_DESTROY_DONE (R336): Forced destruction completes and the queue becomes FREE. -/
  | queueDestroyDone (queue : Nat)
  /-- LOAD_GRAPH (R344): Reads and checks a graph descriptor into the graph store. -/
  | loadGraph (m : Msg)
  /-- UNLOAD_GRAPH (R344): Removes a graph from the graph store. -/
  | unloadGraph (m : Msg)
  /-- SET_TID (R449): Owner write of a whole tensor identifier image and codebook. -/
  | setTid (m : Msg)
  /-- SET_FABWIN (R497): Writes a fabric window table entry. -/
  | setFabwin (m : Msg)
  /-- SET_SAFEPT (R508): Gives the device a context's safe-point list. -/
  | setSafept (m : Msg)
  /-- SET_BBC (R522): Sets BBCCTL for a context. -/
  | setBbc (m : Msg)
  /-- SET_RING (R519): Sets the sample or stamp ring and the sampling period. -/
  | setRing (m : Msg)
  /-- HALT (R513): Halts the context's warps within the named granularity. -/
  | halt (m : Msg)
  /-- DRESUME (R513): Releases halted warps within the named granularity. -/
  | dresume (m : Msg)
  /-- STEP (R516): Issues one group of a halted warp for a lane or its split. -/
  | step (m : Msg)
  /-- READ_WARP (R517): Returns the frame image and trailer of a halted warp. -/
  | readWarp (m : Msg)
  /-- WRITE_WARP (R517): Writes a halted warp's image, applied after the last chunk. -/
  | writeWarp (m : Msg)
  /-- READ (R495): Host or peer request reading bytes of a context's memory. -/
  | read (m : Msg)
  /-- WRITE (R494): Host or peer request registering written words to the host agent. -/
  | write (m : Msg)
  /-- WRITE_REL (R495): Writes back the connection's registered words, then writes the release word. -/
  | writeRel (m : Msg)
  /-- ATOMIC (R496): Host or peer atomic performed at the word's home slice. -/
  | atomic (m : Msg)
  /-- TRIGGER (R332): Announces new packets by carrying a trigger queue's new WR. -/
  | trigger (m : Msg)
  /-- COMPLETION (R490): Received completion, ACK or NAK acknowledging or answering a message. -/
  | completion (m : Msg)
  /-- RETRANSMIT_TIMEOUT (R490): The oldest unacknowledged message's timeout expires and the sender retransmits. -/
  | retransmitTimeout (port : Nat) (conn : BitVec 32)
  /-- PORT_TRAINING_DONE (R486): Link training completes and the port comes UP with the largest healthy group. -/
  | portTrainingDone (port : Nat) (good : BitVec 8)
  /-- PORT_TRAINING_TIMEOUT (R486): After 100 ms with no healthy group the port goes DOWN. -/
  | portTrainingTimeout (port : Nat)
  /-- PORT_RETRAIN (R486): After 100 ms DOWN the port retrains. -/
  | portRetrain (port : Nat)
  /-- LANE_FAILURE (R486): A lane in use fails and the port degrades or goes DOWN. -/
  | laneFailure (port lane : Nat)
  /-- LANE_RESTORE (R486): A larger group healthy for 1 s raises the port's lane count. -/
  | laneRestore (port : Nat) (good : BitVec 8)
  /-- PISTE_BEAT_CRC_FAIL (R482): A Piste beat failing its CRC is replayed; 16 failures fence the link. -/
  | pisteBeatCrcFail (die src dst : Nat)
  /-- PACKET_ACCEPT (R334): The Ringmaster reads a whole packet, accepts it and starts its work or rejects it. -/
  | packetAccept (queue : Nat)
  /-- INSTANCE_START (R346): A graph run starts once the previous run of its graph completes. -/
  | instanceStart (ctx graph : Nat)
  /-- LAUNCH_COMPLETE (R346): A launch's last warp and task complete, making its node DONE and testing successors. -/
  | launchComplete (launch : Nat)
  /-- RECORD_ARRIVAL (R337): An emitted record reaches the successor's Ringmaster and may form a batch launch. -/
  | recordArrival (record : Nat)
  /-- COMPLETION_RECORD_WRITE (R335): The Ringmaster writes a completion record, SEQ last after a release. -/
  | completionRecordWrite (queue : Nat)
  /-- BLOCK_GRANT (R353): The Ringmaster grants residency to a block or cluster group when resources allow. -/
  | blockGrant (launch : Nat) (cores : List Nat)
  /-- GRANT_WAIT_EXPIRY (R354): A group waiting 100 µs bars later grants and steals on its die. -/
  | grantWaitExpiry (launch : Nat)
  /-- TASK_DISPATCH (R377): A free warp slot takes a popped or stolen task and starts its warp. -/
  | taskDispatch (core slot : Nat) (victim : Option Nat)
  /-- TASK_COMPLETE (R371): A task whose warp and children are done completes with a release. -/
  | taskComplete (ctx task : Nat)
  /-- TAG_CLEAR_ACK (R259): A slice acknowledges clearing a retiring tag; the last frees the entry. -/
  | tagClearAck (ctx tag slice : Nat)
  /-- VIEW_MERGE (R395): The merge engine starts merging a completed stolen child's fresh view in spawn order. -/
  | viewMerge (ctx parent : Nat)
  /-- VIEW_MERGE_DONE (R395): A view merge completes and the view is freed. -/
  | viewMergeDone (ctx parent : Nat)
  /-- RUPD_APPLY (R393): A queued RUPD is applied to its holder view. -/
  | rupdApply (ctx warp : Nat)
  /-- REGISTER_REFILL (R147): A descheduled warp's registers are read back when the pool has room. -/
  | registerRefill (ctx warp : Nat)
  /-- LOAD_DATA_LANDS (R198): A load's data lands in every lane and its completion flag falls. -/
  | loadDataLands (ctx warp op : Nat) (evict : List Nat)
  /-- SFU_RESULT_LANDS (R183): An SFU result is written 12 cc after issue and FLAGS are set. -/
  | sfuResultLands (ctx warp op : Nat)
  /-- LONG_RESULT_LANDS (R227): A long-integer instruction's results land and f11 falls. -/
  | longResultLands (ctx warp op : Nat)
  /-- ATOMIC_RESULT_LANDS (R207): An atomic's old values are written and the warp's hold ends. -/
  | atomicResultLands (ctx warp op : Nat)
  /-- RELEASE_ACTION_DONE (R267): A release's last condition holds and held accesses may proceed. -/
  | releaseActionDone (ctx warp : Nat)
  /-- SLICE_READ (R251): A read request at the home slice is served or forwarded to the registrant. -/
  | sliceRead (msg : Nat) (evict : List Nat)
  /-- REGISTRATION_REQUEST (R251): A store's registration request is granted or starts a transfer. -/
  | registrationRequest (msg : Nat) (evict : List Nat)
  /-- GRANT (R250): A grant completes a PENDING L1 word into REGISTERED. -/
  | grant (msg : Nat)
  /-- REVOCATION (R250): The registrant answers a revocation with its word and mask. -/
  | revocation (msg : Nat)
  /-- REVOCATION_ANSWER (R251): The slice ends a transfer, granting the next registrant or performing the atomic. -/
  | revocationAnswer (msg : Nat)
  /-- FORWARDED_READ (R250): The registrant answers a forwarded read directly to the reader. -/
  | forwardedRead (msg : Nat)
  /-- FORWARDED_READ_ANSWER (R254): The reader takes the first of the registrant's answer and the slice's completion. -/
  | forwardedReadAnswer (msg : Nat)
  /-- WRITE_BACK (R251): A registrant's write-back returns the word to HOME. -/
  | writeBack (msg : Nat)
  /-- SLICE_ATOMIC (R251): An atomic at the home slice is performed or waits on a revocation. -/
  | sliceAtomic (msg : Nat)
  /-- CHECK_REQUEST (R258): The race filter compares strand tags and answers pass or RACE. -/
  | checkRequest (msg : Nat)
  /-- TLB_MISS_REQUEST (R289): A translation request reaches its die's translation slice. -/
  | tlbMissRequest (core ctx : Nat) (page : Nat)
  /-- PAGE_WALK_DONE (R291): A table walk completes with a leaf, not present or unresolvable. -/
  | pageWalkDone (ctx : Nat) (page : Nat)
  /-- TRANSLATION_REFUSAL_RETRY (R290): A refused translation request is retried after 128 × 2^k cc. -/
  | translationRefusalRetry (core ctx : Nat) (page : Nat)
  /-- FAULT_BUFFER_RETRY (R299): A fault held for a full buffer is retried every 1024 cc. -/
  | faultBufferRetry (die : Nat)
  /-- COLLAPSE_NOTICE (R293): A die drops the page's lines and translations and acknowledges. -/
  | collapseNotice (op die : Nat)
  /-- COLLAPSE_ACK (R293): The collapse engine counts acks and after the eighth clears REPL. -/
  | collapseAck (op die : Nat)
  /-- COLLAPSE_COMPLETE (R293): The translation slice learns of completion, the page is HOMED and writers replay. -/
  | collapseComplete (op : Nat)
  /-- MIGRATE_DEPART (R302): Once outstanding work lands and the release is done the warp leaves or stays. -/
  | migrateDepart (ctx warp : Nat)
  /-- MIGRATE_LAND (R304): An in-transit warp lands in a free landing slot on the target die. -/
  | migrateLand (ctx warp : Nat)
  /-- MIGRATE_SETTLE (R302): A landed warp moves to a general warp slot that frees on its core. -/
  | migrateSettle (ctx warp : Nat)
  /-- SYNCA_ARRIVAL (R405): A SYNCA's arrival takes effect at its sync word. -/
  | syncaArrival (ctx warp op : Nat)
  /-- COPY_CHUNK_LANDS (R429): A copy chunk lands or is granted and arrives at its sync word. -/
  | copyChunkLands (copy chunk : Nat)
  /-- CPY16_LANE_LANDS (R438): A CPY16 lane's 16 bytes land and arrive with 16 at its sync word. -/
  | cpy16LaneLands (copy : Nat)
  /-- MATRIX_COMMAND_START (R457): A queued matrix command starts when earlier commands started and conflicts cleared. -/
  | matrixCommandStart (ctx block : Nat)
  /-- MATRIX_COMMAND_DONE (R472): A matrix command completes, writes results and arrives at its sync word. -/
  | matrixCommandDone (ctx block cmd : Nat)
  /-- SAMPLE_MARK (R518): Every P cc a core marks one resident warp for a sample. -/
  | sampleMark (ctx core : Nat)
  /-- SAMPLE_RECORD (R518): A marked warp writes a sample record at its next stop site. -/
  | sampleRecord (ctx warp : Nat)
  /-- SAMPLE_MARK_DROP (R518): A mark with no stop site within 65,536 cc is dropped and counted. -/
  | sampleMarkDrop (ctx warp : Nat)
  /-- ILLEGAL_ENCODING (R99): Issue of a group whose encoding is not an instruction (reserved major, reserved minor, malformed group, halfword 0x0000) raises ILLEGAL precisely. -/
  | illegalEncoding (e : BadGroup)
  /-- COMPLETION_QUEUE_RD_WRITE (R330): The owner's write of a completion queue's RD frees slots, so that records waiting in the Ringmaster are written and blocked trigger queues accept packets again. -/
  | completionQueueRdWrite (m : Msg)
  /-- ACQUIRE_ACTION_DONE (R267): An acquire's L1 invalidation or window-line drop completes, and the warp's held later memory accesses may issue. -/
  | acquireActionDone (ctx warp : Nat)
  /-- SCRATCHPAD_WRITE_DONE (R204): A scratchpad write by STL, SYNCI or RINGI takes effect in service order up to 20 cc after issue, becoming visible to other warps and retesting parked SYNCW waiters. -/
  | scratchpadWriteDone (ctx block : Nat)
  deriving DecidableEq, Repr

end Sys2Proof
end

