-- ==== Sys2Proof/Machine/Legal.lean ====
section
/-! DEFINITION. Which groups are instructions: the operand roles of every instruction, the fields that must
be zero, and the rules for PREFIX, REPEAT and the stop bit (03_encoding.md R72 to R101, and the field limits
that the chapters of the instructions state). -/

namespace Sys2Proof

/-- An instruction of 32 bits as the encoding sees it: major, selector (minor, function, call bit or b[5]),
group and payload. -/
structure Code where
  major : Nat
  sel : Nat
  grp : Grp
  body : Body
  deriving DecidableEq, Repr


/-- The major, selector, group and payload of an instruction of 32 bits (R95 to R97); nothing for the rest. -/
def codeOf : Instr → Option Code
  | .iadd g o => some ⟨0x1, 0, g, .A o⟩
  | .isub g o => some ⟨0x1, 1, g, .A o⟩
  | .imul g o => some ⟨0x1, 2, g, .A o⟩
  | .imulh g o => some ⟨0x1, 3, g, .A o⟩
  | .imulhu g o => some ⟨0x2, 0, g, .A o⟩
  | .imad g o => some ⟨0x2, 1, g, .A o⟩
  | .idiv g o => some ⟨0x2, 2, g, .A o⟩
  | .irem g o => some ⟨0x2, 3, g, .A o⟩
  | .imin g o => some ⟨0x3, 0, g, .A o⟩
  | .imax g o => some ⟨0x3, 1, g, .A o⟩
  | .umin g o => some ⟨0x3, 2, g, .A o⟩
  | .umax g o => some ⟨0x3, 3, g, .A o⟩
  | .and g o => some ⟨0x4, 0, g, .A o⟩
  | .or g o => some ⟨0x4, 1, g, .A o⟩
  | .xor g o => some ⟨0x4, 2, g, .A o⟩
  | .andn g o => some ⟨0x4, 3, g, .A o⟩
  | .shl g o => some ⟨0x5, 0, g, .A o⟩
  | .shr g o => some ⟨0x5, 1, g, .A o⟩
  | .sar g o => some ⟨0x5, 2, g, .A o⟩
  | .rotl g o => some ⟨0x5, 3, g, .A o⟩
  | .bfx g o => some ⟨0x6, 0, g, .A o⟩
  | .bfi g o => some ⟨0x6, 1, g, .A o⟩
  | .sel g o => some ⟨0x6, 2, g, .A o⟩
  | .iaddImm g o => some ⟨0x7, 0, g, .I o⟩
  | .imulImm g o => some ⟨0x7, 1, g, .I o⟩
  | .andImm g o => some ⟨0x7, 2, g, .I o⟩
  | .orImm g o => some ⟨0x7, 3, g, .I o⟩
  | .xorImm g o => some ⟨0x8, 0, g, .I o⟩
  | .shlImm g o => some ⟨0x8, 1, g, .I o⟩
  | .shrImm g o => some ⟨0x8, 2, g, .I o⟩
  | .sarImm g o => some ⟨0x8, 3, g, .I o⟩
  | .movi g o => some ⟨0x9, 0, g, .K o⟩
  | .movh g o => some ⟨0xa, 0, g, .K o⟩
  | .icmp g o => some ⟨0xb, 0, g, .C o⟩
  | .fadd g o => some ⟨0xc, 0, g, .A o⟩
  | .fsub g o => some ⟨0xc, 1, g, .A o⟩
  | .fmul g o => some ⟨0xc, 2, g, .A o⟩
  | .ffma g o => some ⟨0xc, 3, g, .A o⟩
  | .fmin g o => some ⟨0xd, 0, g, .A o⟩
  | .fmax g o => some ⟨0xd, 1, g, .A o⟩
  | .fcmp g o => some ⟨0xe, 0, g, .C o⟩
  | .mov g o => some ⟨0xf, 0, g, .U o⟩
  | .not g o => some ⟨0xf, 1, g, .U o⟩
  | .ineg g o => some ⟨0xf, 2, g, .U o⟩
  | .iabs g o => some ⟨0xf, 3, g, .U o⟩
  | .popc g o => some ⟨0xf, 4, g, .U o⟩
  | .clz g o => some ⟨0xf, 5, g, .U o⟩
  | .brev g o => some ⟨0xf, 6, g, .U o⟩
  | .movs g o => some ⟨0xf, 7, g, .U o⟩
  | .fneg g o => some ⟨0xf, 8, g, .U o⟩
  | .fabs g o => some ⟨0xf, 9, g, .U o⟩
  | .frcp g o => some ⟨0xf, 10, g, .U o⟩
  | .frsq g o => some ⟨0xf, 11, g, .U o⟩
  | .fsqrt g o => some ⟨0xf, 12, g, .U o⟩
  | .fexp2 g o => some ⟨0xf, 13, g, .U o⟩
  | .flog2 g o => some ⟨0xf, 14, g, .U o⟩
  | .fsin g o => some ⟨0xf, 15, g, .U o⟩
  | .fcos g o => some ⟨0xf, 16, g, .U o⟩
  | .ftanh g o => some ⟨0xf, 17, g, .U o⟩
  | .ffloor g o => some ⟨0xf, 18, g, .U o⟩
  | .fceil g o => some ⟨0xf, 19, g, .U o⟩
  | .frint g o => some ⟨0xf, 20, g, .U o⟩
  | .fcvti g o => some ⟨0xf, 21, g, .U o⟩
  | .icvtf g o => some ⟨0xf, 22, g, .U o⟩
  | .fclass g o => some ⟨0xf, 23, g, .U o⟩
  | .rand g o => some ⟨0xf, 24, g, .U o⟩
  | .matchLanes g o => some ⟨0xf, 25, g, .U o⟩
  | .sadd g o => some ⟨0x10, 0, g, .A o⟩
  | .ssub g o => some ⟨0x10, 1, g, .A o⟩
  | .smul g o => some ⟨0x10, 2, g, .A o⟩
  | .sand g o => some ⟨0x10, 3, g, .A o⟩
  | .sor g o => some ⟨0x11, 0, g, .A o⟩
  | .sxor g o => some ⟨0x11, 1, g, .A o⟩
  | .sshl g o => some ⟨0x11, 2, g, .A o⟩
  | .sshr g o => some ⟨0x11, 3, g, .A o⟩
  | .ssar g o => some ⟨0x12, 0, g, .A o⟩
  | .smov g o => some ⟨0x12, 1, g, .A o⟩
  | .srdl g o => some ⟨0x12, 2, g, .A o⟩
  | .scmp g o => some ⟨0x13, 0, g, .C o⟩
  | .smovi g o => some ⟨0x14, 0, g, .K o⟩
  | .smovh g o => some ⟨0x15, 0, g, .K o⟩
  | .sld g o => some ⟨0x16, 0, g, .S o⟩
  | .sst g o => some ⟨0x16, 1, g, .S o⟩
  | .ladd g o => some ⟨0x17, 0, g, .A o⟩
  | .lsub g o => some ⟨0x17, 1, g, .A o⟩
  | .ladc g o => some ⟨0x17, 2, g, .A o⟩
  | .lmuls g o => some ⟨0x17, 3, g, .A o⟩
  | .lshl g o => some ⟨0x18, 0, g, .A o⟩
  | .lshr g o => some ⟨0x18, 1, g, .A o⟩
  | .lcmp g o => some ⟨0x18, 2, g, .A o⟩
  | .lneg g o => some ⟨0x18, 3, g, .A o⟩
  | .mand g o => some ⟨0x19, 0, g, .M o⟩
  | .mor g o => some ⟨0x19, 1, g, .M o⟩
  | .mxor g o => some ⟨0x19, 2, g, .M o⟩
  | .mnot g o => some ⟨0x19, 3, g, .M o⟩
  | .mmov g o => some ⟨0x19, 4, g, .M o⟩
  | .mrd g o => some ⟨0x19, 5, g, .M o⟩
  | .mpopc g o => some ⟨0x19, 6, g, .M o⟩
  | .mffs g o => some ⟨0x19, 7, g, .M o⟩
  | .xrd g o => some ⟨0x1a, 0, g, .X o⟩
  | .xbfly g o => some ⟨0x1b, 0, g, .X o⟩
  | .xbcast g o => some ⟨0x1b, 1, g, .X o⟩
  | .xup g o => some ⟨0x1c, 0, g, .X o⟩
  | .xdn g o => some ⟨0x1c, 1, g, .X o⟩
  | .ld g o => some ⟨0x1d, 0, g, .LD o⟩
  | .ldByte g o => some ⟨0x1e, 0, g, .LD o⟩
  | .lda g o => some ⟨0x1f, 0, g, .LDA o⟩
  | .st g o => some ⟨0x20, 0, g, .ST o⟩
  | .str g o => some ⟨0x21, 0, g, .STR o⟩
  | .stf g o => some ⟨0x22, 0, g, .STF o⟩
  | .ldl g o => some ⟨0x23, 0, g, .LDL o⟩
  | .stl g o => some ⟨0x24, 0, g, .STL o⟩
  | .atomAdd g o => some ⟨0x25, 0, g, .AT o⟩
  | .atomAnd g o => some ⟨0x25, 1, g, .AT o⟩
  | .atomOr g o => some ⟨0x25, 2, g, .AT o⟩
  | .atomXor g o => some ⟨0x25, 3, g, .AT o⟩
  | .atomMin g o => some ⟨0x26, 0, g, .AT o⟩
  | .atomMax g o => some ⟨0x26, 1, g, .AT o⟩
  | .atomUmin g o => some ⟨0x26, 2, g, .AT o⟩
  | .atomUmax g o => some ⟨0x26, 3, g, .AT o⟩
  | .atomXchg g o => some ⟨0x27, 0, g, .AT o⟩
  | .atomCas g o => some ⟨0x27, 1, g, .AT o⟩
  | .atomFadd g o => some ⟨0x27, 2, g, .AT o⟩
  | .atomSub g o => some ⟨0x27, 3, g, .AT o⟩
  | .atomlAdd g o => some ⟨0x28, 0, g, .AT o⟩
  | .atomlAnd g o => some ⟨0x28, 1, g, .AT o⟩
  | .atomlOr g o => some ⟨0x28, 2, g, .AT o⟩
  | .atomlXor g o => some ⟨0x28, 3, g, .AT o⟩
  | .atomlMin g o => some ⟨0x29, 0, g, .AT o⟩
  | .atomlMax g o => some ⟨0x29, 1, g, .AT o⟩
  | .atomlUmin g o => some ⟨0x29, 2, g, .AT o⟩
  | .atomlUmax g o => some ⟨0x29, 3, g, .AT o⟩
  | .atomlXchg g o => some ⟨0x2a, 0, g, .AT o⟩
  | .atomlCas g o => some ⟨0x2a, 1, g, .AT o⟩
  | .atomlFadd g o => some ⟨0x2a, 2, g, .AT o⟩
  | .atomlSub g o => some ⟨0x2a, 3, g, .AT o⟩
  | .cpy16 g o => some ⟨0x2b, 0, g, .P16 o⟩
  | .fence g o => some ⟨0x2c, 0, g, .F o⟩
  | .fencer g o => some ⟨0x2c, 1, g, .F o⟩
  | .acq g o => some ⟨0x2c, 2, g, .F o⟩
  | .acqr g o => some ⟨0x2c, 3, g, .F o⟩
  | .rel g o => some ⟨0x2c, 4, g, .F o⟩
  | .relr g o => some ⟨0x2c, 5, g, .F o⟩
  | .bra g o => some ⟨0x2d, 0, g, .B o⟩
  | .call g o => some ⟨0x2d, 1, g, .B o⟩
  | .brx g o => some ⟨0x2e, 0, g, .T o⟩
  | .callx g o => some ⟨0x2e, 1, g, .T o⟩
  | .ret g o => some ⟨0x2e, 2, g, .T o⟩
  | .exit g o => some ⟨0x2e, 3, g, .T o⟩
  | .fuse g o => some ⟨0x2e, 4, g, .T o⟩
  | .yield g o => some ⟨0x2e, 5, g, .T o⟩
  | .trap g o => some ⟨0x2e, 6, g, .T o⟩
  | .tret g o => some ⟨0x2e, 7, g, .T o⟩
  | .brk g o => some ⟨0x2e, 8, g, .T o⟩
  | .lbind g o => some ⟨0x2e, 9, g, .T o⟩
  | .lfree g o => some ⟨0x2e, 10, g, .T o⟩
  | .nop g o => some ⟨0x2e, 11, g, .T o⟩
  | .tspawn g o => some ⟨0x2f, 0, g, .S o⟩
  | .tsync g o => some ⟨0x2f, 1, g, .S o⟩
  | .pgrd g o => some ⟨0x2f, 2, g, .S o⟩
  | .pgkey g o => some ⟨0x2f, 3, g, .S o⟩
  | .palloc g o => some ⟨0x30, 0, g, .S o⟩
  | .tlog g o => some ⟨0x30, 1, g, .S o⟩
  | .qemit g o => some ⟨0x30, 2, g, .S o⟩
  | .qread g o => some ⟨0x30, 3, g, .S o⟩
  | .rdecl g o => some ⟨0x31, 0, g, .S o⟩
  | .rupd g o => some ⟨0x31, 1, g, .S o⟩
  | .rget g o => some ⟨0x31, 2, g, .S o⟩
  | .cpy g o => some ⟨0x32, 0, g, .S o⟩
  | .cpymx g o => some ⟨0x32, 1, g, .S o⟩
  | .cpynb g o => some ⟨0x32, 2, g, .S o⟩
  | .cseal g o => some ⟨0x32, 3, g, .S o⟩
  | .cwaitb g o => some ⟨0x33, 0, g, .S o⟩
  | .synci g o => some ⟨0x33, 1, g, .S o⟩
  | .synca g o => some ⟨0x33, 2, g, .S o⟩
  | .syncw g o => some ⟨0x33, 3, g, .S o⟩
  | .synct g o => some ⟨0x34, 0, g, .S o⟩
  | .ringi g o => some ⟨0x34, 1, g, .S o⟩
  | .rawait g o => some ⟨0x34, 2, g, .S o⟩
  | .rrel g o => some ⟨0x34, 3, g, .S o⟩
  | .tidset g o => some ⟨0x35, 0, g, .S o⟩
  | .cbload g o => some ⟨0x35, 1, g, .S o⟩
  | .mxls g o => some ⟨0x35, 2, g, .S o⟩
  | .mxswap g o => some ⟨0x35, 3, g, .S o⟩
  | .mxstr g o => some ⟨0x36, 0, g, .S o⟩
  | .mxzero g o => some ⟨0x36, 1, g, .S o⟩
  | .mxrd g o => some ⟨0x36, 2, g, .S o⟩
  | .mxwr g o => some ⟨0x36, 3, g, .S o⟩
  | .mxst g o => some ⟨0x37, 0, g, .S o⟩
  | .mxflags g o => some ⟨0x37, 1, g, .S o⟩
  | .tstamp g o => some ⟨0x37, 2, g, .S o⟩
  | .ppoint g o => some ⟨0x37, 3, g, .S o⟩
  | .csrr g o => some ⟨0x38, 0, g, .S o⟩
  | .csrw g o => some ⟨0x38, 1, g, .S o⟩
  | .time g o => some ⟨0x38, 2, g, .S o⟩
  | .bbc g o => some ⟨0x38, 3, g, .S o⟩
  | .migrate g o => some ⟨0x39, 0, g, .S o⟩
  | _ => none

/-- The instruction of a major and a selector with a group and a payload (R95 to R97); nothing where the
map of majors is reserved. -/
def instrOf : Code → Option Instr
  | ⟨0x1, 0, g, .A o⟩ => some (.iadd g o)
  | ⟨0x1, 1, g, .A o⟩ => some (.isub g o)
  | ⟨0x1, 2, g, .A o⟩ => some (.imul g o)
  | ⟨0x1, 3, g, .A o⟩ => some (.imulh g o)
  | ⟨0x2, 0, g, .A o⟩ => some (.imulhu g o)
  | ⟨0x2, 1, g, .A o⟩ => some (.imad g o)
  | ⟨0x2, 2, g, .A o⟩ => some (.idiv g o)
  | ⟨0x2, 3, g, .A o⟩ => some (.irem g o)
  | ⟨0x3, 0, g, .A o⟩ => some (.imin g o)
  | ⟨0x3, 1, g, .A o⟩ => some (.imax g o)
  | ⟨0x3, 2, g, .A o⟩ => some (.umin g o)
  | ⟨0x3, 3, g, .A o⟩ => some (.umax g o)
  | ⟨0x4, 0, g, .A o⟩ => some (.and g o)
  | ⟨0x4, 1, g, .A o⟩ => some (.or g o)
  | ⟨0x4, 2, g, .A o⟩ => some (.xor g o)
  | ⟨0x4, 3, g, .A o⟩ => some (.andn g o)
  | ⟨0x5, 0, g, .A o⟩ => some (.shl g o)
  | ⟨0x5, 1, g, .A o⟩ => some (.shr g o)
  | ⟨0x5, 2, g, .A o⟩ => some (.sar g o)
  | ⟨0x5, 3, g, .A o⟩ => some (.rotl g o)
  | ⟨0x6, 0, g, .A o⟩ => some (.bfx g o)
  | ⟨0x6, 1, g, .A o⟩ => some (.bfi g o)
  | ⟨0x6, 2, g, .A o⟩ => some (.sel g o)
  | ⟨0x7, 0, g, .I o⟩ => some (.iaddImm g o)
  | ⟨0x7, 1, g, .I o⟩ => some (.imulImm g o)
  | ⟨0x7, 2, g, .I o⟩ => some (.andImm g o)
  | ⟨0x7, 3, g, .I o⟩ => some (.orImm g o)
  | ⟨0x8, 0, g, .I o⟩ => some (.xorImm g o)
  | ⟨0x8, 1, g, .I o⟩ => some (.shlImm g o)
  | ⟨0x8, 2, g, .I o⟩ => some (.shrImm g o)
  | ⟨0x8, 3, g, .I o⟩ => some (.sarImm g o)
  | ⟨0x9, 0, g, .K o⟩ => some (.movi g o)
  | ⟨0xa, 0, g, .K o⟩ => some (.movh g o)
  | ⟨0xb, 0, g, .C o⟩ => some (.icmp g o)
  | ⟨0xc, 0, g, .A o⟩ => some (.fadd g o)
  | ⟨0xc, 1, g, .A o⟩ => some (.fsub g o)
  | ⟨0xc, 2, g, .A o⟩ => some (.fmul g o)
  | ⟨0xc, 3, g, .A o⟩ => some (.ffma g o)
  | ⟨0xd, 0, g, .A o⟩ => some (.fmin g o)
  | ⟨0xd, 1, g, .A o⟩ => some (.fmax g o)
  | ⟨0xe, 0, g, .C o⟩ => some (.fcmp g o)
  | ⟨0xf, 0, g, .U o⟩ => some (.mov g o)
  | ⟨0xf, 1, g, .U o⟩ => some (.not g o)
  | ⟨0xf, 2, g, .U o⟩ => some (.ineg g o)
  | ⟨0xf, 3, g, .U o⟩ => some (.iabs g o)
  | ⟨0xf, 4, g, .U o⟩ => some (.popc g o)
  | ⟨0xf, 5, g, .U o⟩ => some (.clz g o)
  | ⟨0xf, 6, g, .U o⟩ => some (.brev g o)
  | ⟨0xf, 7, g, .U o⟩ => some (.movs g o)
  | ⟨0xf, 8, g, .U o⟩ => some (.fneg g o)
  | ⟨0xf, 9, g, .U o⟩ => some (.fabs g o)
  | ⟨0xf, 10, g, .U o⟩ => some (.frcp g o)
  | ⟨0xf, 11, g, .U o⟩ => some (.frsq g o)
  | ⟨0xf, 12, g, .U o⟩ => some (.fsqrt g o)
  | ⟨0xf, 13, g, .U o⟩ => some (.fexp2 g o)
  | ⟨0xf, 14, g, .U o⟩ => some (.flog2 g o)
  | ⟨0xf, 15, g, .U o⟩ => some (.fsin g o)
  | ⟨0xf, 16, g, .U o⟩ => some (.fcos g o)
  | ⟨0xf, 17, g, .U o⟩ => some (.ftanh g o)
  | ⟨0xf, 18, g, .U o⟩ => some (.ffloor g o)
  | ⟨0xf, 19, g, .U o⟩ => some (.fceil g o)
  | ⟨0xf, 20, g, .U o⟩ => some (.frint g o)
  | ⟨0xf, 21, g, .U o⟩ => some (.fcvti g o)
  | ⟨0xf, 22, g, .U o⟩ => some (.icvtf g o)
  | ⟨0xf, 23, g, .U o⟩ => some (.fclass g o)
  | ⟨0xf, 24, g, .U o⟩ => some (.rand g o)
  | ⟨0xf, 25, g, .U o⟩ => some (.matchLanes g o)
  | ⟨0x10, 0, g, .A o⟩ => some (.sadd g o)
  | ⟨0x10, 1, g, .A o⟩ => some (.ssub g o)
  | ⟨0x10, 2, g, .A o⟩ => some (.smul g o)
  | ⟨0x10, 3, g, .A o⟩ => some (.sand g o)
  | ⟨0x11, 0, g, .A o⟩ => some (.sor g o)
  | ⟨0x11, 1, g, .A o⟩ => some (.sxor g o)
  | ⟨0x11, 2, g, .A o⟩ => some (.sshl g o)
  | ⟨0x11, 3, g, .A o⟩ => some (.sshr g o)
  | ⟨0x12, 0, g, .A o⟩ => some (.ssar g o)
  | ⟨0x12, 1, g, .A o⟩ => some (.smov g o)
  | ⟨0x12, 2, g, .A o⟩ => some (.srdl g o)
  | ⟨0x13, 0, g, .C o⟩ => some (.scmp g o)
  | ⟨0x14, 0, g, .K o⟩ => some (.smovi g o)
  | ⟨0x15, 0, g, .K o⟩ => some (.smovh g o)
  | ⟨0x16, 0, g, .S o⟩ => some (.sld g o)
  | ⟨0x16, 1, g, .S o⟩ => some (.sst g o)
  | ⟨0x17, 0, g, .A o⟩ => some (.ladd g o)
  | ⟨0x17, 1, g, .A o⟩ => some (.lsub g o)
  | ⟨0x17, 2, g, .A o⟩ => some (.ladc g o)
  | ⟨0x17, 3, g, .A o⟩ => some (.lmuls g o)
  | ⟨0x18, 0, g, .A o⟩ => some (.lshl g o)
  | ⟨0x18, 1, g, .A o⟩ => some (.lshr g o)
  | ⟨0x18, 2, g, .A o⟩ => some (.lcmp g o)
  | ⟨0x18, 3, g, .A o⟩ => some (.lneg g o)
  | ⟨0x19, 0, g, .M o⟩ => some (.mand g o)
  | ⟨0x19, 1, g, .M o⟩ => some (.mor g o)
  | ⟨0x19, 2, g, .M o⟩ => some (.mxor g o)
  | ⟨0x19, 3, g, .M o⟩ => some (.mnot g o)
  | ⟨0x19, 4, g, .M o⟩ => some (.mmov g o)
  | ⟨0x19, 5, g, .M o⟩ => some (.mrd g o)
  | ⟨0x19, 6, g, .M o⟩ => some (.mpopc g o)
  | ⟨0x19, 7, g, .M o⟩ => some (.mffs g o)
  | ⟨0x1a, 0, g, .X o⟩ => some (.xrd g o)
  | ⟨0x1b, 0, g, .X o⟩ => some (.xbfly g o)
  | ⟨0x1b, 1, g, .X o⟩ => some (.xbcast g o)
  | ⟨0x1c, 0, g, .X o⟩ => some (.xup g o)
  | ⟨0x1c, 1, g, .X o⟩ => some (.xdn g o)
  | ⟨0x1d, 0, g, .LD o⟩ => some (.ld g o)
  | ⟨0x1e, 0, g, .LD o⟩ => some (.ldByte g o)
  | ⟨0x1f, 0, g, .LDA o⟩ => some (.lda g o)
  | ⟨0x20, 0, g, .ST o⟩ => some (.st g o)
  | ⟨0x21, 0, g, .STR o⟩ => some (.str g o)
  | ⟨0x22, 0, g, .STF o⟩ => some (.stf g o)
  | ⟨0x23, 0, g, .LDL o⟩ => some (.ldl g o)
  | ⟨0x24, 0, g, .STL o⟩ => some (.stl g o)
  | ⟨0x25, 0, g, .AT o⟩ => some (.atomAdd g o)
  | ⟨0x25, 1, g, .AT o⟩ => some (.atomAnd g o)
  | ⟨0x25, 2, g, .AT o⟩ => some (.atomOr g o)
  | ⟨0x25, 3, g, .AT o⟩ => some (.atomXor g o)
  | ⟨0x26, 0, g, .AT o⟩ => some (.atomMin g o)
  | ⟨0x26, 1, g, .AT o⟩ => some (.atomMax g o)
  | ⟨0x26, 2, g, .AT o⟩ => some (.atomUmin g o)
  | ⟨0x26, 3, g, .AT o⟩ => some (.atomUmax g o)
  | ⟨0x27, 0, g, .AT o⟩ => some (.atomXchg g o)
  | ⟨0x27, 1, g, .AT o⟩ => some (.atomCas g o)
  | ⟨0x27, 2, g, .AT o⟩ => some (.atomFadd g o)
  | ⟨0x27, 3, g, .AT o⟩ => some (.atomSub g o)
  | ⟨0x28, 0, g, .AT o⟩ => some (.atomlAdd g o)
  | ⟨0x28, 1, g, .AT o⟩ => some (.atomlAnd g o)
  | ⟨0x28, 2, g, .AT o⟩ => some (.atomlOr g o)
  | ⟨0x28, 3, g, .AT o⟩ => some (.atomlXor g o)
  | ⟨0x29, 0, g, .AT o⟩ => some (.atomlMin g o)
  | ⟨0x29, 1, g, .AT o⟩ => some (.atomlMax g o)
  | ⟨0x29, 2, g, .AT o⟩ => some (.atomlUmin g o)
  | ⟨0x29, 3, g, .AT o⟩ => some (.atomlUmax g o)
  | ⟨0x2a, 0, g, .AT o⟩ => some (.atomlXchg g o)
  | ⟨0x2a, 1, g, .AT o⟩ => some (.atomlCas g o)
  | ⟨0x2a, 2, g, .AT o⟩ => some (.atomlFadd g o)
  | ⟨0x2a, 3, g, .AT o⟩ => some (.atomlSub g o)
  | ⟨0x2b, 0, g, .P16 o⟩ => some (.cpy16 g o)
  | ⟨0x2c, 0, g, .F o⟩ => some (.fence g o)
  | ⟨0x2c, 1, g, .F o⟩ => some (.fencer g o)
  | ⟨0x2c, 2, g, .F o⟩ => some (.acq g o)
  | ⟨0x2c, 3, g, .F o⟩ => some (.acqr g o)
  | ⟨0x2c, 4, g, .F o⟩ => some (.rel g o)
  | ⟨0x2c, 5, g, .F o⟩ => some (.relr g o)
  | ⟨0x2d, 0, g, .B o⟩ => some (.bra g o)
  | ⟨0x2d, 1, g, .B o⟩ => some (.call g o)
  | ⟨0x2e, 0, g, .T o⟩ => some (.brx g o)
  | ⟨0x2e, 1, g, .T o⟩ => some (.callx g o)
  | ⟨0x2e, 2, g, .T o⟩ => some (.ret g o)
  | ⟨0x2e, 3, g, .T o⟩ => some (.exit g o)
  | ⟨0x2e, 4, g, .T o⟩ => some (.fuse g o)
  | ⟨0x2e, 5, g, .T o⟩ => some (.yield g o)
  | ⟨0x2e, 6, g, .T o⟩ => some (.trap g o)
  | ⟨0x2e, 7, g, .T o⟩ => some (.tret g o)
  | ⟨0x2e, 8, g, .T o⟩ => some (.brk g o)
  | ⟨0x2e, 9, g, .T o⟩ => some (.lbind g o)
  | ⟨0x2e, 10, g, .T o⟩ => some (.lfree g o)
  | ⟨0x2e, 11, g, .T o⟩ => some (.nop g o)
  | ⟨0x2f, 0, g, .S o⟩ => some (.tspawn g o)
  | ⟨0x2f, 1, g, .S o⟩ => some (.tsync g o)
  | ⟨0x2f, 2, g, .S o⟩ => some (.pgrd g o)
  | ⟨0x2f, 3, g, .S o⟩ => some (.pgkey g o)
  | ⟨0x30, 0, g, .S o⟩ => some (.palloc g o)
  | ⟨0x30, 1, g, .S o⟩ => some (.tlog g o)
  | ⟨0x30, 2, g, .S o⟩ => some (.qemit g o)
  | ⟨0x30, 3, g, .S o⟩ => some (.qread g o)
  | ⟨0x31, 0, g, .S o⟩ => some (.rdecl g o)
  | ⟨0x31, 1, g, .S o⟩ => some (.rupd g o)
  | ⟨0x31, 2, g, .S o⟩ => some (.rget g o)
  | ⟨0x32, 0, g, .S o⟩ => some (.cpy g o)
  | ⟨0x32, 1, g, .S o⟩ => some (.cpymx g o)
  | ⟨0x32, 2, g, .S o⟩ => some (.cpynb g o)
  | ⟨0x32, 3, g, .S o⟩ => some (.cseal g o)
  | ⟨0x33, 0, g, .S o⟩ => some (.cwaitb g o)
  | ⟨0x33, 1, g, .S o⟩ => some (.synci g o)
  | ⟨0x33, 2, g, .S o⟩ => some (.synca g o)
  | ⟨0x33, 3, g, .S o⟩ => some (.syncw g o)
  | ⟨0x34, 0, g, .S o⟩ => some (.synct g o)
  | ⟨0x34, 1, g, .S o⟩ => some (.ringi g o)
  | ⟨0x34, 2, g, .S o⟩ => some (.rawait g o)
  | ⟨0x34, 3, g, .S o⟩ => some (.rrel g o)
  | ⟨0x35, 0, g, .S o⟩ => some (.tidset g o)
  | ⟨0x35, 1, g, .S o⟩ => some (.cbload g o)
  | ⟨0x35, 2, g, .S o⟩ => some (.mxls g o)
  | ⟨0x35, 3, g, .S o⟩ => some (.mxswap g o)
  | ⟨0x36, 0, g, .S o⟩ => some (.mxstr g o)
  | ⟨0x36, 1, g, .S o⟩ => some (.mxzero g o)
  | ⟨0x36, 2, g, .S o⟩ => some (.mxrd g o)
  | ⟨0x36, 3, g, .S o⟩ => some (.mxwr g o)
  | ⟨0x37, 0, g, .S o⟩ => some (.mxst g o)
  | ⟨0x37, 1, g, .S o⟩ => some (.mxflags g o)
  | ⟨0x37, 2, g, .S o⟩ => some (.tstamp g o)
  | ⟨0x37, 3, g, .S o⟩ => some (.ppoint g o)
  | ⟨0x38, 0, g, .S o⟩ => some (.csrr g o)
  | ⟨0x38, 1, g, .S o⟩ => some (.csrw g o)
  | ⟨0x38, 2, g, .S o⟩ => some (.time g o)
  | ⟨0x38, 3, g, .S o⟩ => some (.bbc g o)
  | ⟨0x39, 0, g, .S o⟩ => some (.migrate g o)
  | _ => none

/-- The op5 code and fields of a 16-bit lane form (R77); nothing for the rest. -/
def compactOf : Instr → Option (Nat × OpsC16)
  | .iaddC o => some (1, o)
  | .isubC o => some (2, o)
  | .imulC o => some (3, o)
  | .andC o => some (4, o)
  | .orC o => some (5, o)
  | .xorC o => some (6, o)
  | .shlC o => some (8, o)
  | .shrC o => some (9, o)
  | .sarC o => some (10, o)
  | .movC o => some (11, o)
  | .faddC o => some (12, o)
  | .fsubC o => some (13, o)
  | .fmulC o => some (14, o)
  | .fminC o => some (16, o)
  | .fmaxC o => some (17, o)
  | .iminC o => some (18, o)
  | .nopC => some (19, ⟨0, 0, false⟩)
  | .yieldC => some (20, ⟨0, 0, false⟩)
  | _ => none

/-- The lane form of an op5 code (R77); NOP and YIELD require every other bit zero. -/
def compactInstr (op5 : Nat) (o : OpsC16) : Option Instr :=
  match op5 with
  | 1 => some (.iaddC o)
  | 2 => some (.isubC o)
  | 3 => some (.imulC o)
  | 4 => some (.andC o)
  | 5 => some (.orC o)
  | 6 => some (.xorC o)
  | 8 => some (.shlC o)
  | 9 => some (.shrC o)
  | 10 => some (.sarC o)
  | 11 => some (.movC o)
  | 12 => some (.faddC o)
  | 13 => some (.fsubC o)
  | 14 => some (.fmulC o)
  | 16 => some (.fminC o)
  | 17 => some (.fmaxC o)
  | 18 => some (.iminC o)
  | 19 => if o = ⟨0, 0, false⟩ then some .nopC else none
  | 20 => if o = ⟨0, 0, false⟩ then some .yieldC else none
  | _ => none

namespace Legal

/-- A source operand: a vector code with its last-use bit, or a scalar with its last-use bit, or a mask. -/
inductive Src where
  | v (code : BitVec 6) (lu : Bool)
  | s (n : BitVec 6) (lu : Bool)
  | m (n : BitVec 4)
  deriving DecidableEq, Repr

/-- What an instruction reads and writes by its fields. -/
structure Uses where
  srcs : List Src := []
  vdst : Option (BitVec 6) := none
  sdst : Option (BitVec 6) := none
  mdst : Option (BitVec 4) := none
  deriving DecidableEq, Repr

/-- Whether an instruction reads the PREFIX c (R88): FFMA, IMAD, BFI, SEL, ATOM CAS, ATOML CAS. -/
def readsC (major sel : Nat) : Bool :=
  (major == 0x0C && sel == 3) || (major == 0x02 && sel == 1) || (major == 0x06 && (sel == 1 || sel == 2)) ||
  ((major == 0x27 || major == 0x2A) && sel == 1)

/-- The advance of a step code (R90). -/
def advance (st : BitVec 2) : Nat :=
  if st = 0 then 0 else if st = 1 then 1 else if st = 2 then 2 else 4

/-- The register code of a stepped field at repetition j (R90). -/
def stepped (code : BitVec 6) (st : BitVec 2) (j : Nat) : BitVec 6 :=
  code + BitVec.ofNat 6 (j * advance st)

/-- A zero-extended scalar number. -/
def sreg {n : Nat} (x : BitVec n) : BitVec 6 := x.setWidth 6

/-- The third source of a group, where the instruction reads one. -/
def csrc (c : Code) : List Src :=
  if readsC c.major c.sel then
    match c.grp.pfx with
    | some p => [.v p.c p.lc]
    | none => []
  else []

/-- The operands of a format S instruction (R166 to R172, R300, R313, R338, R372 to R385, R391, R403, R411,
R412, R416, R425, R446, R459, R521, R522). Scalars of an operand block beyond s[a] are read by the meaning. -/
def usesS (major sel : Nat) (o : OpsS) : Uses :=
  match major, sel with
  | 0x16, 0 => { srcs := [.s o.sa o.la], sdst := some o.sd }
  | 0x16, _ => { srcs := [.s o.sd false, .s o.sa o.la] }
  | 0x2F, 0 => { srcs := [.s o.sa o.la], sdst := some o.sd }
  | 0x2F, 1 => { sdst := some o.sd }
  | 0x2F, _ => { srcs := [.s o.sa o.la], sdst := some o.sd }
  | 0x30, 0 => { srcs := [.s o.sa o.la], sdst := some o.sd }
  | 0x30, 1 => { srcs := [.s o.sa o.la], sdst := some o.sd }
  | 0x30, 2 => { srcs := [.s o.sa o.la, .s o.sb o.lb], sdst := some o.sd }
  | 0x30, _ => { srcs := [.s o.sa o.la], sdst := some o.sd }
  | 0x31, 0 => {}
  | 0x31, 1 => { srcs := [.v o.sb o.lb] }
  | 0x31, _ => { sdst := some o.sd }
  | 0x32, 0 => { srcs := [.s o.sa o.la], sdst := some o.sd }
  | 0x32, 1 => { srcs := [.s o.sa o.la, .s o.sb o.lb], sdst := some o.sd }
  | 0x32, 2 => { srcs := [.s o.sa o.la], sdst := some o.sd }
  | 0x32, _ => { sdst := some o.sd }
  | 0x33, 0 => { srcs := [.s o.sa o.la] }
  | 0x33, _ => { srcs := [.s o.sa o.la, .s o.sb o.lb] }
  | 0x34, 0 => { srcs := [.s o.sa o.la], sdst := some o.sd }
  | 0x34, 1 => { srcs := [.s o.sa o.la, .s o.sb o.lb] }
  | 0x34, 2 => { srcs := [.s o.sa o.la], sdst := some o.sd }
  | 0x34, _ => { srcs := [.s o.sa o.la] }
  | 0x35, 0 => { srcs := [.s o.sd false, .s o.sa o.la] }
  | 0x35, 1 => { srcs := [.s o.sd false, .s o.sa o.la] }
  | 0x35, 2 => { srcs := [.s o.sa o.la] }
  | 0x35, _ => {}
  | 0x36, 2 => { srcs := [.s o.sa o.la], vdst := some o.sd }
  | 0x36, 3 => { srcs := [.s o.sa o.la, .v o.sb o.lb] }
  | 0x36, _ => { srcs := [.s o.sa o.la] }
  | 0x37, 1 => { srcs := [.s o.sa o.la], sdst := some o.sd }
  | 0x37, _ => { srcs := [.s o.sa o.la] }
  | 0x38, 0 => { sdst := some o.sd }
  | 0x38, 1 => { srcs := [.s o.sd false] }
  | 0x38, 2 => { sdst := some o.sd }
  | 0x38, _ => {}
  | 0x39, _ => { srcs := [.s o.sa o.la], sdst := some o.sd }
  | _, _ => {}

/-- The operands of an instruction of 32 bits, as written (repetition 0). -/
def uses (c : Code) : Uses :=
  match c.body with
  | .A o =>
    if c.major = 0x10 ∨ c.major = 0x11 then { srcs := [.s o.a o.la, .s o.b o.lb], sdst := some o.d }
    else if c.major = 0x12 then
      if c.sel = 1 then { srcs := [.s o.a o.la], sdst := some o.d }
      else if c.sel = 2 then { srcs := [.v o.a o.la, .s o.b o.lb], sdst := some o.d }
      else { srcs := [.s o.a o.la, .s o.b o.lb], sdst := some o.d }
    else if c.major = 0x17 ∧ c.sel = 3 then { srcs := [.v o.a o.la, .s o.b o.lb, .v o.d false], vdst := some o.d }
    else if c.major = 0x18 ∧ c.sel = 2 then { srcs := [.v o.a o.la, .v o.b o.lb] }
    else if c.major = 0x18 ∧ c.sel = 3 then { srcs := [.v o.a o.la], vdst := some o.d }
    else { srcs := [.v o.a o.la, .v o.b o.lb] ++ csrc c, vdst := some o.d }
  | .I o => { srcs := [.v o.a o.la], vdst := some o.d }
  | .K o =>
    if c.major = 0x09 then { vdst := some o.d }
    else if c.major = 0x0A then { srcs := [.v o.d false], vdst := some o.d }
    else if c.major = 0x14 then { sdst := some o.d }
    else { srcs := [.s o.d false], sdst := some o.d }
  | .C o =>
    if c.major = 0x13 then { srcs := [.s o.a o.la, .s o.b o.lb], mdst := some o.md }
    else { srcs := [.v o.a o.la, .v o.b o.lb], mdst := some o.md }
  | .U o =>
    if c.sel = 7 then { srcs := [.s o.a o.la], vdst := some o.d }
    else if c.sel = 24 then { vdst := some o.d }
    else { srcs := [.v o.a o.la], vdst := some o.d }
  | .M o =>
    match c.sel with
    | 3 => { srcs := [.m o.ma], mdst := some o.md }
    | 4 => { srcs := [.s o.s o.ls], mdst := some o.md }
    | 5 => { srcs := [.m o.ma], sdst := some o.s }
    | 6 => { srcs := [.m o.ma, .m o.mb], sdst := some o.s }
    | 7 => { srcs := [.m o.ma, .m o.mb], sdst := some o.s }
    | _ => { srcs := [.m o.ma, .m o.mb], mdst := some o.md }
  | .X o =>
    let old : List Src := if o.fill = 1 then [.v o.d false] else []
    if c.major = 0x1A then { srcs := [.v o.a o.la, .v o.b o.lb] ++ old, vdst := some o.d }
    else { srcs := [.v o.a o.la] ++ old, vdst := some o.d }
  | .LD o => { srcs := [.v o.a o.la, .s (sreg o.s) o.ls], vdst := some o.d }
  | .LDA o => { srcs := [.v o.a o.la, .s (sreg o.s) o.ls], vdst := some o.d }
  | .ST o => { srcs := [.v o.d o.ld, .v o.a o.la, .s (sreg o.s) o.ls] }
  | .STR o => { srcs := [.v o.d o.ld, .v o.a o.la, .s (sreg o.s) o.ls] }
  | .STF o => { srcs := [.v o.d o.ld, .v o.a o.la, .s (sreg o.s) o.ls, .s (sreg o.cons) false] }
  | .LDL o => { srcs := [.v o.a o.la], vdst := some o.d }
  | .STL o => { srcs := [.v o.d o.ld, .v o.a o.la] }
  | .AT o =>
    if c.major ≤ 0x27 then { srcs := [.v o.d false, .v o.a o.la, .v o.b o.lb] ++ csrc c, vdst := some o.d }
    else { srcs := [.v o.d false, .v o.a o.la] ++ csrc c, vdst := some o.d }
  | .P16 o => { srcs := [.v o.d o.ld, .v o.a o.la, .s (sreg o.s) o.ls, .s (sreg o.sync) false] }
  | .F o => if c.sel % 2 = 1 then { srcs := [.s o.sa o.la, .s o.sb o.lb] } else {}
  | .B o => { srcs := [.m o.mask] }
  | .T o => if c.sel ≤ 1 then { srcs := [.v o.a o.la] } else {}
  | .S o => usesS c.major c.sel o

/-- Whether a last-use bit of a format S instruction may be set, and the limits and zero fields of its
operands (the chapters' tables named at `usesS`; CSR numbers are checked against R310 when the group
issues). -/
def sFields (major sel : Nat) (o : OpsS) : Bool :=
  let sd := o.sd.toNat; let sa := o.sa.toNat; let sb := o.sb.toNat
  match major, sel with
  | 0x16, _ => !o.lb
  | 0x2F, 0 => sa ≤ 59 && sb == 0 && !o.lb
  | 0x2F, 1 => sa == 0 && sb == 0 && !o.la && !o.lb
  | 0x2F, _ => sb == 0 && !o.lb
  | 0x30, 0 => sb == 0 && !o.lb
  | 0x30, 1 => sa ≤ 57 && sb == 0 && !o.lb
  | 0x30, 2 => sa ≤ 60
  | 0x30, _ => sd ≤ 59 && sb == 0 && !o.lb
  | 0x31, 0 => sd == 0 && sa ≤ 7 && sb ≤ 8 && !o.la && !o.lb
  | 0x31, 1 => sd == 0 && sa ≤ 7 && !o.la
  | 0x31, _ => sa ≤ 7 && sb == 0 && !o.la && !o.lb
  | 0x32, 0 => sa ≤ 60 && sb == 0 && !o.lb
  | 0x32, 1 => sa ≤ 60 && sb ≤ 62
  | 0x32, 2 => sa ≤ 60 && sb == 0 && !o.lb
  | 0x32, _ => sa == 0 && sb == 0 && !o.la && !o.lb
  | 0x33, 0 => sd == 0 && sb == 0 && !o.lb
  | 0x33, 1 => sd == 0
  | 0x33, 2 => sd / 32 == 0 && sd % 16 ≤ 11 && (sd / 16 % 2 == 1 || sd % 16 == 0)
  | 0x33, _ => sd / 16 == 0 && sd ≤ 11
  | 0x34, 0 => sb == 0 && !o.lb
  | 0x34, 1 => sd == 0
  | 0x34, 2 => sb == 0 && !o.lb
  | 0x34, _ => sd == 0 && sb == 0 && !o.lb
  | 0x35, 0 => sa ≤ 52 && sb == 0 && !o.lb
  | 0x35, 1 => sa ≤ 60 && sb == 0 && !o.lb
  | 0x35, 2 => sd == 0 && sa ≤ 62 && sb == 0 && !o.lb
  | 0x35, _ => sd == 0 && sa == 0 && !o.la && sb == 0 && !o.lb
  | 0x36, 0 => sd == 0 && sa ≤ 62 && sb == 0 && !o.lb
  | 0x36, 1 => sd == 0 && sb == 0 && !o.lb
  | 0x36, 2 => sd ≤ 55 && sb == 0 && !o.lb
  | 0x36, _ => sd == 0 && (sb ≤ 55 || sb == 60 || sb == 61)
  | 0x37, 0 => sd == 0 && sa ≤ 62 && sb == 0 && !o.lb
  | 0x37, 1 => sb == 0 && !o.lb
  | 0x37, _ => sd == 0 && sb == 0 && !o.lb
  | 0x38, 0 => !o.la && !o.lb
  | 0x38, 1 => !o.la && !o.lb
  | 0x38, 2 => sa == 0 && sb == 0 && !o.la && !o.lb
  | 0x38, _ => sd == 0 && !o.la && !o.lb
  | 0x39, _ => sb == 0 && !o.lb
  | _, _ => true

/-- The zero fields and the field conditions of an instruction's own format and description
(R82 to R85, R96 to R98, R135, R225). -/
def fieldsOk (c : Code) : Bool :=
  match c.body with
  | .A o =>
    if c.major = 0x12 ∧ c.sel = 1 then o.b == 0 && !o.lb
    else if c.major = 0x18 ∧ c.sel = 2 then o.d == 0
    else if c.major = 0x18 ∧ c.sel = 3 then o.b == 0 && !o.lb
    else true
  | .I o => if c.major = 0x08 ∧ c.sel ≠ 0 then o.imm.toNat < 32 else true
  | .U o =>
    (if 10 ≤ c.sel ∧ c.sel ≤ 17 then true else o.flag == 7) &&
    (if c.sel = 24 then o.a == 0 && !o.la else true)
  | .M o =>
    match c.sel with
    | 3 => o.mb == 0 && o.s == 0 && !o.ls
    | 4 => o.ma == 0 && o.mb == 0
    | 5 => o.md == 0 && o.mb == 0 && !o.ls
    | 6 => o.md == 0 && !o.ls
    | 7 => o.md == 0 && !o.ls
    | _ => o.s == 0 && !o.ls
  | .X o => if c.major = 0x1A then true else !o.lb && o.b.toNat / 32 == c.sel
  | .AT o => if c.major ≥ 0x28 then !o.lb else true
  | .F o => if c.sel % 2 = 0 then o.sa == 0 && o.sb == 0 && !o.la && !o.lb else true
  | .T o =>
    match c.sel with
    | 0 => o.imm == 0
    | 1 => o.imm == 0
    | 6 => o.a == 0 && !o.la
    | 8 => o.a == 0 && !o.la
    | 9 => o.a == 0 && !o.la && (o.imm == 2 || o.imm == 4 || o.imm == 8 || o.imm == 16 || o.imm == 32)
    | _ => o.a == 0 && !o.la && o.imm == 0
  | .S o => sFields c.major c.sel o
  | _ => true

/-- The format, fill and scope codes that are reserved (R85), and codes 62 and 63 in the vector field b of ATOML, which does not read
it (R80, R95, R206). -/
def codesOk (c : Code) : Bool :=
  match c.body with
  | .X o => o.fill.toNat ≤ 2
  | .LDA o => o.scope.toNat ≤ 11
  | .STR o => o.scope.toNat ≤ 11
  | .F o => o.scope.toNat ≤ 11
  | .ST o => o.fmt.toNat ≤ 8
  | .STL o => o.fmt.toNat ≤ 8
  | .AT o => o.b.toNat ≤ 61
  | _ => true

/-- A vector source code (R80): 0 to 61; BRX and CALLX take 0 to 59 (R98). -/
def srcCodeOk (c : Code) : Src → Bool
  | .v code _ => if c.major = 0x2E then code.toNat ≤ 59 else code.toNat ≤ 61
  | _ => true

/-- A vector destination code (R80): 0 to 55, or 60 to discard. -/
def dstCodeOk : Option (BitVec 6) → Bool
  | some d => d.toNat ≤ 55 || d.toNat == 60
  | none => true

/-- A last-use bit is not set on a code 56 to 61 (R81). -/
def lastUseOk : Src → Bool
  | .v code lu => !lu || code.toNat ≤ 55
  | _ => true

/-- Whether a source is a latch x0 to x3. -/
def isLatch : Src → Bool
  | .v code _ => 56 ≤ code.toNat && code.toNat ≤ 59
  | _ => false

/-- Majors that take mask (R89). -/
def takesMask (major sel : Nat) : Bool :=
  (1 ≤ major && major ≤ 0x0F) || (0x17 ≤ major && major ≤ 0x18) || (0x1A ≤ major && major ≤ 0x2B) ||
  (major == 0x31 && sel == 1)

/-- Majors that take mz (R89). -/
def takesMz (major : Nat) : Bool :=
  (1 ≤ major && major ≤ 0x0F) || (0x17 ≤ major && major ≤ 0x18) || (0x1A ≤ major && major ≤ 0x1F) ||
  major == 0x23 || (0x25 ≤ major && major ≤ 0x2A)

/-- Instructions that take rnd (R50, R89). -/
def takesRnd (major sel : Nat) : Bool :=
  major == 0x0C || (major == 0x0F && (sel == 12 || sel == 20 || sel == 21 || sel == 22)) ||
  major == 0x20 || major == 0x24 || (major == 0x37 && sel == 0)

/-- Instructions that take sat (R89). -/
def takesSat (major sel : Nat) : Bool :=
  major == 0x20 || major == 0x24 || (major == 0x37 && sel == 0)

/-- Whether a major is an atomic (R87). -/
def isAtomic (major : Nat) : Bool := 0x25 ≤ major && major ≤ 0x2A

/-- Majors that take any PREFIX at all (R89). -/
def takesPfx (major sel : Nat) : Bool := takesMask major sel || (major == 0x37 && sel == 0)

/-- The PREFIX of a group against the acceptance table (R86 to R89). -/
def pfxOk (major sel : Nat) : Option Pfx → Bool
  | none => !readsC major sel
  | some p =>
    takesPfx major sel &&
    (takesMask major sel || p.mask == 0) && (takesMz major || !p.mz) &&
    (readsC major sel || (p.c == 0 && !p.lc)) &&
    (if isAtomic major then
      p.rnd.toNat ≤ 4 && !p.sat && p.ext.toNat / 16 == 0 && p.ext.toNat % 16 ≤ 11
    else
      (if takesRnd major sel then p.rnd.toNat ≤ 6 else p.rnd == 0) && (takesSat major sel || !p.sat) && p.ext == 0)

/-- Majors that may be repeated (R89). -/
def takesRpt (major : Nat) : Bool :=
  (1 ≤ major && major ≤ 0x0A) || major == 0x0C || major == 0x0D || major == 0x0F ||
  (0x1A ≤ major && major ≤ 0x1E) || major == 0x23 || major == 0x20 || major == 0x24

/-- A stepped field (R91): it holds a register v0 to v55 and its last repetition does not pass v55. -/
def stepOk (field : Option (BitVec 6)) (st : BitVec 2) (count : BitVec 6) : Bool :=
  if st = 0 then true
  else match field with
    | some code => code.toNat ≤ 55 && code.toNat + count.toNat * advance st ≤ 55
    | none => false

/-- The vector register fields d, a and b of a payload, where the format has them as such (R91). -/
def vfields (c : Code) : Option (BitVec 6) × Option (BitVec 6) × Option (BitVec 6) :=
  match c.body with
  | .A o => (some o.d, some o.a, some o.b)
  | .I o => (some o.d, some o.a, none)
  | .K o => (some o.d, none, none)
  | .U o => (some o.d, if c.sel = 7 ∨ c.sel = 24 then none else some o.a, none)
  | .X o => (some o.d, some o.a, if c.major = 0x1A then some o.b else none)
  | .LD o => (some o.d, some o.a, none)
  | .ST o => (some o.d, some o.a, none)
  | .LDL o => (some o.d, some o.a, none)
  | .STL o => (some o.d, some o.a, none)
  | _ => (none, none, none)

/-- The REPEAT of a group (R89, R91): stepc only where the base reads c (R161, R162). -/
def rptOk (c : Code) : Bool :=
  match c.grp.rpt with
  | none => true
  | some r =>
    let f := vfields c
    takesRpt c.major && stepOk f.1 r.stepD r.count && stepOk f.2.1 r.stepA r.count &&
    stepOk f.2.2 r.stepB r.count &&
    (r.stepC == 0 || (readsC c.major c.sel && (match c.grp.pfx with | some p => stepOk (some p.c) r.stepC r.count | none => false)))

/-- The stop bit of a group (R75). -/
def stopOk (c : Code) : Bool :=
  !c.grp.stop || (c.grp.rpt.isNone && !((uses c).srcs.any isLatch))

/-- The first rule against which an instruction of 32 bits offends, if any (R99). -/
def illegal (c : Code) : Option IllegalWhy :=
  if !fieldsOk c then some .fieldRule
  else if !codesOk c then some .reservedCode
  else if !((uses c).srcs.all (srcCodeOk c) && dstCodeOk (uses c).vdst) then some .operandCode
  else if !((uses c).srcs.all lastUseOk) then some .lastUse
  else if !pfxOk c.major c.sel c.grp.pfx then some .pfxRule
  else if !rptOk c then some .repeatRule
  else if !stopOk c then some .stopBit
  else none

/-- Whether an instruction is one of the stream's encodings and legal as such (R99). A 16-bit form and WAIT
always are. -/
def codeLegal (i : Instr) : Bool :=
  match codeOf i with
  | some c => (illegal c).isNone
  | none => true

end Legal

/-- The length in bytes of the group of an instruction (R93, R100); zero for what is no instruction. -/
def instrLen (i : Instr) : Nat :=
  match codeOf i with
  | some c => 4 + (if c.grp.pfx.isSome then 4 else 0) + (if c.grp.rpt.isSome then 4 else 0)
  | none =>
    match compactOf i with
    | some _ => 2
    | none =>
      match i with
      | .wait _ => 2
      | .illegalEncoding e => e.len
      | _ => 0

end Sys2Proof
end

