-- ==== Sys2Proof/Decode.lean ====
section
/-! DEFINITION. The decoder from bytes to instructions, total, which rejects a group by the reason why it is
none (03_encoding.md R72 to R99), and after it the encoder written from the same tables. -/

namespace Sys2Proof

/-- The fields of a word or payload packed from the lowest bit upward, each with its width (R82). -/
def packFields : List (Nat × Nat) → Nat
  | [] => 0
  | (w, x) :: fs => x + 2 ^ w * packFields fs

/-- The fields of given widths taken from a number, lowest first (R82). -/
def unpackFields : List Nat → Nat → List Nat
  | [], _ => []
  | w :: ws, n => n % 2 ^ w :: unpackFields ws (n / 2 ^ w)

/-- A bit as a field. -/
def bit (b : Bool) : Nat := if b then 1 else 0

/-- A field of one bit. -/
def bitOf (n : Nat) : Bool := n == 1

/-- The payload formats of R82. -/
inductive Fmt where
  | A | I | K | C | U | M | X | LD | LDA | ST | STR | STF | LDL | STL | AT | P16 | F | B | T | S
  deriving DecidableEq, Repr

/-- The format of each major (R95); nothing for the reserved majors, PREFIX and REPEAT. -/
def fmtOf (major : Nat) : Option Fmt :=
  match major with
  | 0x01 => some .A | 0x02 => some .A | 0x03 => some .A | 0x04 => some .A | 0x05 => some .A | 0x06 => some .A
  | 0x07 => some .I | 0x08 => some .I
  | 0x09 => some .K | 0x0A => some .K
  | 0x0B => some .C
  | 0x0C => some .A | 0x0D => some .A
  | 0x0E => some .C
  | 0x0F => some .U
  | 0x10 => some .A | 0x11 => some .A | 0x12 => some .A
  | 0x13 => some .C
  | 0x14 => some .K | 0x15 => some .K
  | 0x16 => some .S
  | 0x17 => some .A | 0x18 => some .A
  | 0x19 => some .M
  | 0x1A => some .X | 0x1B => some .X | 0x1C => some .X
  | 0x1D => some .LD | 0x1E => some .LD
  | 0x1F => some .LDA
  | 0x20 => some .ST
  | 0x21 => some .STR
  | 0x22 => some .STF
  | 0x23 => some .LDL
  | 0x24 => some .STL
  | 0x25 => some .AT | 0x26 => some .AT | 0x27 => some .AT | 0x28 => some .AT | 0x29 => some .AT | 0x2A => some .AT
  | 0x2B => some .P16
  | 0x2C => some .F
  | 0x2D => some .B
  | 0x2E => some .T
  | 0x2F => some .S | 0x30 => some .S | 0x31 => some .S | 0x32 => some .S | 0x33 => some .S | 0x34 => some .S
  | 0x35 => some .S | 0x36 => some .S | 0x37 => some .S | 0x38 => some .S | 0x39 => some .S
  | _ => none

/-- The widths of a format's fields, from bit 7 upward, the selector and the zero field in their places
(R82). Every list sums to 22. -/
def fmtWidths : Fmt → List Nat
  | .A => [6, 6, 6, 1, 1, 2]
  | .I => [6, 6, 1, 7, 2]
  | .K => [6, 16]
  | .C => [4, 6, 6, 1, 1, 3, 1]
  | .U => [6, 6, 6, 1, 3]
  | .M => [3, 4, 4, 4, 6, 1]
  | .X => [6, 6, 6, 1, 1, 2]
  | .LD => [6, 6, 3, 1, 1, 3, 2]
  | .LDA => [6, 6, 2, 1, 1, 2, 4]
  | .ST => [6, 6, 3, 1, 1, 1, 4]
  | .STR => [6, 6, 2, 1, 1, 1, 4, 1]
  | .STF => [6, 6, 2, 1, 1, 1, 5]
  | .LDL => [6, 6, 1, 3, 2, 4]
  | .STL => [6, 6, 1, 1, 4, 4]
  | .AT => [6, 6, 6, 1, 1, 2]
  | .P16 => [6, 6, 3, 1, 1, 1, 4]
  | .F => [3, 6, 6, 1, 1, 4, 1]
  | .B => [4, 1, 1, 16]
  | .T => [4, 6, 1, 8, 3]
  | .S => [2, 6, 6, 6, 1, 1]

/-- The values of a payload's fields in the order of `fmtWidths`, with the selector (R82). -/
def bodyFields (sel : Nat) : Body → List Nat
  | .A o => [o.d.toNat, o.a.toNat, o.b.toNat, bit o.la, bit o.lb, sel]
  | .I o => [o.d.toNat, o.a.toNat, bit o.la, o.imm.toNat, sel]
  | .K o => [o.d.toNat, o.imm.toNat]
  | .C o => [o.md.toNat, o.a.toNat, o.b.toNat, bit o.la, bit o.lb, o.cond.toNat, 0]
  | .U o => [o.d.toNat, o.a.toNat, sel, bit o.la, o.flag.toNat]
  | .M o => [sel, o.md.toNat, o.ma.toNat, o.mb.toNat, o.s.toNat, bit o.ls]
  | .X o => [o.d.toNat, o.a.toNat, o.b.toNat, bit o.la, bit o.lb, o.fill.toNat]
  | .LD o => [o.d.toNat, o.a.toNat, o.s.toNat, bit o.la, bit o.ls, o.flag.toNat, o.fmt.toNat]
  | .LDA o => [o.d.toNat, o.a.toNat, o.s.toNat, bit o.la, bit o.ls, o.flag.toNat, o.scope.toNat]
  | .ST o => [o.d.toNat, o.a.toNat, o.s.toNat, bit o.la, bit o.ld, bit o.ls, o.fmt.toNat]
  | .STR o => [o.d.toNat, o.a.toNat, o.s.toNat, bit o.la, bit o.ld, bit o.ls, o.scope.toNat, 0]
  | .STF o => [o.d.toNat, o.a.toNat, o.s.toNat, bit o.la, bit o.ld, bit o.ls, o.cons.toNat]
  | .LDL o => [o.d.toNat, o.a.toNat, bit o.la, o.flag.toNat, o.fmt.toNat, o.off.toNat]
  | .STL o => [o.d.toNat, o.a.toNat, bit o.la, bit o.ld, o.fmt.toNat, o.off.toNat]
  | .AT o => [o.d.toNat, o.a.toNat, o.b.toNat, bit o.la, bit o.lb, sel]
  | .P16 o => [o.d.toNat, o.a.toNat, o.s.toNat, bit o.ld, bit o.la, bit o.ls, o.sync.toNat]
  | .F o => [sel, o.sa.toNat, o.sb.toNat, bit o.la, bit o.lb, o.scope.toNat, 0]
  | .B o => [o.mask.toNat, bit o.sense, sel, o.off.toNat]
  | .T o => [sel, o.a.toNat, bit o.la, o.imm.toNat, 0]
  | .S o => [sel, o.sd.toNat, o.sa.toNat, o.sb.toNat, bit o.la, bit o.lb]

/-- The format of a payload. -/
def Body.fmt : Body → Fmt
  | .A _ => .A | .I _ => .I | .K _ => .K | .C _ => .C | .U _ => .U | .M _ => .M | .X _ => .X | .LD _ => .LD
  | .LDA _ => .LDA | .ST _ => .ST | .STR _ => .STR | .STF _ => .STF | .LDL _ => .LDL | .STL _ => .STL
  | .AT _ => .AT | .P16 _ => .P16 | .F _ => .F | .B _ => .B | .T _ => .T | .S _ => .S

/-- The selector and the payload from the values of a format's fields; nothing where a zero field is not
zero. The selector of majors 0x1B and 0x1C is b[5] (R95). -/
def bodyOf (major : Nat) (f : Fmt) (xs : List Nat) : Option (Nat × Body) :=
  match f, xs with
  | .A, [d, a, b, la, lb, sel] => some (sel, .A ⟨.ofNat 6 d, .ofNat 6 a, .ofNat 6 b, bitOf la, bitOf lb⟩)
  | .I, [d, a, la, imm, sel] => some (sel, .I ⟨.ofNat 6 d, .ofNat 6 a, bitOf la, .ofNat 7 imm⟩)
  | .K, [d, imm] => some (0, .K ⟨.ofNat 6 d, .ofNat 16 imm⟩)
  | .C, [md, a, b, la, lb, cond, z] =>
    if z = 0 then some (0, .C ⟨.ofNat 4 md, .ofNat 6 a, .ofNat 6 b, bitOf la, bitOf lb, .ofNat 3 cond⟩) else none
  | .U, [d, a, sel, la, flag] => some (sel, .U ⟨.ofNat 6 d, .ofNat 6 a, bitOf la, .ofNat 3 flag⟩)
  | .M, [sel, md, ma, mb, s, ls] =>
    some (sel, .M ⟨.ofNat 4 md, .ofNat 4 ma, .ofNat 4 mb, .ofNat 6 s, bitOf ls⟩)
  | .X, [d, a, b, la, lb, fill] =>
    some (if major = 0x1A then 0 else b / 32,
      .X ⟨.ofNat 6 d, .ofNat 6 a, .ofNat 6 b, bitOf la, bitOf lb, .ofNat 2 fill⟩)
  | .LD, [d, a, s, la, ls, flag, fmt] =>
    some (0, .LD ⟨.ofNat 6 d, .ofNat 6 a, .ofNat 3 s, bitOf la, bitOf ls, .ofNat 3 flag, .ofNat 2 fmt⟩)
  | .LDA, [d, a, s, la, ls, flag, scope] =>
    some (0, .LDA ⟨.ofNat 6 d, .ofNat 6 a, .ofNat 2 s, bitOf la, bitOf ls, .ofNat 2 flag, .ofNat 4 scope⟩)
  | .ST, [d, a, s, la, ld, ls, fmt] =>
    some (0, .ST ⟨.ofNat 6 d, .ofNat 6 a, .ofNat 3 s, bitOf la, bitOf ld, bitOf ls, .ofNat 4 fmt⟩)
  | .STR, [d, a, s, la, ld, ls, scope, z] =>
    if z = 0 then
      some (0, .STR ⟨.ofNat 6 d, .ofNat 6 a, .ofNat 2 s, bitOf la, bitOf ld, bitOf ls, .ofNat 4 scope⟩)
    else none
  | .STF, [d, a, s, la, ld, ls, cons] =>
    some (0, .STF ⟨.ofNat 6 d, .ofNat 6 a, .ofNat 2 s, bitOf la, bitOf ld, bitOf ls, .ofNat 5 cons⟩)
  | .LDL, [d, a, la, flag, fmt, off] =>
    some (0, .LDL ⟨.ofNat 6 d, .ofNat 6 a, bitOf la, .ofNat 3 flag, .ofNat 2 fmt, .ofNat 4 off⟩)
  | .STL, [d, a, la, ld, fmt, off] =>
    some (0, .STL ⟨.ofNat 6 d, .ofNat 6 a, bitOf la, bitOf ld, .ofNat 4 fmt, .ofNat 4 off⟩)
  | .AT, [d, a, b, la, lb, sel] => some (sel, .AT ⟨.ofNat 6 d, .ofNat 6 a, .ofNat 6 b, bitOf la, bitOf lb⟩)
  | .P16, [d, a, s, ld, la, ls, sync] =>
    some (0, .P16 ⟨.ofNat 6 d, .ofNat 6 a, .ofNat 3 s, bitOf ld, bitOf la, bitOf ls, .ofNat 4 sync⟩)
  | .F, [sel, sa, sb, la, lb, scope, z] =>
    if z = 0 then some (sel, .F ⟨.ofNat 6 sa, .ofNat 6 sb, bitOf la, bitOf lb, .ofNat 4 scope⟩) else none
  | .B, [mask, sense, sel, off] => some (sel, .B ⟨.ofNat 4 mask, bitOf sense, .ofNat 16 off⟩)
  | .T, [sel, a, la, imm, z] => if z = 0 then some (sel, .T ⟨.ofNat 6 a, bitOf la, .ofNat 8 imm⟩) else none
  | .S, [sel, sd, sa, sb, la, lb] => some (sel, .S ⟨.ofNat 6 sd, .ofNat 6 sa, .ofNat 6 sb, bitOf la, bitOf lb⟩)
  | _, _ => none

/-- The widths of a 32-bit word's common fields from bit 0 upward: length, major, payload, dist, stop (R73). -/
def wordWidths : List Nat := [1, 6, 22, 2, 1]

/-- The major of a 32-bit word (R73). -/
def majorOf (w : Nat) : Nat := w / 2 % 64

/-- The fields of a PREFIX word (R82), dist and stop apart. -/
def pfxWidths : List Nat := [4, 1, 3, 6, 1, 1, 6]

/-- The fields of a REPEAT word (R82), dist and stop apart. -/
def rptWidths : List Nat := [6, 2, 2, 2, 2, 8]

/-- A PREFIX word read (R82, R86); nothing where dist or stop is set (R74). -/
def pfxOf (w : Nat) : Option Pfx :=
  match unpackFields wordWidths w with
  | [_, _, p, 0, 0] =>
    match unpackFields pfxWidths p with
    | [m, mz, r, c, lc, s, e] => some ⟨.ofNat 4 m, bitOf mz, .ofNat 3 r, .ofNat 6 c, bitOf lc, bitOf s, .ofNat 6 e⟩
    | _ => none
  | _ => none

/-- A REPEAT word read (R82, R90); nothing where dist, stop or a zero field is set (R74). -/
def rptOf (w : Nat) : Option Rpt :=
  match unpackFields wordWidths w with
  | [_, _, p, 0, 0] =>
    match unpackFields rptWidths p with
    | [n, d, a, b, c, 0] => some ⟨.ofNat 6 n, .ofNat 2 d, .ofNat 2 a, .ofNat 2 b, .ofNat 2 c⟩
    | _ => none
  | _ => none

/-- The unit at the head of the stream (R72): a parcel of 16 bits or a word of 32 bits, and the rest. -/
inductive Unit1 where
  | parcel (p : Nat) (rest : List Byte)
  | word (w : Nat) (rest : List Byte)
  /-- fewer bytes than the unit needs -/
  | short
  deriving DecidableEq, Repr

/-- Takes one unit, each parcel little-endian (R72). -/
def takeUnit : List Byte → Unit1
  | b0 :: b1 :: rest =>
    if b0.toNat % 2 = 0 then .parcel (b0.toNat + 256 * b1.toNat) rest
    else match rest with
      | b2 :: b3 :: rest' =>
        .word (b0.toNat + 256 * b1.toNat + 65536 * b2.toNat + 16777216 * b3.toNat) rest'
      | _ => .short
  | _ => .short

/-- A 16-bit parcel (R76 to R78): WAIT where bits [3:1] are ones, else a lane form. -/
def decodeParcel (p : Nat) : Option Instr :=
  if p / 2 % 8 = 7 then some (.wait (.ofNat 12 (p / 16)))
  else compactInstr (p / 2 % 32) ⟨.ofNat 5 (p / 64 % 32), .ofNat 4 (p / 2048 % 16), bitOf (p / 32768)⟩

/-- The base word of a group with the PREFIX and REPEAT before it: the instruction, or why it is none
(R82 to R99). -/
def decodeBase (pfx : Option Pfx) (rpt : Option Rpt) (w : Nat) : Except IllegalWhy Instr :=
  match unpackFields wordWidths w with
  | [_, major, p, dist, stop] =>
    match fmtOf major with
    | none => .error .reservedMajor
    | some f =>
      match bodyOf major f (unpackFields (fmtWidths f) p) with
      | none => .error .zeroField
      | some (sel, body) =>
        let c : Code := ⟨major, sel, ⟨bitOf stop, .ofNat 2 dist, pfx, rpt⟩, body⟩
        match instrOf c with
        | none => .error .reservedSelector
        | some i =>
          match Legal.illegal c with
          | none => .ok i
          | some why => .error why
  | _ => .error .groupShape

/-- What a malformed or illegal group reports (R100). -/
def badGroup (why : IllegalWhy) (insn pfxw len : Nat) : BadGroup :=
  ⟨why, .ofNat 32 insn, .ofNat 32 pfxw, len⟩

/-- The rest of a group after a PREFIX word and perhaps a REPEAT before it: only a base word may stand here
(R93). `n` counts the bytes taken so far. -/
def decodeAfterPfx (rptw : Option Nat) (pw n : Nat) (bs : List Byte) : Except BadGroup Instr :=
  match takeUnit bs with
  | .short => .error (badGroup .groupShape 0 pw n)
  | .parcel q _ => .error (badGroup .groupShape q pw (n + 2))
  | .word w _ =>
    if majorOf w = 0x3E ∨ majorOf w = 0x3F then .error (badGroup .groupShape w pw (n + 4))
    else
      match pfxOf pw with
      | none => .error (badGroup .pfxRule w pw (n + 4))
      | some p =>
        match rptw with
        | none =>
          match decodeBase (some p) none w with
          | .ok i => .ok i
          | .error why => .error (badGroup why w pw (n + 4))
        | some rw =>
          match rptOf rw with
          | none => .error (badGroup .repeatRule w pw (n + 4))
          | some r =>
            match decodeBase (some p) (some r) w with
            | .ok i => .ok i
            | .error why => .error (badGroup why w pw (n + 4))

/-- The rest of a group after a REPEAT word: a PREFIX or a base word (R93). -/
def decodeAfterRpt (rw : Nat) (bs : List Byte) : Except BadGroup Instr :=
  match takeUnit bs with
  | .short => .error (badGroup .groupShape 0 0 4)
  | .parcel q _ => .error (badGroup .groupShape q 0 6)
  | .word w rest =>
    if majorOf w = 0x3F then .error (badGroup .groupShape w 0 8)
    else if majorOf w = 0x3E then decodeAfterPfx (some rw) w 8 rest
    else
      match rptOf rw with
      | none => .error (badGroup .repeatRule w 0 8)
      | some r =>
        match decodeBase none (some r) w with
        | .ok i => .ok i
        | .error why => .error (badGroup why w 0 8)

/-- The instruction group at the head of a stream of bytes, or what is wrong with it (R72 to R99, R100). -/
def decode (bs : List Byte) : Except BadGroup Instr :=
  match takeUnit bs with
  | .short => .error (badGroup .groupShape 0 0 2)
  | .parcel p _ =>
    match decodeParcel p with
    | some i => .ok i
    | none => .error (badGroup .laneForm p 0 2)
  | .word w rest =>
    if majorOf w = 0x3F then decodeAfterRpt w rest
    else if majorOf w = 0x3E then decodeAfterPfx none w 4 rest
    else
      match decodeBase none none w with
      | .ok i => .ok i
      | .error why => .error (badGroup why w 0 4)

/-! ## The encoder -/

/-- The 32-bit word of common fields and a payload (R73). -/
def wordOf (major payload dist stop : Nat) : Nat :=
  packFields [(1, 1), (6, major), (22, payload), (2, dist), (1, stop)]

/-- The payload of a body with its selector (R82). -/
def payloadOf (sel : Nat) (b : Body) : Nat := packFields ((fmtWidths b.fmt).zip (bodyFields sel b))

/-- A PREFIX word (R86). -/
def pfxWord (p : Pfx) : Nat :=
  wordOf 0x3E (packFields (pfxWidths.zip
    [p.mask.toNat, bit p.mz, p.rnd.toNat, p.c.toNat, bit p.lc, bit p.sat, p.ext.toNat])) 0 0

/-- A REPEAT word (R90). -/
def rptWord (r : Rpt) : Nat :=
  wordOf 0x3F (packFields (rptWidths.zip
    [r.count.toNat, r.stepD.toNat, r.stepA.toNat, r.stepB.toNat, r.stepC.toNat, 0])) 0 0

/-- The base word of an instruction of 32 bits (R73, R82). -/
def baseWord (c : Code) : Nat :=
  wordOf c.major (payloadOf c.sel c.body) c.grp.dist.toNat (bit c.grp.stop)

/-- The parcel of a lane form (R76). -/
def compactWord (op5 : Nat) (o : OpsC16) : Nat :=
  packFields [(1, 0), (5, op5), (5, o.rd.toNat), (4, o.rs.toNat), (1, bit o.ls)]

/-- The bytes of a number, lowest first (R72). -/
def leBytes : Nat → Nat → List Byte
  | 0, _ => []
  | k + 1, n => .ofNat 8 n :: leBytes k (n / 256)

/-- The bytes of the group of an instruction, REPEAT, PREFIX and base in order (R93); none for what is no
instruction of the stream. -/
def encode (i : Instr) : List Byte :=
  match codeOf i with
  | some c =>
    (match c.grp.rpt with | some r => leBytes 4 (rptWord r) | none => []) ++
    (match c.grp.pfx with | some p => leBytes 4 (pfxWord p) | none => []) ++
    leBytes 4 (baseWord c)
  | none =>
    match compactOf i with
    | some (op5, o) => leBytes 2 (compactWord op5 o)
    | none =>
      match i with
      | .wait fl => leBytes 2 (packFields [(1, 0), (3, 7), (12, fl.toNat)])
      | _ => []

/-- The instruction read from an opcode-table word of `nbits` bits, the rest of the longest group zero. -/
def decodeTableWord (nbits w : Nat) : Option Instr :=
  match decode (leBytes 12 (w % 2 ^ nbits)) with
  | .ok i => some i
  | .error _ => none

end Sys2Proof
end

