-- ==== Sys2Proof/Config.lean ====
section
/-! DEFINITION. What the part or its provisioning fixes, and the free values the manual leaves open.
An `opaque` constant has no body: nothing can be proved of its value, so a statement that holds, holds
whatever it is. Each free value is named in the assumption log. -/

namespace Sys2Proof.Config

/-- FEATOFFER: bits 0 to 8 are offered, bits 9 to 255 read as zero (01 R24, R25). (assumption 5, DESIGN CHOICE) -/
def featOffer : BitVec 256 := 0x1FF#256

/-- Physical vector registers of a core (05 R144). -/
def poolSize : Nat := 4096

/-- Bytes of a core's scratchpad outside the view pool (17 R344, 18 R353, 20 R390). -/
def scratchLimit : Nat := 516096

/-- Entries of a core's L1 TLB (14 R289). -/
def tlbEntries : Nat := 128

/-- Entries of a die's fault buffer (14 R297). -/
def faultBufferEntries : Nat := 4096

/-- Waiters on one table walk (14 R290). -/
def walkWaiters : Nat := 64

/-- Bulk copy entries and lane copy entries of a core (22 R436). -/
def bulkEntries : Nat := 64
def laneEntries : Nat := 256

/-- Commands of a block's matrix command queue (24 R456). -/
def matrixQueue : Nat := 32

/-- Bytes of HBM behind a memory socket (01 R14). -/
def hbmBytes : Nat := 0x3000000000

/-- Ticks of the time base that pass during step n of the machine (27 R521). FREE. -/
opaque ticks : Nat → Nat

/-- Which of the values that an early read may return is returned, at draw n, for register key r and
lane l (05 R140, 11 R235). FREE. (assumption 27, DESIGN CHOICE) -/
opaque earlyPick : Nat → Nat → Nat → Nat

/-- The result an SFU function (U function f) takes among those its bound allows, as a function of the
operand, the same on every core (07 R185, R186). FREE. (assumption 26, DESIGN CHOICE) -/
opaque sfu : Nat → Word → Word

/-- A doubleword that the manual leaves open, at draw n. FREE. (assumption 94, DESIGN CHOICE) -/
opaque freeDWord : Nat → DWord

/-- The signature of a digest under the package's identity key, which never leaves the die (01 R29): r and s. FREE. -/
opaque identitySign : List Byte → BitVec 384 × BitVec 384

/-- Swestan's firmware public key (01 R26). FREE. -/
opaque firmwareKey : List Byte

/-- The parts of a firmware image, whose layout is not given (01 R26): component, version, security version, the bytes the
signature covers, the signature. FREE. (assumption 12, DESIGN CHOICE) -/
opaque imageComponent : List Byte → Nat
opaque imageVersion : List Byte → Nat
opaque imageSecver : List Byte → Nat
opaque imageSigned : List Byte → List Byte
opaque imageSignature : List Byte → List Byte

/-- Whether a charge that is no whole number of nanojoules is rounded up, at draw n (27 R520). FREE. (assumption 89, DESIGN CHOICE) -/
opaque roundUp : Nat → Bool

/-- Whether a clean copy of a damaged HBM word stands in an L2, at draw n (01 R39). FREE. -/
opaque cleanCopy : Nat → Bool

/-- The set of its home slice in which a line lies, and at draw n whether a damaged way of the slice holds it: the manual gives neither
the number of the sets nor the address bits that choose one (12 R260, 01 R38). FREE. (assumption 122, DESIGN CHOICE) -/
opaque l2Set : Nat → Nat
opaque inWay : Nat → Nat → Bool

/-- Byte i of the fresh claim nonce drawn at draw n (01 R19). FREE. -/
opaque nonceByte : Nat → Nat → Byte

end Sys2Proof.Config
end

