-- ==== Sys2Proof/Machine/State.lean ====
section
/-! DEFINITION. The state of the CQ-D1 as plain data: everything the manual gives the machine, the reasons a
step can stop, and the state right after reset (01_device.md to 27_debug.md; INVENTORY.md lists each field
with its rule). -/

namespace Sys2Proof.Machine

/-! ## Names -/

/-- Package states and their DEVSTATE codes 0 to 7 (R16, R18). -/
inductive DevState where
  | powerOff | reset | selfTest | unowned | owned | handover | thermalTrip | failed
  deriving DecidableEq, Repr

/-- Context states and their CTXSTATE codes 0 to 7 (R306). -/
inductive CtxSt where
  | empty | built | runnable | running | halted | preempted | faulted | teardown
  deriving DecidableEq, Repr

/-- The fault causes of R315; `hardware` is the cause 0x00 of R316. -/
inductive Cause where
  | hardware | illegal | unimpl | unmappedRead | latchChain | boundDiverge | boundMask | nonuniform
  | singularSplit | streamRights | stackLimit | brk | translation | protection | misaligned | ownerLost
  | race | pedigreeDepth | pedigreeRank | strandTable | pallocCollide | barrierOverrun | copyFault
  | tensorId | tileState | watch | step | migrateFault | doubleTrap | trap
  deriving DecidableEq, Repr

/-- States of a vector register (R138). -/
inductive RegSt where
  | unmapped | mapped | spilled
  deriving DecidableEq, Repr

/-- Where a warp stands (R302, R325, R375): in a general or landing slot, on its way to a die and slice, saved in memory, or
saved while an inline child (a warp number) uses its slot. -/
inductive Place where
  | resident | departing (target : Nat) (slice : Nat) | inTransit (target : Nat) (slice : Nat) | landed | saved | leapSaved (child : Nat)
  deriving DecidableEq, Repr

/-! ## Warps -/

/-- A vector register: its state and, while mapped, its lanes (R138). -/
structure VReg where
  st : RegSt := .unmapped
  val : Lanes := []
  deriving DecidableEq, Repr

/-- The registers that a latch chain's effects touch (R154 rule 5). -/
structure Regs where
  v : List VReg := []
  /-- mapped registers, the one mapped earliest first (R145) -/
  order : List Nat := []
  s : List DWord := []
  m : List LaneMask := []
  /-- FLAGS (R58) -/
  flags : BitVec 32 := 0
  /-- the SRK counter (R52) and the draw counter (R382) -/
  q : Word := 0
  draw : Word := 0
  deriving DecidableEq, Repr

/-- One write of a chain member, or of an issue: lanes written, lanes of the split zeroed, values (R139). -/
structure VWrite where
  reg : Nat
  lanes : LaneMask
  val : Lanes
  deriving DecidableEq, Repr

/-- What one member of a latch chain releases and writes (R154 rule 5). -/
structure Member where
  relV : List Nat := []
  relS : List Nat := []
  wrV : List VWrite := []
  wrS : List (Nat × DWord) := []
  deriving DecidableEq, Repr

/-- The latch chain a warp's last issue heads or continues (R153, R154): the head's group address, the number of
members, whether the last may be followed (rule 3), the split, the registers and entries before the head. -/
structure Chain where
  headPc : BitVec 32
  len : Nat
  closed : Bool
  split : LaneMask
  snap : Regs
  pc : List (BitVec 32)
  depth : List (BitVec 8)
  rep : List (BitVec 6)
  members : List Member
  luskip : Nat := 0
  /-- overtaken lanes and waiting releases of the operations out before the head -/
  snapPend : List (Nat × LaneMask × Bool) := []
  /-- counts that BBC members add when the chain ends (R522) -/
  bbc : List (Nat × Nat) := []
  deriving DecidableEq, Repr

/-- Where a lane's element lies: word address, byte in the word (R187, R198). -/
structure LaneSrc where
  lane : Nat
  wa : Nat
  off : Nat
  deriving DecidableEq, Repr

/-- What an operation that completes later is (R140). -/
inductive OpKind where
  /-- a load; with an acquire scope for LDA (R200) -/
  | load (fmt : Nat) (acq : Option Nat)
  | sld
  | scratch (fmt : Nat)
  | sfu
  | long
  | atom
  | mxrd
  | tret
  deriving DecidableEq, Repr

/-- An operation outstanding on a warp (R140, R183, R198, R207, R227): its flag, destination, the lanes it will
write, the values already known, the words still to come, and for a long-integer instruction its other results. -/
structure POp where
  id : Nat
  kind : OpKind
  flag : Option Nat := none
  vdst : Option Nat := none
  sdst : Option Nat := none
  lanes : LaneMask := 0
  /-- lanes that a later-issued write of the warp has overtaken (R235) -/
  overtaken : LaneMask := 0
  vals : List (Option Word) := []
  srcs : List LaneSrc := []
  /-- words that the load asked for: address, value once it has come -/
  words : List (Nat × Option Word) := []
  /-- words to install VALID on landing, each with the step in which it was read (R193, R250) -/
  fill : List (Nat × Word × Nat) := []
  /-- words whose grant to the core's own store the load waits for (R250) -/
  held : List Nat := []
  epoch : Nat := 0
  owner : Nat := 0
  mres : List (Nat × LaneMask × LaneMask) := []
  carry : List (Nat × Word) := []
  flagsOr : BitVec 32 := 0
  /-- a release of the destination waits for the landing (R140) -/
  release : Bool := false
  /-- clock of the warp from which the result is delivered, where the latency is fixed -/
  ready : Option Nat := none
  /-- clock of the warp when it issued (R234) -/
  born : Nat := 0
  /-- ids of the translations used, for invalidations (R295) -/
  pages : List Nat := []
  /-- forwarded reads of which a completion carried the HBM value (R254): the word's address -/
  lost : Option Nat := none
  deriving DecidableEq, Repr

/-- A register result that distances may not cover yet (R235): the register's lanes, from when it is surely
delivered, the operations that must land first, and the value before. -/
structure EarlyV where
  reg : Nat
  lanes : LaneMask
  ready : Nat
  after : List Nat
  old : Lanes
  deriving DecidableEq, Repr
structure EarlyS where
  reg : Nat
  ready : Nat
  old : DWord
  deriving DecidableEq, Repr
structure EarlyM where
  reg : Nat
  lanes : LaneMask
  ready : Nat
  old : LaneMask
  deriving DecidableEq, Repr

/-- Why a split is parked, with what it waits for (R115, R517). -/
inductive Wait where
  | syncw (off phase scope : Nat)
  | rawait (hdr sd : Nat)
  | cwaitb (batch : BitVec 32)
  | tsync (sd : Nat)
  | fuse
  /-- a copy to a full Carousel, with its descriptor, command and identifier entry as read at issue (R430, R449) -/
  | ring (hdr sd : Nat) (mx : Bool) (desc cmd : List DWord) (image : List Byte)
  deriving DecidableEq, Repr

/-- A parked split: its lanes when it parked, the wait, the order of its issue, the group as a frame reports it, and the scalars
that its last-use bits release when the wait has passed (R115, R141, R408, R415). -/
structure Park where
  lanes : LaneMask
  wait : Wait
  seq : Nat
  insn : BitVec 32 := 0
  ginfo : BitVec 32 := 0
  rel : List Nat := []
  /-- it makes its strand unchecked (R258) -/
  acq : Bool := false
  deriving DecidableEq, Repr

/-- What a translation answered (R15, R286, R291, R298). -/
inductive XRes where
  | leaf (e : BitVec 64)
  | notPresent (level : Nat)
  | unresolvable
  /-- a table read that the interposer refuses (R15) -/
  | refused
  deriving DecidableEq, Repr

/-- What the issue of a group has met so far, kept while its warp waits and the group is replayed (R194,
R195): translations by page, and whether the race checks are done. -/
structure Attempt where
  xlate : List (Nat × XRes) := []
  /-- check requests still out, and whether one answered RACE and for which lane and address -/
  checks : List Nat := []
  checked : Bool := false
  raced : List (Nat × Nat) := []
  /-- granules answered UNRESOLVABLE: base and log2 of the size (R298) -/
  bad : List (Nat × Nat) := []
  deriving DecidableEq, Repr

/-- Whole-warp holds (R115, R232). -/
inductive Hold where
  /-- translation of these pages (R289) -/
  | xlate (pages : List Nat)
  /-- fault park on fault-buffer keys (R194, R297) -/
  | fault (keys : List (Nat × Nat × Nat))
  /-- race checks (R195) -/
  | check
  /-- until operation `id` lands: SLD, atomics, SFU without a flag, MXRD (R173, R183, R207, R465) -/
  | op (id : Nat)
  /-- until the release action in progress is done, then the instruction goes on -/
  | release
  /-- MXFLAGS and held matrix instructions are retried when the queue changes (R456, R467) -/
  | matrix (cmd : Nat)
  /-- an identifier write on its way to the dies (R448) -/
  | tid (op : Nat)
  /-- a register is refilled first (R147) -/
  | refill
  /-- TRET waits for landings (R323) -/
  | quiesce
  /-- a TSYNC waits for a strand table entry (R370, R375) -/
  | entry
  /-- a write that long-integer results still out would overtake, until f11 reads zero (R228) -/
  | long
  /-- the group is tried again after the next step of the machine that may end its wait -/
  | retry
  deriving DecidableEq, Repr

/-- A range of bytes, or everything (R278). -/
structure Range where
  base : BitVec 64
  len : BitVec 64
  deriving DecidableEq, Repr

/-- Stores of the warp not yet granted at their home slice (R267): message, word, window acknowledgement. -/
structure OutStore where
  msg : Nat
  va : Nat
  wa : Nat
  window : Nat := 0
  deriving DecidableEq, Repr

/-- What goes on when a release action is done (R201, R279, R405). -/
inductive Cont where
  | none
  /-- the stores of an STR: virtual address, word, leaf, byte mask, value of each -/
  | stores (ws : List (Nat × Nat × BitVec 64 × BitVec 4 × Word))
  /-- the arrival of a SYNCA -/
  | arrive (off amount : Nat)
  deriving DecidableEq, Repr

/-- A release action in progress (R267, R279): scope, range, the operations and stores it waits for, what
follows, and whether an acquire at the same scope follows. -/
structure RelAct where
  /-- its number, and those of the STRs whose stores it waits for before they have gone out -/
  id : Nat := 0
  behind : List Nat := []
  scope : Nat
  ops : List Nat
  stores : List Nat
  cont : Cont
  acq : Option Nat := none
  /-- later accesses held: all, in the range, or none (R279, R201) -/
  holds : Option (Option Range) := none
  deriving DecidableEq, Repr

/-- An acquire action waiting for loads or in progress (R200, R255, R267): scope, loads it waits for, the range
of an ACQR, whether the invalidation has begun, which later accesses it holds. -/
structure AcqAct where
  scope : Nat
  ops : List Nat
  range : Option Range := none
  begun : Bool := false
  deriving DecidableEq, Repr

/-- A batch of copies (R410, R413): its number, copies not complete, the address of its undelivered fault. -/
structure Batch where
  num : BitVec 32
  live : Nat
  fault : Option DWord := none
  delivered : Bool := false
  deriving DecidableEq, Repr

/-- Age keys (R146). -/
structure AgeKey where
  seq : BitVec 64 := 0
  cls : Bool := false
  ord : BitVec 64 := 0
  deriving DecidableEq, Repr

/-- A cause on its way into a frame: everything R319, R320 and R526 report. -/
structure TrapInfo where
  cause : Cause
  code : BitVec 8 := 0
  lane : Option Nat := none
  deferred : Bool := false
  faddr : DWord := 0
  spl : LaneMask := 0
  act : LaneMask := 0
  insn : BitVec 32 := 0
  pfxw : BitVec 32 := 0
  ginfo : BitVec 32 := 0
  /-- TRAP reports the next group for its split's lanes (R322): how far -/
  skip : Nat := 0
  deriving DecidableEq, Repr

/-- Arrivals of SYNCA on their way (R405). -/
structure Arrival where
  id : Nat
  off : Nat
  amount : Nat
  deriving DecidableEq, Repr

/-- A RUPD not yet applied (R393). -/
structure Rupd where
  r : Nat
  vals : List Word
  deriving DecidableEq, Repr

/-- A warp (R112 to R154, R319). -/
structure Warp where
  ctx : Nat := 0
  num : Nat := 0
  core : Nat := 0
  slot : Nat := 0
  place : Place := .resident
  launch : Nat := 0
  blk : Option Nat := none
  task : Option Nat := none
  /-- index within the block, and linear identifier within the launch (R351, R352) -/
  k : Nat := 0
  linear : Nat := 0
  pc : List (BitVec 32) := []
  depth : List (BitVec 8) := []
  rep : List (BitVec 6) := []
  exited : LaneMask := 0
  parked : List Park := []
  regs : Regs := {}
  x : List Lanes := []
  chain : Option Chain := none
  /-- completion flags f0 to f11 (R137) -/
  f : List Nat := []
  limbst : BitVec 3 := 0
  carryx : List Word := []
  privbase : DWord := 0
  stackMax : BitVec 16 := 0
  stackLim : BitVec 16 := 0
  tag : BitVec 16 := 0
  openb : BitVec 32 := 1
  batches : List Batch := []
  role : BitVec 2 := 0
  cap : Nat := 0
  floor : Nat := 0
  age : AgeKey := {}
  inHandler : Bool := false
  stream : Bool := false
  yielded : Bool := false
  starve : Nat := 0
  /-- strand table entries for which the warp is held (R370) -/
  entryWait : Nat := 0
  desched : Bool := false
  halted : Option (BitVec 32) := none
  /-- what a debug event reported when it halted the warp (R512, R517) -/
  haltInfo : Option TrapInfo := none
  /-- step set of a debugger's STEP (R516) -/
  stepSet : Option LaneMask := none
  stopped : Bool := false
  /-- forced to stop at the next instruction boundary (R325) -/
  forced : Bool := false
  deferred : List (Cause × DWord) := []
  rupds : List Rupd := []
  /-- exempt from race checks until the next boundary (R258) -/
  unchecked : Bool := false
  /-- the cycle of the latest issue by the clock of its slot, earliest next issue, the cycles from which flags that have fallen
  read so, and no previous issue (R233, R234, R238) -/
  now : Nat := 0
  notBefore : Nat := 0
  flagAt : List Nat := []
  noPrev : Bool := true
  earlyV : List EarlyV := []
  earlyS : List EarlyS := []
  earlyM : List EarlyM := []
  pend : List POp := []
  stores : List OutStore := []
  rel : Option RelAct := none
  /-- release actions of STR and SYNCA, which hold nothing (R201, R405) -/
  relq : List RelAct := []
  acq : Option AcqAct := none
  arrivals : List Arrival := []
  holds : List Hold := []
  attempt : Attempt := {}
  /-- the stack cache: private words by virtual address, dirty (R133) -/
  stack : List (Nat × Word) := []
  /-- rows of the stack cache, the least recently used first (R133) -/
  rowUse : List Nat := []
  trapping : Option TrapInfo := none
  marked : Bool := false
  /-- no breakpoint test at the first issue after a debug resume (R510) -/
  bpSkip : Bool := false
  deriving DecidableEq, Repr

/-! ## Tasks and views -/

/-- A strand's record: a strand table entry (R368), or the root record of a group-launched warp; `key` is the task's key
(R366), `root` the root task of its tree. -/
structure Strand where
  tag : Nat := 0
  root : Nat := 0
  ped : List (BitVec 32) := []
  ctr : BitVec 32 := 0
  /-- 0 FREE, 1 LIVE, 2 RETIRING -/
  st : Nat := 0
  top : Nat := 0
  key : BitVec 64 := 0
  alloc : BitVec 32 := 0
  logs : BitVec 32 := 0
  kids : Nat := 0
  /-- slices whose acknowledgement of the tag's clearing is out (R259) -/
  acks : List Nat := []
  /-- the launch that it belongs to (R369) -/
  launch : Nat := 0
  deriving DecidableEq, Repr

/-- A reducer view's value (R388, R71): the word, or the exact accumulator with its sticky bits. -/
structure ViewVal where
  word : Word := 0
  acc : Int := 0
  sticky : BitVec 8 := 0
  deriving DecidableEq, Repr

/-- A view (R388 to R390): context, owner task, reducer, operation, the core whose pool holds it or its slot in the view
spill area, age of its last use. -/
structure View where
  id : Nat
  ctx : Nat
  task : Nat
  r : Nat
  op : Nat
  val : ViewVal
  core : Option Nat
  slot : Nat := 0
  used : Nat
  deriving DecidableEq, Repr

/-- A reducer in a task's set (R387, R389): number, operation, whether this task declared it, holder view. -/
structure Reducer where
  r : Nat
  op : Nat
  mine : Bool
  holder : Nat
  deriving DecidableEq, Repr

/-- Task states (R371). -/
inductive TaskSt where
  | queued | running | draining | complete
  deriving DecidableEq, Repr

/-- A task (R371): spawned, or the root task of a group-launched warp (`ent` none). -/
structure Task where
  id : Nat
  ctx : Nat
  launch : Nat
  parent : Option Nat := none
  ent : Option (BitVec 32) := none
  st : TaskSt := .queued
  entry : BitVec 32 := 0
  args : List DWord := []
  /-- tag of the strand it runs (first runs, while QUEUED), the warp that runs it, the core of its TSPAWN -/
  tag : Nat := 0
  warp : Option Nat := none
  home : Nat := 0
  warpDone : Bool := false
  reducers : List Reducer := []
  /-- it holds fresh views (R389), to be merged into the parent's holders -/
  fresh : Bool := false
  /-- epoch whose merges have started, and the child being merged (R395) -/
  mergeEpoch : Option Nat := none
  mergeChild : Option Nat := none
  /-- its slot in the deque spill area (R376) -/
  spill : Option Nat := none
  deriving DecidableEq, Repr

/-! ## Blocks and engines -/

/-- Tile formats (R454). -/
inductive TileFmt where
  | fp32 | f16 | i32
  deriving DecidableEq, Repr

/-- A stamp record open on a tile (R468). -/
structure Stamp where
  tag : BitVec 16
  warp : Nat
  copyin : DWord
  wait : Option DWord := none
  compute : Option DWord := none
  copyout : Option DWord := none
  preempted : Bool := false
  /-- the commands whose starts and completion it records: the first MXSTR and the next MXST -/
  str : Option Nat := none
  st : Option Nat := none
  deriving DecidableEq, Repr

/-- A tile: format, nonzero elements by row × 64 + column, sticky flags, stamp (R454). -/
structure Tile where
  fmt : TileFmt := .fp32
  el : List (Nat × Word) := []
  flags : BitVec 3 := 0
  stamp : Option Stamp := none
  deriving DecidableEq, Repr

/-- A stationary plane: mode 0 EMPTY, 1 BF16, 2 E4M3, 3 E5M2, 4 I8, 5 CB4 (R455, R471); its weights by k × 64 + n,
each a code with a scale code. -/
structure Plane where
  mode : Nat := 0
  w : List (BitVec 16 × BitVec 8) := []
  deriving DecidableEq, Repr

/-- Matrix commands (R456, R460 to R467). -/
inductive MxOp where
  | mxls (woff c2 k0 o0 : Nat) (image : List Byte)
  | mxswap
  | mxstr (act tile rows afmt trow : Nat) (asc : Option Nat)
  | mxzero (tile : Nat) (fmt : TileFmt)
  | mxrd (tile row half : Nat) (op : Nat)
  | mxwr (tile row half : Nat) (vals : Lanes)
  | mxst (dest : BitVec 64) (tile fmt : Nat) (mem : Bool) (pitch : Nat) (rnd : Nat) (sat : Bool) (key : BitVec 64)
      (ctr : Word)
  | mxflags (tile : Nat) (clr : Bool) (sd : Nat)
  deriving DecidableEq, Repr

/-- A command in a block's queue (R472): its warp, operation, sync word, whether it runs. -/
structure MxCmd where
  id : Nat
  warp : Nat
  op : MxOp
  sync : Option Nat
  running : Bool := false
  /-- it waits on the fault buffer for its memory accesses (R460, R466) -/
  waits : List (Nat × Nat × Nat) := []
  bad : List (Nat × Nat) := []
  /-- window words read, and asked for; window writes out (R497) -/
  got : List (Nat × Word) := []
  asked : List Nat := []
  wout : Nat := 0
  wrote : Bool := false
  deriving DecidableEq, Repr

/-- A write to the scratchpad on its way (R204, R404, R417). -/
inductive ScrWrite where
  | bytes (warp : Nat) (bs : List (Nat × Byte))
  | synci (warp off target : Nat)
  | ringi (warp hdr : Nat) (cfg : BitVec 64)
  deriving DecidableEq, Repr

/-- A follow-on command of a CPYMX in the order of issue (R432). -/
structure Follow where
  copy : Nat
  warp : Nat
  cmd : Nat
  opa : BitVec 32
  opb : DWord
  base : Nat
  landed : Bool := false
  deriving DecidableEq, Repr

/-- A block (R353): where it is, its scratchpad bytes that are not zero, tiles, planes, command queue. -/
structure Block where
  ctx : Nat := 0
  num : Nat := 0
  launch : Nat := 0
  linear : Nat := 0
  core : Nat := 0
  /-- saved in memory (R327) -/
  saved : Bool := false
  warps : List Nat := []
  liveWarps : Nat := 0
  scr : List Host.Cell := []
  scrLen : Nat := 0
  scrBase : Nat := 0
  scrq : List ScrWrite := []
  tiles : Nat := 0
  tile : List Tile := []
  active : Plane := {}
  shadow : Plane := {}
  queue : List MxCmd := []
  follows : List Follow := []
  /-- warps and follow-ons that found the queue full, the first first (R456): whether a warp, its number or the copy's -/
  mxWait : List (Bool × Nat) := []
  ppMask : BitVec 18 := 0
  ppIn : Bool := false
  roles : List Nat := []
  caps : List Nat := []
  producer : Nat := 0
  fuse : Bool := false
  /-- memory addresses of the copies that broke sync words, by offset (R409) -/
  broken : List (Nat × DWord) := []
  /-- Carousel slots whose word advanced before WR reached them: header and index (R415) -/
  ringDone : List (Nat × Nat) := []
  deriving DecidableEq, Repr

/-- Copies (R428, R435 to R438). -/
inductive CopyKind where
  | cpy | cpymx | cpynb | cpy16 (lane : Nat)
  deriving DecidableEq, Repr

/-- A copy in flight: descriptor, chunks not yet written, sync word, tensor image, Carousel slot. -/
structure Copy where
  id : Nat
  ctx : Nat
  warp : Nat
  blk : Option Nat
  core : Nat
  kind : CopyKind
  batch : BitVec 32
  desc : List DWord := []
  cmd : List DWord := []
  route : Nat := 0
  /-- scratchpad offset or Carousel data offset, and memory address, as the route needs -/
  scr : Nat := 0
  src : DWord := 0
  dst : DWord := 0
  len : Nat := 0
  /-- total bytes with the zero fill of a Carousel slot (R430) -/
  total : Nat := 0
  sync : Option Nat := none
  image : List Byte := []
  org : List Int := []
  chunks : List Nat := []
  started : Bool := false
  slot : Option (Nat × Nat) := none
  target : Option Nat := none
  saved : Bool := false
  /-- chunks that wait on fault-buffer keys, and refusals after UNRESOLVABLE (R435) -/
  waits : List (Nat × Nat × Nat × Nat) := []
  refused : Bool := false
  lanesrc : DWord := 0
  /-- the issue that made it, shared by the lanes of a CPY16 -/
  issue : Nat := 0
  /-- window words read, and asked for; by chunk, window writes out (R497) -/
  got : List (Nat × Word) := []
  asked : List Nat := []
  wout : List (Nat × Nat) := []
  deriving DecidableEq, Repr

/-! ## Memory side -/

/-- L1 word states (R247); INVALID words are not listed. -/
inductive L1St where
  | valid | registered | pending
  deriving DecidableEq, Repr

/-- An L1 word (R247): owner as in R248, word address, data, dirty or held bytes, strand tag, context; the
connection for a word of the host agent (R494); whether it is of a window page (R267); whether a grant turns it
VALID or INVALID at once (R262, R287). -/
structure L1Word where
  owner : Nat
  wa : Nat
  st : L1St
  val : Word
  mask : BitVec 4 := 0
  tag : BitVec 16 := 0
  ctx : Nat := 0
  conn : Nat := 0
  thru : Bool := false
  keep : Bool := true
  /-- while a re-registration is out, the word and dirty mask before its store -/
  base : Option (Word × BitVec 4) := none
  /-- the virtual word address by which a VALID copy was read, for ACQR (R255) -/
  va : Nat := 0
  /-- the step in which a VALID copy was read (R193) -/
  stamp : Nat := 0
  deriving DecidableEq, Repr

/-- Slice word states (R247). -/
inductive SliceSt where
  | home | registered | transfer
  deriving DecidableEq, Repr

/-- A word that its home slice holds otherwise than clean and untagged (R247 to R262): state, data when HOME,
registrant, race tag and mask, dirty, registrant's context, forward mark, requests that wait, reads forwarded. -/
structure SliceWord where
  wa : Nat
  st : SliceSt := .home
  val : Word := 0
  owner : Nat := 0
  tag : BitVec 16 := 0
  mask : BitVec 4 := 0
  dirty : Bool := false
  ctx : Nat := 0
  fwd : Option Nat := none
  waiting : List Nat := []
  fbit : Bool := false
  /-- in TRANSFER, the registrant's answer once it has come -/
  ans : Option (Word × BitVec 4) := none
  deriving DecidableEq, Repr

/-- What a message between cores, slices and the host agent asks or answers (R250, R251, R258). -/
inductive NetKind where
  /-- read of words for operation `op` of a warp; or for a copy chunk or host read -/
  | read (ctx warp op : Nat) (words : List Nat) (core : Nat)
  /-- the same under a leaf with REPL = 1, by the core's own die; `page` is the base of the page (R292) -/
  | replica (ctx warp op : Nat) (words : List Nat) (core page : Nat)
  /-- registration of words with their bytes; thru: written back at once (STF, C = 0, copies) with a consumer -/
  | register (words : List (Nat × BitVec 4 × Word)) (tag : BitVec 16) (ctx : Nat) (thru : Bool)
      (fwd : Option Nat)
  | grant (words : List (Nat × Word × BitVec 4)) (fresh : Bool)
  | revoke (wa : Nat)
  | revokeAnswer (wa : Nat) (val : Word) (mask : BitVec 4)
  | forward (ctx warp op : Nat) (words : List Nat)
  | forwardAnswer (ctx warp op : Nat) (words : List (Nat × Word)) (lost : Bool)
  | writeBack (wa : Nat) (val : Word) (mask : BitVec 4) (tag : BitVec 16)
  /-- an atomic on lanes naming words: word, lane, operand, comparand, in lane order -/
  | atomic (ctx warp op : Nat) (aop : Nat) (wa : Nat) (lanes : List (Nat × Word × Word))
  | check (ctx warp : Nat) (lane : Nat) (va wa : Nat) (bytes : BitVec 4) (tag : BitVec 16)
  deriving DecidableEq, Repr

/-- A message in the network (R480). -/
structure Net where
  id : Nat
  owner : Nat
  kind : NetKind
  deriving DecidableEq, Repr

/-- An L1 TLB entry (R289) or an entry of a die's translation cache: place (core or die), context, base, log2 of the
size, leaf. -/
structure Tlb where
  place : Nat
  ctx : Nat
  base : Nat
  size : Nat
  leaf : BitVec 64
  deriving DecidableEq, Repr

/-- A walk in progress at a translation slice with its waiting cores (R290). -/
structure Walk where
  ctx : Nat
  page : Nat
  waiters : List Nat
  deriving DecidableEq, Repr

/-- A refused translation request (R290): core, context, page, refusals so far. -/
structure Refused where
  core : Nat
  ctx : Nat
  page : Nat
  k : Nat
  deriving DecidableEq, Repr

/-- Who waits on a fault-buffer entry (R297). -/
inductive Waiter where
  | warp (ctx num : Nat)
  | copy (id chunk : Nat)
  | msg (port conn seq : Nat)
  | cmd (ctx block cmd : Nat)
  deriving DecidableEq, Repr

/-- A fault-buffer entry (R297, R507). -/
structure FaultEnt where
  die : Nat
  slot : Nat
  ctx : Nat
  level : Nat
  gran : Nat
  kinds : BitVec 7
  waiters : List Waiter
  deriving DecidableEq, Repr

/-- A fault held for a full buffer (R299). -/
structure HeldFault where
  die : Nat
  ctx : Nat
  level : Nat
  gran : Nat
  kind : BitVec 7
  waiter : Waiter
  deriving DecidableEq, Repr

/-- Page states of R292; HOMED pages are not listed. -/
inductive PageSt where
  | replicated | collapsing
  deriving DecidableEq, Repr

/-- A page that is not HOMED (R292): context, base, log2 of the size, state, physical address. -/
structure Page where
  ctx : Nat
  base : Nat
  size : Nat
  st : PageSt
  pa : Nat
  deriving DecidableEq, Repr

/-- What a multicast packet is for (R293, R295, R448). -/
inductive CastKind where
  | invalidate (ctx base len : Nat) (all : Bool) (port conn tag : Nat)
  | collapse (ctx base size leafPa : Nat)
  /-- bytes of an identifier's entry from an offset on -/
  | tid (ctx warp id off : Nat) (bytes : List Byte)
  deriving DecidableEq, Repr

/-- A multicast with the dies it has not reached, those that have done their part, and those that have been counted
(R483, R484). -/
structure Cast where
  id : Nat
  kind : CastKind
  residual : List Nat
  reached : List Nat
  done : List Nat
  acked : List Nat
  /-- a collapse whose leaf is written waits for the translation slice (R293) -/
  cleared : Bool := false
  deriving DecidableEq, Repr

/-! ## Queues and graphs -/

/-- A completion record (R335), SEQ apart. -/
structure CRec where
  tag : DWord
  status : Nat
  energy : DWord
  time : DWord
  /-- the trigger queue it comes from -/
  src : Nat := 0
  /-- whether it ends an accepted launch, which is running work until it is written (R336) -/
  launch : Bool := false
  deriving DecidableEq, Repr

/-- A queue descriptor (R330): STATE 0 FREE, 1 ACTIVE, 2 ERROR, 3 DESTROYING. A FREE one keeps its other fields. -/
structure Queue where
  num : Nat
  base : BitVec 64 := 0
  cq : Nat := 0
  st : Nat := 0
  kind : Nat := 0
  ctx : Nat := 0
  log2 : Nat := 0
  rd : BitVec 32 := 0
  wr : BitVec 32 := 0
  /-- records waiting in the Ringmaster (R335) -/
  recs : List CRec := []
  /-- who is answered when a forced destruction is done -/
  answer : Option (Nat × Nat × Nat) := none
  deriving DecidableEq, Repr

/-- A graph node (R343). -/
structure Node where
  entry : BitVec 32
  bthreads : Nat
  cblocks : Nat
  ndies : Nat
  dclust : Nat
  record : Bool
  tiles : Nat
  floor : Nat
  fuse : Bool
  producer : Nat
  scratch : Nat
  roles : List Nat
  caps : List Nat
  pmode : BitVec 32
  stride : BitVec 32
  slots : List DWord
  deriving DecidableEq, Repr

/-- A graph edge (R343). -/
structure Edge where
  src : Nat
  dst : Nat
  record : Bool
  e : Nat
  log2cap : Nat
  thresh : Nat
  deriving DecidableEq, Repr

structure Graph where
  num : Nat
  ctx : Nat
  size : Nat
  nodes : List Node
  edges : List Edge
  deriving DecidableEq, Repr

/-- Node states (R346). -/
inductive NodeSt where
  | waiting | ready | running | open_ | done
  deriving DecidableEq, Repr

/-- A run of a graph (R346): its queue and tag, seed, parameters, node states, record queues by edge, batches
formed by node, launches formed. -/
structure Inst where
  id : Nat
  ctx : Nat
  graph : Nat
  queue : Nat
  tag : DWord
  seed : DWord
  acc : BitVec 32
  params : List (List DWord)
  started : Bool := false
  nodes : List NodeSt
  recq : List (Nat × List (List DWord)) := []
  /-- records emitted and not yet at the successor's Ringmaster (R337): id, edge, record -/
  flying : List (Nat × Nat × List DWord) := []
  formed : Nat := 0
  batches : List Nat := []
  energy : Nat := 0
  aborted : Bool := false
  deriving DecidableEq, Repr

/-- A launch (R346, R350): node, batch, key, sequence, physical die of each logical die, next block to grant, warps
and tasks not complete. -/
structure Launch where
  id : Nat
  ctx : Nat
  inst : Nat
  node : Nat
  seq : BitVec 64
  key : BitVec 64
  batch : List (List DWord) := []
  dies : List Nat := []
  next : Nat := 0
  liveBlocks : Nat := 0
  rootsOpen : Nat := 0
  energy : Nat := 0
  barred : Bool := false
  deriving DecidableEq, Repr

/-- A BBC counter cache entry (R523): core, context, counter, pending count; the most recently used first. -/
structure Bbc where
  core : Nat
  ctx : Nat
  k : Nat
  n : Nat
  deriving DecidableEq, Repr

/-! ## Contexts -/

/-- A record ring (R519). -/
structure Ring where
  base : DWord
  k : Nat
  period : Nat := 0
  wr : DWord := 0
  deriving DecidableEq, Repr

/-- Who is answered with a COMPLETION: port, connection, tag (R491). -/
structure Answer where
  port : Nat
  conn : Nat
  tag : BitVec 32
  deriving DecidableEq, Repr

/-- A pre-emption in progress (R324): by slice or by the owner, and who is answered. -/
structure Preempt where
  slice : Bool
  answers : List Answer
  deriving DecidableEq, Repr

/-- A context (R306 to R311). (assumption 8, DESIGN CHOICE) -/
structure Ctx where
  st : CtxSt := .empty
  codebase : DWord := 0
  trapvec : DWord := 0
  trapctl : DWord := 0
  framebase : DWord := 0
  savebase : DWord := 0
  ptroot : DWord := 0
  ctxcfg : DWord := 0
  ctxlim : DWord := 0
  regback : DWord := 0
  arena : DWord := 0
  hostwin : DWord := 0
  rndmode : BitVec 3 := 0
  pol : Bool := false
  staletrap : Bool := false
  spills : BitVec 32 := 0
  luskip : BitVec 32 := 0
  raceEn : Bool := false
  lostTags : BitVec 32 := 0
  faultrec : List Byte := []
  dbgctl : BitVec 32 := 0
  bp : List (BitVec 32) := []
  wpbase : List DWord := []
  wpctl : List (BitVec 32) := []
  bbcctl : DWord := 0
  safept : Option (DWord × Nat) := none
  haltSet : List Nat := []
  /-- dies halted at die granularity (R377, R513) -/
  haltDies : List Nat := []
  /-- commands whose warps have still to reach the end of a chain before they halt (R513) -/
  halting : List Answer := []
  /-- by core, the warp marked last for a sample (R518) -/
  marks : List (Nat × Nat) := []
  sampleRing : Option Ring := none
  stampRing : Option Ring := none
  tids : List (Nat × List Byte) := []
  fabwin : List (Nat × List Byte) := []
  acc : BitVec 32 := 0
  preempt : Option Preempt := none
  teardown : List Answer := []
  resume : List Answer := []
  strands : List Strand := []
  /-- root records, by root task (R368) -/
  roots : List (Nat × Strand) := []
  deriving DecidableEq, Repr

/-! ## The package -/

/-- An island (R30 to R34): STATE, POINT, REQSTATE, REQPOINT, BUSY, RESULT, energy in nJ, corrected errors. -/
structure Island where
  st : Nat := 0
  point : Nat := 3
  reqSt : Nat := 0
  reqPoint : Nat := 3
  busy : Bool := false
  busyGo : Bool := false
  /-- where the transition in progress leads -/
  toSt : Nat := 0
  toPoint : Nat := 3
  result : Nat := 0
  energy : Nat := 0
  soft : Nat := 0
  deriving DecidableEq, Repr

/-- A firmware image in a slot (R26). -/
structure Image where
  version : Nat := 0
  secver : Nat := 0
  body : List Byte := []
  deriving DecidableEq, Repr

/-- A firmware component (R26 to R28): the active slot, both images, the fused minimum. (assumption 6, DESIGN CHOICE) -/
structure Firmware where
  activeB : Bool := false
  slotA : Image := {}
  slotB : Image := {}
  minver : Nat := 0
  deriving DecidableEq, Repr

/-- An import range (R498). -/
structure Import where
  base : DWord := 0
  len : DWord := 0
  r : Bool := false
  w : Bool := false
  deriving DecidableEq, Repr

/-- Port states (R486, R487). -/
inductive PortSt where
  | disabled | training | up | down
  deriving DecidableEq, Repr

structure Port where
  en : Bool := false
  maxl : Nat := 0
  st : PortSt := .disabled
  good : BitVec 8 := 0
  lanes : Nat := 0
  degrade : BitVec 16 := 0
  deriving DecidableEq, Repr

/-- A message the package sends (R488): TYPE, SEQ, ACK, ADDR, OP, TAG, payload; retransmissions so far. -/
structure OutMsg where
  ty : Nat
  seq : BitVec 32
  addr : DWord := 0
  op : BitVec 8 := 0
  tag : BitVec 32 := 0
  payload : List Byte := []
  len : Nat := 0
  retries : Nat := 0
  deriving DecidableEq, Repr

/-- What a request of the package itself is for, when its COMPLETION arrives (R344, R497). -/
inductive DevReq where
  | event
  | graph (num off : Nat)
  | window (ctx warp op wa : Nat)
  | store (ctx warp msg : Nat)
  | atom (ctx warp op lane wa : Nat)
  /-- a window access of a copy's chunk or of a matrix command: the word's virtual address, and whether a WRITE -/
  | engine (who : Waiter) (va : Nat) (wr : Bool)
  deriving DecidableEq, Repr

/-- A LOAD_GRAPH that gathers its descriptor (R500). -/
structure GraphLoad where
  num : Nat
  ctx : Nat
  addr : DWord
  len : Nat
  bytes : List Byte
  ans : Answer
  deriving DecidableEq, Repr

/-- A connection (R489 to R492). -/
structure Conn where
  port : Nat
  num : BitVec 32
  peer : Nat
  owner : Bool := false
  src : Nat := 0
  dst : Nat := 0
  rx : BitVec 32 := 0
  tx : BitVec 32 := 0
  unacked : List OutMsg := []
  /-- the claim nonce, 32 bytes (R19) -/
  nonce : List Byte := []
  nonceOk : Bool := true
  /-- chunks gathered for FW_STAGE and for WRITE_WARP: target and bytes -/
  fw : Option (Nat × List Byte) := none
  ww : Option (Nat × Nat × List Byte) := none
  /-- requests out: tag and purpose -/
  reqs : List (BitVec 32 × DevReq) := []
  loads : List GraphLoad := []
  /-- accepted messages that wait, by TYPE, oldest first, with the fault-buffer keys of the first (R493, R495) -/
  queue : List (Nat × Msg) := []
  waits : List (Nat × Nat × Nat) := []
  bad : List (Nat × Nat) := []
  /-- messages of the queue accepted while it was an owner connection of an owner since replaced (R17) -/
  late : Nat := 0
  /-- that owner's key (R17) -/
  lateKey : Option (List Byte) := none
  /-- it has failed, and finishes the messages it has accepted (R492) -/
  failed : Bool := false
  deriving DecidableEq, Repr

/-- A datagram that consumes no sequence number (R490, R504): an answer on CONN 0, or a bare ACK or NAK. -/
structure Sent where
  port : Nat
  peer : Nat
  conn : BitVec 32
  ack : BitVec 32
  msg : OutMsg
  deriving DecidableEq, Repr

/-- A message an event sends to every owner connection (R505). -/
structure DevMsg where
  op : BitVec 8
  payload : List Byte
  deriving DecidableEq, Repr

/-- A host WRITE whose registrations are out (R494): who is answered, and the registrations. -/
structure HostOp where
  ans : Answer
  msgs : List Nat
  deriving DecidableEq, Repr

/-- A step of the agenda (assumption 2): an event or operation of another agent, or an issue from a slot of issue. -/
inductive Act where
  | ev (i : Instr)
  | issue (slot : Nat)
  deriving DecidableEq, Repr

/-- The issue in progress, set by the step for the instruction it issues (the model's own): the context, the warp,
the split. -/
structure Issue where
  ctx : Nat
  warp : Nat
  split : LaneMask
  /-- for the second split of a pair, the registers before the primary wrote (R118) -/
  pre : Option Regs := none
  deriving DecidableEq, Repr

/-- The machine. (assumption 2, DESIGN CHOICE; assumption 3, DESIGN CHOICE) -/
structure State where
  dev : DevState := .reset
  ownerKey : Option (List Byte) := none
  successor : Option (List Byte) := none
  allow : List (List Byte) := []
  /-- the device serial number, 16 bytes of provisioning data (R19, R502) -/
  serial : List Byte := List.replicate 16 0
  featAccept : BitVec 256 := 0
  featWritten : Bool := false
  islands : List Island := []
  firmware : List Firmware := []
  /-- spares in use by die, fenced cores, cores on their way to a spare, retired frames, retired L2 ways and spared HBM rows
  (R36 to R39) -/
  spares : List Nat := []
  fenced : List Nat := []
  sparing : List Nat := []
  retired : List Nat := []
  ways : List (Nat × Nat) := []
  rows : List (Nat × Nat × Nat) := []
  powerCap : BitVec 32 := 0
  pkgNum : BitVec 16 := 0
  powerIn : DWord := 0
  dieTemp : List (BitVec 16) := []
  errLog : List (List Byte) := []
  errLogWr : DWord := 0
  evDrop : DWord := 0
  imports : List Import := []
  ports : List Port := []
  conns : List Conn := []
  outbox : List DevMsg := []
  /-- the datagrams outside the sequence that the last message or timeout of a host drew (R490, R504) -/
  sent : List Sent := []
  tb : DWord := 0
  ctxs : List Ctx := []
  warps : List Warp := []
  blocks : List Block := []
  tasks : List Task := []
  views : List View := []
  deques : List (Nat × List Nat) := []
  /-- last-warp records by issue slot: core × 4 + slot, context, warp (R240) -/
  lastWarp : List (Nat × Nat × Nat) := []
  /-- the cycle in which each issue slot last issued, by its own count (R233; the model's own) -/
  clocks : List (Nat × Nat) := []
  copies : List Copy := []
  bbcs : List Bbc := []
  /-- fused clusters: die × 32 + cluster, launch (R257) -/
  fused : List (Nat × Nat) := []
  l1 : List L1Word := []
  epochs : List (Nat × Nat) := []
  slices : List SliceWord := []
  /-- home dies of the pages that walks have found: first byte of the frame, log2 of the size, die (R246) -/
  homes : List (Nat × Nat × Nat) := []
  /-- lines of the slices, the least recently used first; forward-tagged lines, the oldest first (R260, R262) -/
  lru : List Nat := []
  fwdLines : List Nat := []
  net : List Net := []
  mem : List Host.Cell := []
  tlb : List Tlb := []
  tcache : List Tlb := []
  walks : List Walk := []
  refused : List Refused := []
  faults : List FaultEnt := []
  heldFaults : List HeldFault := []
  pages : List Page := []
  casts : List Cast := []
  /-- Piste links: die, source and destination cluster, replays of the beat in flight, fenced (R482) -/
  piste : List (Nat × Nat × Nat × Nat × Bool) := []
  queues : List Queue := []
  graphs : List Graph := []
  insts : List Inst := []
  launches : List Launch := []
  hostOps : List HostOp := []
  /-- steps to come, in order (assumption 2) -/
  agenda : List Act := []
  issue : Option Issue := none
  /-- whether the step looks at events before issues (the model's own) -/
  turn : Bool := false
  /-- steps taken, and the slot of issue served last (the model's own) -/
  tick : Nat := 0
  slotNow : Nat := 0
  /-- draws of free values, and fresh identifiers (the model's own) -/
  free : Nat := 0
  fresh : Nat := 0
  deriving DecidableEq, Repr

/-! ## Stopping -/

/-- Why a step stops with a fault. -/
inductive Fault where
  /-- exec of an instruction of the stream in a state with no issue in progress; raised by the issue harness;
  safe: no warp issues there -/
  | noIssuer
  deriving DecidableEq, Repr

/-- Why a step is refused. -/
inductive Refusal where
  /-- an instruction of the opcode table whose meaning is not written; raised by its arm in exec; safe -/
  | notModelled (mnemonic : String)
  deriving DecidableEq, Repr

/-! ## Reset -/

/-- The ports on leaving reset: port 0 is enabled, ports 1 to 8 are not (R487). -/
def Port.reset (n : Nat) : Port := { en := n == 0 }

/-- The machine right after reset: the package in RESET with its islands held, every context EMPTY, every port
disabled, no connection (R16, R32, R487, R502; 00_scope.md). (assumption 4, DESIGN CHOICE; assumption 7, DESIGN CHOICE) -/
def State.reset : State :=
  { islands := List.replicate 40 {}
    firmware := List.replicate 4 {}
    spares := List.replicate 8 0
    dieTemp := List.replicate 13 0
    errLog := []
    imports := List.replicate 64 {}
    ports := Port.reset 0 :: List.replicate 8 {}
    ctxs := List.replicate 64 {} }

end Sys2Proof.Machine
end

