-- ==== Sys2Proof/Machine/Mem.lean ====
section
/-! DEFINITION. Bytes and words: the canonical byte memory, byte masks, and the state of a memory word between
HBM, its home slice, the L1s and the network, with the coherent accesses that engines make
(12_word.md R246 to R254, 01_device.md R14). -/

namespace Sys2Proof.Machine

/-! ## Canonical byte memory -/

/-- The byte at an address; an address not listed reads zero (assumption 1). (assumption 1, DESIGN CHOICE) -/
def memGet : List Host.Cell → Nat → Byte
  | [], _ => 0
  | (b, x) :: r, a => if a = b then x else if a < b then 0 else memGet r a

/-- Writes one byte, keeping the addresses rising and listing no zero. -/
def memSet : List Host.Cell → Nat → Byte → List Host.Cell
  | [], a, x => if x = 0 then [] else [(a, x)]
  | (b, y) :: r, a, x =>
    if a < b then (if x = 0 then (b, y) :: r else (a, x) :: (b, y) :: r)
    else if a = b then (if x = 0 then r else (a, x) :: r)
    else (b, y) :: memSet r a x

/-- Whether every listed address is above a bound and no listed byte is zero. -/
def memAbove : Nat → List Host.Cell → Bool
  | _, [] => true
  | n, (b, x) :: r => decide (n ≤ b) && decide (x ≠ 0) && memAbove (b + 1) r

/-- The canonical form: addresses strictly rising, no byte zero. -/
def Memory.wf (m : List Host.Cell) : Bool := memAbove 0 m

/-- The n bytes from an address on. -/
def memRead (m : List Host.Cell) (a : Nat) : Nat → List Byte
  | 0 => []
  | n + 1 => memGet m a :: memRead m (a + 1) n

/-- Writes bytes from an address on. -/
def memWrite (m : List Host.Cell) (a : Nat) : List Byte → List Host.Cell
  | [] => m
  | b :: bs => memWrite (memSet m a b) (a + 1) bs

/-- A number from bytes, lowest first (R4). -/
def leNat : List Byte → Nat
  | [] => 0
  | b :: bs => b.toNat + 256 * leNat bs

/-- The n bytes of a number, lowest first (R4). -/
def natLe : Nat → Nat → List Byte
  | 0, _ => []
  | k + 1, n => .ofNat 8 n :: natLe k (n / 256)

/-- The word at a word address. -/
def memWord (m : List Host.Cell) (wa : Nat) : Word := .ofNat 32 (leNat (memRead m (4 * wa) 4))

/-- Writes a word at a word address. -/
def memSetWord (m : List Host.Cell) (wa : Nat) (w : Word) : List Host.Cell :=
  memWrite m (4 * wa) (natLe 4 w.toNat)

/-! ## Bytes within a word -/

/-- A word with ones in the bytes of a mask. -/
def byteOnes (m : BitVec 4) : Word :=
  (if m.getLsbD 0 then 0xFF#32 else 0) ||| (if m.getLsbD 1 then 0xFF00#32 else 0) |||
  (if m.getLsbD 2 then 0xFF0000#32 else 0) ||| (if m.getLsbD 3 then 0xFF000000#32 else 0)

/-- `new` in the bytes of the mask, `old` elsewhere (R252). -/
def overlay (old new : Word) (m : BitVec 4) : Word := (new &&& byteOnes m) ||| (old &&& ~~~ byteOnes m)

/-- The mask of n bytes from byte off of a word. -/
def byteMask (off n : Nat) : BitVec 4 := .ofNat 4 ((2 ^ n - 1) * 2 ^ off)

/-- Byte i of a word. -/
def wordByte (w : Word) (i : Nat) : Byte := .ofNat 8 (w.toNat / 256 ^ i)

/-- The bit of a lane in a mask. -/
def laneBit (m : LaneMask) (l : Nat) : Bool := m.getLsbD l

/-- The mask of one lane. -/
def laneOne (l : Nat) : LaneMask := 1#32 <<< l

/-- The lanes of a mask in ascending order. -/
def lanesOf (m : LaneMask) : List Nat := laneIdx.filter (laneBit m)

/-- Replaces element n of a list; a list that is too short is filled up with a default. (assumption 112, DEDUCED) -/
def setAt {α : Type} (d : α) : List α → Nat → α → List α
  | [], 0, y => [y]
  | _ :: xs, 0, y => y :: xs
  | [], n + 1, y => d :: setAt d [] n y
  | x :: xs, n + 1, y => x :: setAt d xs n y

/-- Element n of a list, or a default. -/
def getAt {α : Type} (d : α) : List α → Nat → α
  | [], _ => d
  | x :: _, 0 => x
  | _ :: xs, n + 1 => getAt d xs n

/-- Adds or replaces the value of a key. -/
def putKey {β : Type} (k : Nat) (x : β) : List (Nat × β) → List (Nat × β)
  | [] => [(k, x)]
  | (j, y) :: r => if j = k then (k, x) :: r else (j, y) :: putKey k x r

/-- The value of a key. -/
def getKey {β : Type} (k : Nat) : List (Nat × β) → Option β
  | [] => none
  | (j, y) :: r => if j = k then some y else getKey k r

/-! ## Words in L1s and slices -/

/-- The L1 entry of an owner for a word (R247). -/
def l1Find (ls : List L1Word) (owner wa : Nat) : Option L1Word :=
  ls.find? (fun e => e.owner == owner && e.wa == wa)

/-- Removes the L1 entry of an owner for a word: the word is INVALID (R250). -/
def l1Drop (ls : List L1Word) (owner wa : Nat) : List L1Word :=
  ls.filter (fun e => !(e.owner == owner && e.wa == wa))

/-- Sets an L1 entry. -/
def l1Put (ls : List L1Word) (e : L1Word) : List L1Word := e :: l1Drop ls e.owner e.wa

/-- The slice's entry for a word (R247). A word with no entry is HOME, clean and untagged, its value HBM's. -/
def sliceFind (ss : List SliceWord) (wa : Nat) : Option SliceWord := ss.find? (fun e => e.wa == wa)

/-- Whether an entry says nothing beyond HBM. -/
def sliceTrivial (hbm : Word) (e : SliceWord) : Bool :=
  e.st == .home && e.val == hbm && e.tag == 0 && e.mask == 0 && e.fwd.isNone && e.waiting.isEmpty &&
  !e.dirty && !e.fbit && e.ans.isNone

/-- The slice's entry, or that of a clean word. -/
def sliceGet (s : State) (wa : Nat) : SliceWord :=
  match sliceFind s.slices wa with
  | some e => e
  | none => { wa := wa, val := memWord s.mem wa }

/-- The entries of a slice without that of a word. -/
def sliceDrop : List SliceWord → Nat → List SliceWord
  | [], _ => []
  | e :: r, wa => if e.wa = wa then r else e :: sliceDrop r wa

/-- Sets a slice entry; one that says nothing is not listed. -/
def slicePut (s : State) (e : SliceWord) : State :=
  let rest := if (sliceFind s.slices e.wa).isSome then sliceDrop s.slices e.wa else s.slices
  { s with slices := if sliceTrivial (memWord s.mem e.wa) e then rest else e :: rest }

/-- Sends a message (R480). -/
def netSend (s : State) (owner : Nat) (k : NetKind) : State :=
  { s with net := s.net ++ [⟨s.fresh, owner, k⟩], fresh := s.fresh + 1 }

/-- The message of an identifier. -/
def netFind (s : State) (id : Nat) : Option Net := s.net.find? (fun m => m.id == id)

/-- Takes a message out of the network. -/
def netDrop (s : State) (id : Nat) : State := { s with net := s.net.filter (fun m => !(m.id == id)) }

/-- The grant in flight to an owner for a word: the word it carries, if fresh. -/
def grantFor (s : State) (owner wa : Nat) : Option (Word × Bool) :=
  s.net.findSome? (fun m =>
    match m.kind with
    | .grant ws fresh =>
      if m.owner == owner then (ws.find? (fun w => w.1 == wa)).map (fun w => (w.2.1, fresh)) else none
    | _ => none)

/-- The word of a registrant whose answer or write-back is in flight. -/
def answerFor (s : State) (owner wa : Nat) : Option (Word × BitVec 4) :=
  s.net.findSome? (fun m =>
    match m.kind with
    | .revokeAnswer w v k => if m.owner == owner && w == wa then some (v, k) else none
    | .writeBack w v k _ => if m.owner == owner && w == wa then some (v, k) else none
    | _ => none)

/-- The registrant's word with its dirty bytes, wherever it is: on its way back, in its L1, or under a grant in flight;
HBM's value if the registrant lost it (R254). -/
def registrantWord (s : State) (owner wa : Nat) : Word × BitVec 4 :=
  match answerFor s owner wa with
  | some a => a
  | none =>
    match l1Find s.l1 owner wa with
    | some e =>
      match e.st with
      | .pending =>
        match grantFor s owner wa, e.base with
        | some (w, true), _ => (overlay w e.val e.mask, e.mask)
        | some (_, false), some (b, k) => (overlay b e.val e.mask, k ||| e.mask)
        | none, some b => b
        | _, none => (memWord s.mem wa, 0)
      | _ => (e.val, e.mask)
    | none => (memWord s.mem wa, 0)

/-- The word of a slice entry that is not HOME: the registrant's answer, or its word (R252). -/
def heldWord (s : State) (e : SliceWord) : Word :=
  match e.ans with
  | some (v, _) => v
  | none => (registrantWord s e.owner e.wa).1

/-- The current value of a word: its coherence order's latest (R272). -/
def cohWord (s : State) (wa : Nat) : Word :=
  let e := sliceGet s wa
  match e.st with
  | .home => e.val
  | _ => heldWord s e

/-- Whether a message moves a registration of a word between its slice and its registrant. -/
def movesWord (owner wa : Nat) (m : Net) : Bool :=
  match m.kind with
  | .grant ws _ => m.owner == owner && ws.any (fun w => w.1 == wa)
  | .revoke w => m.owner == owner && w == wa
  | .revokeAnswer w _ _ => m.owner == owner && w == wa
  | .writeBack w _ _ _ => m.owner == owner && w == wa
  | _ => false

/-- A grant in flight loses one word. -/
def trimGrant (owner wa : Nat) (m : Net) : Net :=
  match m.kind with
  | .grant ws fresh =>
    if m.owner == owner then { m with kind := .grant (ws.filter (fun w => !(w.1 == wa))) fresh } else m
  | _ => m

/-- Whether a message is left with nothing to move. -/
def emptyGrant (m : Net) : Bool :=
  match m.kind with
  | .grant ws _ => ws.isEmpty
  | _ => false

/-- What a word's registrant keeps in its L1 when the word is taken back: a store that still waits for its own grant
(R250). -/
def l1Yield (s : State) (owner wa : Nat) : List L1Word :=
  match l1Find s.l1 owner wa with
  | some e =>
    if e.st = .pending ∧ (grantFor s owner wa).isNone = true then l1Put s.l1 { e with base := none }
    else l1Drop s.l1 owner wa
  | none => s.l1

/-- The reads forwarded to a registrant that gives a word up are answered with the word that it gives (R253). -/
def answerForwards (s : State) (owner wa : Nat) (v : Word) : State :=
  let due (m : Net) : Bool := match m.kind with | .forward _ _ _ ws => m.owner == owner && ws.contains wa | _ => false
  if s.net.any due then
    { s with net := s.net.map (fun m =>
        match m.kind with
        | .forward c n op [k] => if m.owner = owner ∧ k = wa then { m with kind := .forwardAnswer c n op [(wa, v)] false } else m
        | _ => m) }
  else s

/-- What still waits for a word that its registrant gives up is answered with it: forwarded reads, and loads of the core itself that
wait for a grant in flight (R250, R253). -/
def answerGiven (s : State) (owner wa : Nat) (v : Word) : State :=
  let ops := if (grantFor s owner wa).isSome then s.warps.flatMap (fun w =>
      (w.pend.filter (fun p => p.owner == owner && p.held.contains wa)).map (fun p => (w.ctx, w.num, p.id))) else []
  ops.foldl (fun s o => netSend s owner (.forwardAnswer o.1 o.2.1 o.2.2 [(wa, v)] false)) (answerForwards s owner wa v)

/-- An L1 gives a REGISTERED word up by itself: INVALID, and the write-back (R250). -/
def giveUp (s : State) (x : L1Word) : State :=
  netSend { answerForwards s x.owner x.wa x.val with l1 := l1Drop s.l1 x.owner x.wa } x.owner (.writeBack x.wa x.val x.mask x.tag)

/-- Takes a word back to HOME at its slice at once, with the registrant's data, as an engine's access does
(R251, R252, R428): the registrant's L1 word becomes INVALID, its race tag and mask the shadow's. -/
def flushWord (s : State) (wa : Nat) : State :=
  let e := sliceGet s wa
  match e.st with
  | .home => s
  | _ =>
    let v := heldWord s e
    let s := if e.ans.isSome then s else answerGiven s e.owner wa v
    let l1 := l1Yield s e.owner wa
    let net := ((s.net.filter (fun m => !(movesWord e.owner wa m) || (match m.kind with | .grant _ _ => true | _ => false))).map
      (trimGrant e.owner wa)).filter (fun m => !emptyGrant m)
    slicePut { s with net := net, l1 := l1 }
      { e with st := .home, val := v, dirty := true, owner := 0, fbit := false, ans := none, waiting := [] }

/-- The words of a line lose their forward tags (R262). -/
def unForward (ss : List SliceWord) (ln : Nat) : List SliceWord :=
  if ss.any (fun y => y.fwd.isSome && y.wa / 16 == ln) then ss.map (fun y => if y.wa / 16 = ln then { y with fwd := none } else y) else ss

/-- Stores bytes of a word at its home slice as a registration that is granted and written back at once, untagged
(R428, R258): the word ends in HOME. -/
def cohStore (s : State) (wa : Nat) (m : BitVec 4) (v : Word) : State :=
  match sliceFind s.slices wa with
  | none =>
    { s with slices := { wa := wa, val := overlay (memWord s.mem wa) v m, dirty := true, mask := m } ::
        unForward s.slices (wa / 16) }
  | some _ =>
    let s := flushWord s wa
    let e := sliceGet s wa
    let s := { s with slices := unForward s.slices (wa / 16) }
    slicePut s { e with val := overlay e.val v m, dirty := true, fwd := none, tag := 0,
                        mask := if e.tag = 0 then e.mask ||| m else m }

/-- Writes a word at its home slice as an atomic of a host does, the race tag and mask unchanged (R251, R496). -/
def cohAtomic (s : State) (wa : Nat) (v : Word) : State :=
  let s := flushWord s wa
  slicePut s { sliceGet s wa with val := v, dirty := true }

/-- The byte at a physical address as the coherence order has it. -/
def cohByte (s : State) (pa : Nat) : Byte := wordByte (cohWord s (pa / 4)) (pa % 4)

/-- The n bytes from a physical address on. -/
def cohBytes (s : State) (pa : Nat) : Nat → List Byte
  | 0 => []
  | n + 1 => cohByte s pa :: cohBytes s (pa + 1) n

/-- Stores one byte coherently. -/
def cohPutByte (s : State) (pa : Nat) (b : Byte) : State :=
  cohStore s (pa / 4) (byteMask (pa % 4) 1) (.ofNat 32 (b.toNat * 256 ^ (pa % 4)))

/-- Stores bytes coherently from a physical address on. -/
def cohPutBytes (s : State) (pa : Nat) : List Byte → State
  | [] => s
  | b :: bs => cohPutBytes (cohPutByte s pa b) (pa + 1) bs

/-- Writes a HOME word that is dirty in its slice to HBM (R249). -/
def sliceClean (s : State) (wa : Nat) : State :=
  match sliceFind s.slices wa with
  | some e =>
    if e.st == .home then slicePut { s with mem := memSetWord s.mem wa e.val } { e with dirty := false } else s
  | none => s

/-- Whether a physical address is memory: sockets 8 to 11, below the populated size (R14, R15). -/
def isMemory (pa : Nat) : Bool :=
  let sock := pa / 2 ^ 48
  8 ≤ sock && sock ≤ 11 && pa % 2 ^ 48 < Config.hbmBytes

end Sys2Proof.Machine
end

