-- ==== Sys2Proof/Machine/Flags.lean ====
section
/-! DEFINITION. Number formats, rounding, conversion and the arithmetic flags: every place where FLAGS or a tile's
sticky flags get a value rests on these (02_formats.md R43 to R71, 07_float.md R174 to R182), and the draw function
whose bits SRK rounding uses (19_task.md R381). -/

namespace Sys2Proof.Machine

/-! ## FLAGS bits (R58) -/

def fNV : BitVec 32 := 1#32
def fDZ : BitVec 32 := 2#32
def fOF : BitVec 32 := 4#32
def fUF : BitVec 32 := 8#32
def fNX : BitVec 32 := 16#32
def fSAT : BitVec 32 := 32#32

/-! ## Draws -/

/-- DRAW(sk, c, l) (R381). -/
def drawBits (sk : BitVec 64) (c : Word) (l : Nat) : Word :=
  let x := sk.setWidth 32 ^^^ ((c * 32#32 + .ofNat 32 l) * 0x9E3779B9#32) ^^^ (c >>> 27)
  let x := (x ^^^ (x >>> 16)) * 0x6C8E9CF5#32
  let x := (x ^^^ (x >>> 13)) * 0xB5297A4D#32
  (x ^^^ (x >>> 16)) ^^^ (sk >>> 32).setWidth 32

/-! ## Formats and values -/

/-- A floating-point format (R43): exponent bits, mantissa bits, bias, code of the largest finite value, of +infinity
(none in E4M3) and of the canonical NaN. -/
structure FFmt where
  eb : Nat
  mb : Nat
  bias : Int
  max : Nat
  inf : Option Nat
  nan : Nat
  deriving DecidableEq, Repr

def fp32 : FFmt := ⟨8, 23, 127, 0x7F7FFFFF, some 0x7F800000, 0x7FC00000⟩
def bf16 : FFmt := ⟨8, 7, 127, 0x7F7F, some 0x7F80, 0x7FC0⟩
def f16 : FFmt := ⟨5, 10, 15, 0x7BFF, some 0x7C00, 0x7E00⟩
def e4m3 : FFmt := ⟨4, 3, 7, 0x7E, none, 0x7F⟩
def e5m2 : FFmt := ⟨5, 2, 15, 0x7B, some 0x7C, 0x7E⟩

/-- A value: NaN, an infinity, or (−1)^neg × m × 2^e (R43). -/
inductive FVal where
  | nan
  | inf (neg : Bool)
  | fin (neg : Bool) (m : Nat) (e : Int)
  deriving DecidableEq, Repr

/-- Exponent of the unit of a format's subnormals. -/
def FFmt.qmin (f : FFmt) : Int := 1 - f.bias - f.mb

/-- The value of a code (R43, R44). -/
def fval (f : FFmt) (code : Nat) : FVal :=
  let neg := code / 2 ^ (f.eb + f.mb) % 2 == 1
  let mag := code % 2 ^ (f.eb + f.mb)
  if f.max < mag then
    (match f.inf with
     | some i => if mag = i then .inf neg else .nan
     | none => .nan)
  else
    let e := mag / 2 ^ f.mb
    let m := mag % 2 ^ f.mb
    if e = 0 then .fin neg m f.qmin else .fin neg (2 ^ f.mb + m) (f.qmin + (e - 1))

/-- The value of an FP32 word. -/
def fv (w : Word) : FVal := fval fp32 w.toNat

/-- The sign bit of a code. -/
def fsign (f : FFmt) (neg : Bool) : Nat := if neg then 2 ^ (f.eb + f.mb) else 0

/-- The code of an infinity; E4M3 has none and gives its NaN 0x7F (R60). -/
def finf (f : FFmt) (neg : Bool) : Nat :=
  match f.inf with
  | some i => fsign f neg + i
  | none => f.nan

def isNan : FVal → Bool
  | .nan => true
  | _ => false

/-! ## Rounding (R49 to R51, R54) -/

/-- How a rounding goes: a mode code of R49, and for SRK the drawn bits. -/
structure Rnd where
  mode : Nat := 0
  rb : Nat := 0
  deriving DecidableEq, Repr

/-- A magnitude m × 2^e in units of 2^q, rounded: the number of units and whether it was inexact (R49, R51). -/
def roundUnits (r : Rnd) (neg : Bool) (m : Nat) (e q : Int) : Nat × Bool :=
  if q ≤ e then (m * 2 ^ (e - q).toNat, false)
  else
    let d := 2 ^ (q - e).toNat
    let n := m / d
    let rem := m % d
    let up : Bool :=
      match r.mode with
      | 0 => decide (d < 2 * rem) || (decide (2 * rem = d) && decide (n % 2 = 1))
      | 1 => false
      | 2 => neg && decide (rem ≠ 0)
      | 3 => !neg && decide (rem ≠ 0)
      | 4 => decide (d ≤ 2 * rem)
      | _ => decide (r.rb < rem * 2 ^ 32 / d)
    (if up then n + 1 else n, decide (rem ≠ 0))

/-- A rounding's outcome: code, inexact, overflow, tiny (R54, R58). -/
structure Rounded where
  code : Nat
  nx : Bool
  ovf : Bool
  tiny : Bool
  deriving DecidableEq, Repr

/-- Whether a mode delivers the largest finite value on an overflow of a sign (R60, R175). -/
def towardZero (mode : Nat) (neg : Bool) : Bool :=
  match mode with
  | 1 => true
  | 2 => !neg
  | 3 => neg
  | _ => false

/-- Whether a magnitude n × 2^q is above max × 2^qmax. -/
def aboveMag (n : Nat) (q : Int) (mx : Nat) (qm : Int) : Bool :=
  if qm ≤ q then decide (mx < n * 2 ^ (q - qm).toNat) else decide (mx * 2 ^ (qm - q).toNat < n)

/-- ROUND of a nonzero exact value to a format (R49, R51, R54, R60, R175). In RNE a value at the largest finite value
plus half an ulp or above overflows (R60). (assumption 25, DEDUCED) -/
def roundTo (f : FFmt) (r : Rnd) (neg : Bool) (m : Nat) (e : Int) : Rounded :=
  let p : Int := f.mb
  let top : Int := (Nat.log2 m : Int) + e
  let q := max (top - p) f.qmin
  let (n, nx) := roundUnits r neg m e q
  let mx := 2 ^ f.mb + f.max % 2 ^ f.mb
  let qm := f.qmin + ((f.max / 2 ^ f.mb : Nat) : Int) - 1
  let excess := if r.mode = 0 then !(aboveMag (2 * mx + 1) (qm - 1) m e) else aboveMag n q mx qm
  if excess then
    ⟨if towardZero r.mode neg then fsign f neg + f.max else finf f neg, true, true, false⟩
  else
    let tiny :=
      if r.mode = 5 then decide (n < 2 ^ f.mb)
      else
        let (n', _) := roundUnits r neg m e (top - p)
        aboveMag (2 ^ f.mb) f.qmin n' (top - p)
    ⟨fsign f neg + n + (q - f.qmin).toNat * 2 ^ f.mb, nx, false, tiny⟩

/-- The flags of a rounding (R58). -/
def Rounded.flags (x : Rounded) : BitVec 32 :=
  (if x.ovf then fOF else 0) ||| (if x.tiny && x.nx then fUF else 0) ||| (if x.nx then fNX else 0)

/-- An FP32 result and the flags it sets. -/
abbrev FRes := Word × BitVec 32

/-- The canonical NaN of FP32 (R55). -/
def qnan : Word := 0x7FC00000#32

/-- Rounds a value to FP32; a zero keeps its sign. -/
def round32 (r : Rnd) : FVal → FRes
  | .nan => (qnan, 0)
  | .inf neg => (.ofNat 32 (finf fp32 neg), 0)
  | .fin neg m e =>
    if m = 0 then (.ofNat 32 (fsign fp32 neg), 0)
    else
      let x := roundTo fp32 r neg m e
      (.ofNat 32 x.code, x.flags)

/-! ## FP32 arithmetic (R54 to R57, R176) -/

/-- The exact product; none where it is ±∞ × ±0 (R55, R56). -/
def mulVal : FVal → FVal → Option FVal
  | .nan, _ => some .nan
  | _, .nan => some .nan
  | .inf a, .inf b => some (.inf (a != b))
  | .inf a, .fin b m _ => if m = 0 then none else some (.inf (a != b))
  | .fin a m _, .inf b => if m = 0 then none else some (.inf (a != b))
  | .fin a m e, .fin b n g => some (.fin (a != b) (m * n) (e + g))

/-- A signed magnitude as an integer of units 2^q, q at or below e. -/
def toUnits (neg : Bool) (m : Nat) (e q : Int) : Int :=
  let n : Int := ((m * 2 ^ (e - q).toNat : Nat) : Int)
  if neg then -n else n

/-- The exact sum; none where it is +∞ + (−∞) (R55). A zero sum of values that are not zeros of one sign is −0 in RDN
and +0 otherwise (R56). -/
def addVal (mode : Nat) : FVal → FVal → Option FVal
  | .nan, _ => some .nan
  | _, .nan => some .nan
  | .inf a, .inf b => if a = b then some (.inf a) else none
  | .inf a, .fin _ _ _ => some (.inf a)
  | .fin _ _ _, .inf b => some (.inf b)
  | .fin a m e, .fin b n g =>
    if m = 0 ∧ n = 0 ∧ a = b then some (.fin a 0 e)
    else
      let q := min e g
      let x := toUnits a m e q + toUnits b n g q
      if x = 0 then some (.fin (mode == 2) 0 q) else some (.fin (decide (x < 0)) x.natAbs q)

/-- The negation of a value. -/
def negVal : FVal → FVal
  | .nan => .nan
  | .inf a => .inf (!a)
  | .fin a m e => .fin (!a) m e

/-- A result that is none is invalid: NaN with NV (R58). -/
def invalidOr (r : Rnd) : Option FVal → FRes
  | none => (qnan, fNV)
  | some v => round32 r v

def faddOp (r : Rnd) (a b : Word) : FRes := invalidOr r (addVal r.mode (fv a) (fv b))
def fsubOp (r : Rnd) (a b : Word) : FRes := invalidOr r (addVal r.mode (fv a) (negVal (fv b)))
def fmulOp (r : Rnd) (a b : Word) : FRes := invalidOr r (mulVal (fv a) (fv b))

/-- FFMA (R176): NV for ±∞ × ±0 with c no NaN, and for ∞ − ∞. -/
def ffmaOp (r : Rnd) (a b c : Word) : FRes :=
  match mulVal (fv a) (fv b) with
  | none => (qnan, if isNan (fv c) then 0 else fNV)
  | some p => invalidOr r (addVal r.mode p (fv c))

/-- The order of two values that are no NaN: whether the first is less. -/
def ltVal : FVal → FVal → Bool
  | .inf a, .inf b => a && !b
  | .inf a, _ => a
  | _, .inf b => !b
  | .fin a m e, .fin b n g =>
    let q := min e g
    decide (toUnits a m e q < toUnits b n g q)
  | _, _ => false

/-- Whether two values that are no NaN are equal; −0 equals +0 (R179). -/
def eqVal (x y : FVal) : Bool := !(ltVal x y) && !(ltVal y x)

/-- The sign of a value. -/
def signOf : FVal → Bool
  | .nan => false
  | .inf a => a
  | .fin a _ _ => a

/-- FMIN (R57): −0 below +0, a number before a NaN. -/
def fminOp (a b : Word) : Word :=
  if isNan (fv a) then (if isNan (fv b) then qnan else b)
  else if isNan (fv b) then a
  else if ltVal (fv a) (fv b) then a
  else if ltVal (fv b) (fv a) then b
  else if signOf (fv a) then a else b

/-- FMAX (R57). -/
def fmaxOp (a b : Word) : Word :=
  if isNan (fv a) then (if isNan (fv b) then qnan else b)
  else if isNan (fv b) then a
  else if ltVal (fv a) (fv b) then b
  else if ltVal (fv b) (fv a) then a
  else if signOf (fv a) then b else a

/-- FCMP (R179). -/
def fcmpOp (cond : Nat) (a b : Word) : Bool :=
  let x := fv a
  let y := fv b
  let uno := isNan x || isNan y
  match cond with
  | 0 => !uno && eqVal x y
  | 1 => uno || !(eqVal x y)
  | 2 => !uno && ltVal x y
  | 3 => !uno && !(ltVal y x)
  | 4 => !uno && ltVal y x
  | 5 => !uno && !(ltVal x y)
  | 6 => uno
  | _ => !uno

def fnegOp (a : Word) : Word := if isNan (fv a) then qnan else a ^^^ 0x80000000#32
def fabsOp (a : Word) : Word := if isNan (fv a) then qnan else a &&& 0x7FFFFFFF#32

/-- A value rounded to an integer in a mode, as an FP32 value; a zero keeps the sign (R180). -/
def rintVal (r : Rnd) : FVal → FVal
  | .fin neg m e => .fin neg (roundUnits r neg m e 0).1 0
  | v => v

/-- FFLOOR, FCEIL and FRINT (R180). -/
def frintOp (r : Rnd) (a : Word) : Word := (round32 { mode := 0 } (rintVal r (fv a))).1

/-- FCVTI (R181). -/
def fcvtiOp (r : Rnd) (a : Word) : FRes :=
  match fv a with
  | .nan => (0, fNV)
  | .inf neg => (if neg then 0x80000000#32 else 0x7FFFFFFF#32, fNV)
  | .fin neg m e =>
    let (n, nx) := roundUnits r neg m e 0
    if neg then
      if 2 ^ 31 < n then (0x80000000#32, fNV) else (.ofInt 32 (-(n : Int)), if nx then fNX else 0)
    else
      if 2 ^ 31 ≤ n then (0x7FFFFFFF#32, fNV) else (.ofNat 32 n, if nx then fNX else 0)

/-- ICVTF (R180). -/
def icvtfOp (r : Rnd) (a : Word) : FRes := round32 r (.fin (a.msb) a.toInt.natAbs 0)

/-- FCLASS (R182). -/
def fclassOp (a : Word) : Word :=
  match fv a with
  | .nan => 256#32
  | .inf neg => if neg then 1#32 else 128#32
  | .fin neg m _ =>
    if m = 0 then (if neg then 8#32 else 16#32)
    else if m < 2 ^ 23 then (if neg then 4#32 else 32#32)
    else (if neg then 2#32 else 64#32)

/-- The exact square root's magnitude with a sticky bit below 40 further bits: enough for every mode and for the
draw of SRK. -/
def sqrtVal (m : Nat) (e : Int) : Nat × Int :=
  let odd := e % 2 ≠ 0
  let m' := (if odd then 2 * m else m) * 2 ^ 120
  let e' := ((if odd then e - 1 else e) - 120) / 2
  let s := Nat.sqrt m'
  (2 * s + (if s * s = m' then 0 else 1), e' - 1)

/-- FSQRT (R184, R185). -/
def fsqrtOp (r : Rnd) (a : Word) : FRes :=
  match fv a with
  | .nan => (qnan, 0)
  | .inf true => (qnan, fNV)
  | .inf false => (0x7F800000#32, 0)
  | .fin neg m e =>
    if m = 0 then (a, 0)
    else if neg then (qnan, fNV)
    else
      let (x, g) := sqrtVal m e
      round32 r (.fin false x g)

/-! ## Widening and narrowing (R59 to R61) -/

/-- A finite value that FP32 represents exactly, as its code; the other values by R59. -/
def widenCode (f : FFmt) (code : Nat) : Word := (round32 {} (fval f code)).1

/-- A load's element widened by its format code of R46 (R59); 0 W32, 1 BF16, 2 F16, 3 E4M3, 4 E5M2, 5 I8, 6 N8,
7 I16. -/
def widen (fmt : Nat) (raw : Nat) : Word :=
  match fmt with
  | 1 => widenCode bf16 (raw % 65536)
  | 2 => widenCode f16 (raw % 65536)
  | 3 => widenCode e4m3 (raw % 256)
  | 4 => widenCode e5m2 (raw % 256)
  | 5 => (BitVec.ofNat 8 raw).signExtend 32
  | 6 => .ofNat 32 (raw % 256)
  | 7 => (BitVec.ofNat 16 raw).signExtend 32
  | _ => .ofNat 32 raw

/-- Bytes of an element of a format (R46). -/
def fmtBytes (fmt : Nat) : Nat :=
  match fmt with
  | 0 => 4
  | 1 => 2 | 2 => 2 | 7 => 2 | 8 => 2
  | _ => 1

/-- A lane narrowed to a floating-point format (R60): the code and the flags. -/
def narrowF (f : FFmt) (r : Rnd) (sat : Bool) (v : FVal) : Nat × BitVec 32 :=
  match v with
  | .nan => (f.nan, 0)
  | .inf neg => if sat then (fsign f neg + f.max, fSAT) else (finf f neg, 0)
  | .fin neg m e =>
    if m = 0 then (fsign f neg, 0)
    else
      let x := roundTo f r neg m e
      if x.ovf && sat && !(towardZero r.mode neg) then (fsign f neg + f.max, fOF ||| fNX ||| fSAT)
      else (x.code, x.flags)

/-- A lane narrowed to an integer format of n bits (R61). -/
def narrowI (n : Nat) (signed sat : Bool) (w : Word) : Nat × BitVec 32 :=
  let v : Int := if signed then w.toInt else w.toNat
  let lo : Int := if signed then -(2 ^ (n - 1) : Nat) else 0
  let hi : Int := if signed then (2 ^ (n - 1) : Nat) - 1 else (2 ^ n : Nat) - 1
  let c := if v < lo then lo else if hi < v then hi else v
  if sat && decide (c ≠ v) then ((c % (2 ^ n : Nat)).toNat, fSAT) else (w.toNat % 2 ^ n, 0)

/-- A store's element narrowed by its format code of R46 (R60, R61). -/
def narrow (fmt : Nat) (r : Rnd) (sat : Bool) (w : Word) : Nat × BitVec 32 :=
  match fmt with
  | 1 => narrowF bf16 r sat (fv w)
  | 2 => narrowF f16 r sat (fv w)
  | 3 => narrowF e4m3 r sat (fv w)
  | 4 => narrowF e5m2 r sat (fv w)
  | 5 => narrowI 8 true sat w
  | 6 => narrowI 8 false sat w
  | 7 => narrowI 16 true sat w
  | 8 => narrowI 16 false sat w
  | _ => (w.toNat, 0)

/-! ## SFU functions other than FSQRT (R184, R185)

A result that R184 decides, or that is exactly representable, is that one. For every other operand the manual gives a
bound, not a value: the result is the word that the free function `Config.sfu` names where that word meets the bound,
and else the nearest one. The exact results are formed as fixed-point numbers with 320 fraction bits. -/

/-- Fraction bits of the fixed-point numbers. -/
def fxBits : Nat := 320
def fxOne : Nat := 2 ^ 320
def fxTwoPi : Nat := 13420802360424337830311681948440006481608388178854297901454212848703426437343610760199000777828079
def fxLn2 : Nat := 1480553391661173448385607439722553250922680800745876974795605978609098082859138712941075737848984

/-- Sum of u^k / k! from term k on, in fixed point, over a number of terms. -/
def fxExpSum (u : Nat) : Nat → Nat → Nat → Nat
  | 0, _, t => t
  | n + 1, k, t => t + fxExpSum u n (k + 1) (t * u / fxOne / (k + 1))

/-- e^u for 0 ≤ u < 1. -/
def fxExp (u : Nat) : Nat := fxExpSum u 80 0 fxOne

/-- Alternating series of sine or cosine: the sum of ±r^(k) / k!, k stepping by 2. -/
def fxTrigSum (r2 : Int) : Nat → Int → Int → Int
  | 0, _, t => t
  | n + 1, k, t => t + fxTrigSum r2 n (k + 2) (-(t * r2 / (fxOne : Int) / ((k + 1) * (k + 2))))

/-- Sum of z^(2k+1) / (2k+1). -/
def fxAtanhSum (z2 : Nat) : Nat → Nat → Nat → Nat
  | 0, _, _ => 0
  | n + 1, k, t => t / k + fxAtanhSum z2 n (k + 2) (t * z2 / fxOne)

/-- Squares a number in [0, 1] a number of times. -/
def fxSquare : Nat → Nat → Nat
  | 0, y => y
  | n + 1, y => fxSquare n (y * y / fxOne)

/-- A magnitude m × 2^e in fixed point. -/
def fxOf (m : Nat) (e : Int) : Nat := if 0 ≤ e + 320 then m * 2 ^ (e + 320).toNat else m / 2 ^ (-(e + 320)).toNat

/-- log2 of the spacing of FP32 at a magnitude n × 2^g (R185). -/
def ulpExp (n : Nat) (g : Int) : Int := max ((Nat.log2 n : Int) + g - 23) (-149)

/-- Whether two values a and x × 2^g differ by at most b × 2^h. -/
def withinErr (a : FVal) (x : Int) (g : Int) (b : Nat) (h : Int) : Bool :=
  match a with
  | .fin neg m e =>
    let q := min (min e g) h
    let d := toUnits neg m e q - x * 2 ^ (g - q).toNat
    decide (d.natAbs ≤ b * 2 ^ (h - q).toNat)
  | _ => false

/-- NX, and UF where a result is below the smallest normal, or OF where it is infinite (R175, R185). -/
def nxFlags (w : Word) : BitVec 32 :=
  if w.toNat % 2 ^ 31 < 0x00800000 then fNX ||| fUF
  else if w.toNat % 2 ^ 31 = 0x7F800000 then fNX ||| fOF else fNX

/-- The result with an exact value x × 2^g and an error bound b × 2^h: the free word where it meets the bound. -/
def boundedRes (free : Word) (x : Int) (g : Int) (b : Nat) (h : Int) (unit : Bool) : FRes :=
  let near := (round32 {} (.fin (decide (x < 0)) x.natAbs g)).1
  let ok := withinErr (fv free) x g b h && (!unit || decide (free.toNat % 2 ^ 31 ≤ 0x3F800000))
  let near' : Word := if unit && decide (0x3F800000 < near.toNat % 2 ^ 31) then
      (near &&& 0x80000000#32) ||| 0x3F800000#32 else near
  let w := if ok then free else near'
  (w, nxFlags w)

/-- log2 of a magnitude that is a power of two, if it is one. -/
def exactLog2 (m : Nat) (e : Int) : Option Int := if m = 2 ^ Nat.log2 m then some ((Nat.log2 m : Int) + e) else none

/-- 2^k as an FP32 word, for k from −149 to 127. -/
def pow2Word (k : Int) : Word := (round32 {} (.fin false 1 k)).1

/-- A quotient 1 / d × 2^e within 1 ulp (R185). -/
def quotRes (free : Word) (neg : Bool) (d : Nat) (e : Int) : FRes :=
  let n : Nat := 2 ^ 400 / d
  boundedRes free (if neg then -(n : Int) else (n : Int)) (e - 400) 1 (ulpExp n (e - 400)) false

/-- FRCP (R184, R185). -/
def frcpOp (a : Word) : FRes :=
  match fv a with
  | .nan => (qnan, 0)
  | .inf neg => (.ofNat 32 (fsign fp32 neg), 0)
  | .fin neg m e =>
    if m = 0 then (.ofNat 32 (finf fp32 neg), fDZ)
    else if !(aboveMag m e 1 (-128)) then (.ofNat 32 (finf fp32 neg), fOF ||| fNX)
    else
      match exactLog2 m e with
      | some k => round32 {} (.fin neg 1 (-k))
      | none => quotRes (Config.sfu 10 a) neg m (-e)

/-- FRSQ (R184, R185). -/
def frsqOp (a : Word) : FRes :=
  match fv a with
  | .nan => (qnan, 0)
  | .inf true => (qnan, fNV)
  | .inf false => (0, 0)
  | .fin neg m e =>
    if m = 0 then (.ofNat 32 (finf fp32 neg), fDZ)
    else if neg then (qnan, fNV)
    else
      let (x, g) := sqrtVal m e
      match exactLog2 m e with
      | some k =>
        if k % 2 = 0 then round32 {} (.fin false 1 (-(k / 2)))
        else quotRes (Config.sfu 11 a) false x (-g)
      | none => quotRes (Config.sfu 11 a) false x (-g)

/-- FEXP2 (R184, R185). -/
def fexp2Op (a : Word) : FRes :=
  match fv a with
  | .nan => (qnan, 0)
  | .inf true => (0, 0)
  | .inf false => (0x7F800000#32, 0)
  | .fin neg m e =>
    if m = 0 then (0x3F800000#32, 0)
    else
      let (n, nx) := roundUnits { mode := 1 } neg m e 0
      if !neg && decide (128 ≤ n) then (0x7F800000#32, fOF ||| fNX)
      else if neg && decide (150 ≤ n) then (0, fUF ||| fNX)
      else if !nx then (pow2Word (if neg then -(n : Int) else n), 0)
      else
        let frac := fxOf m e - n * fxOne
        let f := if neg then fxOne - frac else frac
        let k : Int := if neg then -(n : Int) - 1 else n
        let y := fxExp (f * fxLn2 / fxOne)
        boundedRes (Config.sfu 13 a) y (k - 320) 2 (ulpExp y (k - 320)) false

/-- FLOG2 (R184, R185). -/
def flog2Op (a : Word) : FRes :=
  match fv a with
  | .nan => (qnan, 0)
  | .inf true => (qnan, fNV)
  | .inf false => (0x7F800000#32, 0)
  | .fin neg m e =>
    if m = 0 then (0xFF800000#32, fDZ)
    else if neg then (qnan, fNV)
    else
      match exactLog2 m e with
      | some k => round32 {} (.fin (decide (k < 0)) k.natAbs 0)
      | none =>
        let l := Nat.log2 m
        let n : Int := (l : Int) + e
        let mant := m * fxOne / 2 ^ l
        let z := (mant - fxOne) * fxOne / (mant + fxOne)
        let ln := 2 * fxAtanhSum (z * z / fxOne) 100 1 z
        let x : Int := n * (fxOne : Int) + ((ln * fxOne / fxLn2 : Nat) : Int)
        let near1 := n = -1 ∨ n = 0
        boundedRes (Config.sfu 14 a) x (-320) (if near1 then 1 else 2)
          (if near1 then -22 else ulpExp x.natAbs (-320)) false

/-- FSIN, FCOS: f is 15 or 16 (R184, R185). -/
def ftrigOp (f : Nat) (a : Word) : FRes :=
  match fv a with
  | .nan => (qnan, 0)
  | .inf _ => (qnan, fNV)
  | .fin neg m e =>
    if m = 0 then (if f = 15 then a else 0x3F800000#32, 0)
    else
      let r : Int := ((fxOf m e % fxTwoPi : Nat) : Int)
      let r := if (fxTwoPi : Int) < 2 * r then r - fxTwoPi else r
      let r := if neg then -r else r
      let r2 := r * r / (fxOne : Int)
      let x := if f = 15 then fxTrigSum r2 40 1 r else fxTrigSum r2 40 0 fxOne
      boundedRes (Config.sfu f a) x (-320) 1 (-22) true

/-- FTANH (R184, R185). -/
def ftanhOp (a : Word) : FRes :=
  match fv a with
  | .nan => (qnan, 0)
  | .inf neg => (if neg then 0xBF800000#32 else 0x3F800000#32, 0)
  | .fin neg m e =>
    if m = 0 then (a, 0)
    else
      let t := min (fxOf m e) (32 * fxOne)
      let y := fxSquare 7 (fxOne * fxOne / fxExp (2 * t / 128))
      let x := (fxOne - y) * fxOne / (fxOne + y)
      boundedRes (Config.sfu 17 a) (if neg then -(x : Int) else x) (-320) 2 (ulpExp x (-320)) true

/-! ## The exact accumulator (R67 to R71) -/

/-- A modulo 2^320 as a two's-complement integer. -/
def wrap320 (a : Int) : Int :=
  let m := a % (2 ^ 320 : Nat)
  if (2 ^ 319 : Nat) ≤ m then m - (2 ^ 320 : Nat) else m

/-- Adding an FP32 value (R68): sticky bit 0 PINF, 1 NINF, 2 NAN. -/
def accAdd (a : Int) (st : BitVec 8) (x : Word) : Int × BitVec 8 :=
  match fv x with
  | .nan => (a, st ||| 4)
  | .inf neg => (a, st ||| (if neg then 2 else 1))
  | .fin neg m e => (wrap320 (a + toUnits neg m e (-149)), st)

/-- Merging two accumulators (R69). -/
def accMerge (a : Int) (sa : BitVec 8) (b : Int) (sb : BitVec 8) : Int × BitVec 8 := (wrap320 (a + b), sa ||| sb)

/-- The final read (R70). -/
def accRead (a : Int) (st : BitVec 8) : FRes :=
  if st.getLsbD 2 then (qnan, 0)
  else if st.getLsbD 0 && st.getLsbD 1 then (qnan, fNV)
  else if st.getLsbD 0 then (0x7F800000#32, 0)
  else if st.getLsbD 1 then (0xFF800000#32, 0)
  else if a = 0 then (0, 0)
  else round32 {} (.fin (decide (a < 0)) a.natAbs (-149))

/-- The 64-byte image of an accumulator (R71). -/
def accImage (a : Int) (st : BitVec 8) : List Byte :=
  natLe 40 (a % (2 ^ 320 : Nat)).toNat ++ natLe 4 (st.toNat % 8) ++ List.replicate 20 0

end Sys2Proof.Machine
end

