-- ==== Sys2Proof/Machine/Ops.lean ====
section
/-! DEFINITION. The named operations of the machine: finding and changing contexts, warps and blocks, translation,
engine accesses to context memory, device messages, context-level faults, and taking an exception with the frame
it writes and restores (14_page.md R284 to R291, 15_context.md R315 to R323, 26_link.md R505, R506). -/

namespace Sys2Proof.Machine

/-! ## Events -/

/-- What a step answers. -/
abbrev Stepped := Host.Outcome State Fault Refusal

/-- An event takes place where it is due; where it is not, nothing takes place and the machine stays as it is. (assumption 118,
DESIGN CHOICE) -/
def takes (s : State) (due : Option State) : Stepped := .next (due.getD s)

/-! ## Contexts, warps, blocks -/

/-- A context by number. -/
def ctxOf (s : State) (c : Nat) : Ctx := getAt {} s.ctxs c

/-- Replaces a context. -/
def setCtx (s : State) (c : Nat) (x : Ctx) : State := { s with ctxs := setAt {} s.ctxs c x }

/-- A warp by context and number (R312). -/
def warpFind (s : State) (c n : Nat) : Option Warp := s.warps.find? (fun w => w.ctx == c && w.num == n)

/-- Replaces the warp of the same context and number. -/
def setWarp (s : State) (w : Warp) : State :=
  { s with warps := s.warps.map (fun x => if x.ctx = w.ctx ∧ x.num = w.num then w else x) }

/-- A block by context and block number (R312). -/
def blockFind (s : State) (c b : Nat) : Option Block := s.blocks.find? (fun x => x.ctx == c && x.num == b)

/-- Replaces the block of the same context and number. -/
def setBlock (s : State) (b : Block) : State :=
  { s with blocks := s.blocks.map (fun x => if x.ctx = b.ctx ∧ x.num = b.num then b else x) }

/-- The block of a warp; a task warp has none (R374). -/
def blockOf (s : State) (w : Warp) : Option Block :=
  match w.blk with
  | some b => blockFind s w.ctx b
  | none => none

/-- The scratchpad length of a warp's block (R188); 0 for a task warp (R374). -/
def scrLenOf (s : State) (w : Warp) : Nat :=
  match blockOf s w with
  | some b => b.scrLen
  | none => 0

/-- A warp's scalar register (R136). -/
def sGet (r : Regs) (n : Nat) : DWord := getAt 0 r.s n

/-- A warp's mask register; m0 reads all ones (R135). -/
def mGet (r : Regs) (n : Nat) : LaneMask := if n = 0 then 0xFFFFFFFF#32 else getAt 0 r.m n

/-- Writes a mask register; a write to m0 is discarded (R135). -/
def mPut (r : Regs) (n : Nat) (v : LaneMask) : Regs := if n = 0 then r else { r with m := setAt 0 r.m n v }

/-- A vector register's entry. -/
def vEntry (r : Regs) (n : Nat) : VReg := getAt {} r.v n

/-- A vector register's lanes: zero unless MAPPED (R138). -/
def vGet (r : Regs) (n : Nat) : Lanes :=
  match (vEntry r n).st with
  | .mapped => (vEntry r n).val
  | _ => []

/-- One lane of a list of lanes. -/
def lane (x : Lanes) (l : Nat) : Word := getAt 0 x l

/-- Lanes from a function. -/
def mkLanes (f : Nat → Word) : Lanes := laneIdx.map f

/-- A mask from a predicate on lanes. -/
def mkMask (f : Nat → Bool) : LaneMask :=
  laneIdx.foldl (fun m l => if f l then m ||| laneOne l else m) 0

/-- The LIVE lanes of a warp (R113). -/
def live (w : Warp) : LaneMask := ~~~ w.exited

/-- The registers a warp has MAPPED. -/
def mappedCount (r : Regs) : Nat := (r.v.filter (fun x => x.st == .mapped)).length

/-- The registers a warp has SPILLED. -/
def spilledCount (r : Regs) : Nat := (r.v.filter (fun x => x.st == .spilled)).length

/-- The die of a core number die × 128 + core. -/
def dieOf (core : Nat) : Nat := core / 128

/-- The cluster of a core, die × 32 + cluster. -/
def clusterOf (core : Nat) : Nat := core / 4

/-- The quadrant of a core, die × 4 + quadrant (R246, R477). -/
def quadOf (core : Nat) : Nat := core / 32

/-- Whether a core's cluster is fused (R257). -/
def isFused (s : State) (core : Nat) : Bool := s.fused.any (fun f => f.1 == clusterOf core)

/-- The OWNER code under which a core registers words (R248). -/
def ownerOf (s : State) (core : Nat) : Nat := if isFused s core then 0x400 + clusterOf core else core

/-- The OWNER code of the I/O die's host agent (R248). -/
def hostOwner : Nat := 0x7FF

/-- A fresh identifier. -/
def takeFresh (s : State) : Nat × State := (s.fresh, { s with fresh := s.fresh + 1 })

/-- Whether a feature has been accepted (R25). -/
def accepted (s : State) (bit : Nat) : Bool := s.featAccept.getLsbD bit

/-! ## The code numbers of R306, R315 and R18 -/

/-- DEVSTATE codes (R18). -/
def devCode : DevState → Nat
  | .powerOff => 0 | .reset => 1 | .selfTest => 2 | .unowned => 3
  | .owned => 4 | .handover => 5 | .thermalTrip => 6 | .failed => 7

/-- CTXSTATE codes (R306). -/
def ctxCode : CtxSt → Nat
  | .empty => 0 | .built => 1 | .runnable => 2 | .running => 3
  | .halted => 4 | .preempted => 5 | .faulted => 6 | .teardown => 7

/-- Cause codes (R315). -/
def causeCode : Cause → Nat
  | .hardware => 0x00 | .illegal => 0x01 | .unimpl => 0x02 | .unmappedRead => 0x04 | .latchChain => 0x05
  | .boundDiverge => 0x06 | .boundMask => 0x07 | .nonuniform => 0x08 | .singularSplit => 0x09
  | .streamRights => 0x0A | .stackLimit => 0x0B | .brk => 0x0C | .translation => 0x10 | .protection => 0x11
  | .misaligned => 0x12 | .ownerLost => 0x14 | .race => 0x18 | .pedigreeDepth => 0x19 | .pedigreeRank => 0x1A
  | .strandTable => 0x1B | .pallocCollide => 0x1C | .barrierOverrun => 0x20 | .copyFault => 0x22
  | .tensorId => 0x28 | .tileState => 0x29 | .watch => 0x30 | .step => 0x31 | .migrateFault => 0x38
  | .doubleTrap => 0x3E | .trap => 0x3F

/-- Cause classes (R315); none for a cause without a class. -/
def causeClass : Cause → Option Nat
  | .unimpl => some 1
  | .translation => some 2 | .protection => some 2 | .ownerLost => some 2
  | .race => some 3 | .pedigreeDepth => some 3 | .pedigreeRank => some 3 | .migrateFault => some 3
  | .strandTable => none | .pallocCollide => none | .doubleTrap => none | .hardware => none
  | .barrierOverrun => some 4 | .tensorId => some 4 | .tileState => some 4 | .copyFault => some 4
  | .brk => some 5 | .watch => some 5 | .step => some 5
  | .trap => some 6
  | .illegal => some 0 | .unmappedRead => some 0 | .latchChain => some 0 | .boundDiverge => some 0
  | .boundMask => some 0 | .nonuniform => some 0 | .singularSplit => some 0 | .streamRights => some 0
  | .stackLimit => some 0 | .misaligned => some 0

/-- The cause word of a frame (R320). -/
def causeWord (t : TrapInfo) : BitVec 32 :=
  .ofNat 32 (causeCode t.cause + 256 * ((causeClass t.cause).getD 0) + 2048 * bit t.deferred +
    65536 * (match t.lane with | some l => l | none => 0xFF) + 16777216 * t.code.toNat)

/-! ## Translation -/

/-- A bit field of a table entry or register. -/
def field (e : BitVec 64) (hi lo : Nat) : Nat := e.toNat / 2 ^ lo % 2 ^ (hi - lo + 1)

/-- log2 of the page size of a leaf's SIZE (R285). -/
def sizeLog (sz : Nat) : Nat := if sz = 0 then 12 else if sz = 1 then 16 else if sz = 2 then 21 else 30

/-- Whether a leaf at a level is unresolvable (R286). -/
def leafBad (level : Nat) (e : BitVec 64) : Bool :=
  let kind := field e 63 62
  let size := field e 57 56
  let frame := field e 51 12
  kind == 3 || field e 55 52 != 0 || (kind != 2 && field e 11 5 != 0) || (kind != 0 && field e 61 61 == 1) ||
  (match level with
   | 3 => size != 3
   | 2 => size != 2
   | 1 => 2 ≤ size
   | _ => true) ||
  frame % 2 ^ (sizeLog size - 12) != 0

/-- Whether a pointer entry is unresolvable (R285, R286). -/
def pointerBad (e : BitVec 64) : Bool :=
  field e 11 1 != 0 || field e 63 52 != 0 || !(8 ≤ field e 51 48 && field e 51 48 ≤ 11)

/-- The levels of the walk from the one given down, with the low bit of each index (R284). -/
def levels : List (Nat × Nat) := [(5, 48), (4, 39), (3, 30), (2, 21), (1, 12)]

/-- The 8 bytes of a table entry as the walker reads them (R288). -/
def entryAt (s : State) (pa : Nat) : BitVec 64 :=
  .ofNat 64 ((cohWord s (pa / 4)).toNat + 2 ^ 32 * (cohWord s (pa / 4 + 1)).toNat)

/-- Where a walk ends: the result, and the address of the entry it ended at with its level (R284 to R286); an entry that is not in
memory cannot be read (R15). -/
def walkFrom (s : State) (va : Nat) : List (Nat × Nat) → Nat → XRes × Nat × Nat
  | [], tbl => (.unresolvable, tbl, 0)
  | (level, lo) :: rest, tbl =>
    let pa := tbl + 8 * (va / 2 ^ lo % 512)
    let e := entryAt s pa
    if isMemory pa = false then (.refused, pa, level)
    else if e.getLsbD 0 = false then (.notPresent level, pa, level)
    else if level ≤ 3 ∧ (level = 1 ∨ field e 57 56 ≠ 0) then
      (if leafBad level e then .unresolvable else .leaf e, pa, level)
    else if pointerBad e then (.unresolvable, pa, level)
    else walkFrom s va rest (field e 51 12 * 4096)

/-- The walk of a virtual address in a context (R284, R311 PTROOT). -/
def walk (s : State) (c va : Nat) : XRes × Nat × Nat := walkFrom s va levels ((ctxOf s c).ptroot.toNat)

/-- log2 of the granule of the level at which V = 0 was found (R297). -/
def granLog (level : Nat) : Nat := 12 + 9 * (level - 1)

/-- log2 of a leaf's page size. -/
def leafLog (e : BitVec 64) : Nat := sizeLog (field e 57 56)

def leafKind (e : BitVec 64) : Nat := field e 63 62
def leafRepl (e : BitVec 64) : Bool := e.getLsbD 61
def leafHome (e : BitVec 64) : Nat := field e 60 58
def leafWin (e : BitVec 64) : Nat := field e 11 5
def leafC (e : BitVec 64) : Bool := e.getLsbD 4
def leafX (e : BitVec 64) : Bool := e.getLsbD 3
def leafW (e : BitVec 64) : Bool := e.getLsbD 2
def leafR (e : BitVec 64) : Bool := e.getLsbD 1

/-- The physical (or window) address of a virtual address under a leaf (R285). -/
def leafPa (e : BitVec 64) (va : Nat) : Nat :=
  let lg := leafLog e
  field e 51 12 * 4096 / 2 ^ lg * 2 ^ lg + va % 2 ^ lg

/-- The base of the page of a leaf that holds a virtual address. -/
def leafBase (e : BitVec 64) (va : Nat) : Nat := va / 2 ^ leafLog e * 2 ^ leafLog e

/-- A TLB lookup (R289): core or die, context, address. -/
def tlbFind (ts : List Tlb) (place c va : Nat) : Option (BitVec 64) :=
  (ts.find? (fun t => t.place == place && t.ctx == c && t.base ≤ va && va < t.base + 2 ^ t.size)).map (fun t => t.leaf)

/-- Installs a leaf, within a number of entries for the place (R289). -/
def tlbPut (ts : List Tlb) (cap place c va : Nat) (e : BitVec 64) : List Tlb :=
  let t : Tlb := ⟨place, c, leafBase e va, leafLog e, e⟩
  let mine := (ts.filter (fun x => x.place == place && !(x.ctx == c && x.base == t.base))).take (cap - 1)
  t :: mine ++ ts.filter (fun x => !(x.place == place))

/-- Drops every entry of a context that overlaps a range (R293, R295). -/
def tlbDrop (ts : List Tlb) (inPlace : Nat → Bool) (c base len : Nat) (all : Bool) : List Tlb :=
  ts.filter (fun t => !(inPlace t.place && t.ctx == c && (all || (t.base < base + len && base < t.base + 2 ^ t.size))))

/-- The die whose translation slice serves an address: the XOR of the 3-bit groups of VA[56:21] (R289). -/
def sliceDie (va : Nat) : Nat :=
  (List.range 12).foldl (fun d i => d ^^^ (va / 2 ^ (21 + 3 * i) % 8)) 0

/-- The home slice number of a physical address (R246). -/
def homeSlice (pa : Nat) : Nat :=
  (pa / 2 ^ 6 % 32) ^^^ (pa / 2 ^ 11 % 32) ^^^ (pa / 2 ^ 16 % 32) ^^^ (pa / 2 ^ 21 % 32)

/-- The home slice of a physical address, numbered over the package (R246): on the die that a page walk has found for its frame. -/
def sliceOf (s : State) (pa : Nat) : Nat :=
  let die := match s.homes.find? (fun h => decide (h.1 ≤ pa) && decide (pa < h.1 + 2 ^ h.2.1)) with
    | some h => h.2.2
    | none => 0
  32 * die + homeSlice pa

/-- The owner number under which a die's L2 keeps lines of window pages (R287) and of REPLICATED pages (R292). -/
def l2Owner (die : Nat) : Nat := 0x10000 + die

/-- Drops the lines of a range that some dies hold of REPLICATED pages in their L2s (R292, R293). -/
def dropReplicas (s : State) (inDie : Nat → Bool) (pa len : Nat) : State :=
  { s with l1 := s.l1.filter (fun x => !((List.range 8).any (fun d => inDie d && x.owner == l2Owner d) &&
      decide (pa ≤ 4 * x.wa) && decide (4 * x.wa < pa + len))) }

/-- Whether an access is to a page under a collapse. -/
def collapseAt (c base : Nat) (k : Cast) : Bool := match k.kind with | .collapse c' b _ _ => c' == c && b == base | _ => false

/-- Ends a REPLICATED page for a write that the device makes of itself: the steps of R293 with no time between them, which end a collapse
in progress too. (assumption 132, DEDUCED) -/
def collapseNow (s : State) (c va pte : Nat) (e : BitVec 64) : State :=
  let base := leafBase e va
  let s := cohPutBytes (dropReplicas s (fun _ => true) (leafPa e base) (2 ^ leafLog e)) pte (natLe 8 (e &&& ~~~ (1#64 <<< 61)).toNat)
  { s with casts := s.casts.filter (fun k => !(collapseAt c base k))
           tlb := tlbDrop s.tlb (fun _ => true) c base (2 ^ leafLog e) false
           tcache := tlbDrop s.tcache (fun _ => true) c base (2 ^ leafLog e) false
           pages := s.pages.filter (fun p => !(p.ctx == c && p.base == base)) }

/-! ## Accesses of the device itself to context memory

Frames, spills, save areas, packets, records and lists: read and written through translation, at the home slices
(R148, R312, R334, R335, R519). A page that is not present is TRANSLATION here. -/

/-- The address of one byte for a read or a write, or the cause it meets. (assumption 110, DEDUCED) -/
def devXlate (s : State) (c va : Nat) (write : Bool) : Except Cause (Nat × Option (Nat × BitVec 64)) :=
  if 2 ^ 57 ≤ va then .error .translation
  else
    match walk s c va with
    | (.leaf e, pte, _) =>
      if leafKind e = 2 ∧ accepted s 1 = false then .error .translation
      else if leafKind e ≠ 0 then .error .protection
      else if (if write then leafW e else leafR e) = false then .error .protection
      else if isMemory (leafPa e va) then .ok (leafPa e va, if write && leafRepl e then some (pte, e) else none)
      else .error .protection
    | (.refused, _, _) => .error .protection
    | _ => .error .translation

/-- Reads n bytes of a context's memory from an address on; `known` is the physical address of the first when its page has been
translated already. -/
def devReadFrom (s : State) (c va : Nat) (known : Option Nat) : Nat → Except Cause (List Byte)
  | 0 => .ok []
  | n + 1 =>
    match (match (if va % 4096 = 0 then none else known) with
      | some pa => .ok pa
      | none => (devXlate s c va false).map (fun x => x.1) : Except Cause Nat) with
    | .error k => .error k
    | .ok pa =>
      match devReadFrom s c (va + 1) (some (pa + 1)) n with
      | .error k => .error k
      | .ok bs => .ok (cohByte s pa :: bs)

/-- Reads n bytes of a context's memory. -/
def devRead (s : State) (c va n : Nat) : Except Cause (List Byte) := devReadFrom s c va none n

/-- Writes bytes of a context's memory from an address on, as `devReadFrom` reads them; a byte that faults ends it, the bytes
before it written. -/
def devWriteFrom (s : State) (c va : Nat) (known : Option Nat) : List Byte → Except (Cause × State) State
  | [] => .ok s
  | b :: bs =>
    match (if va % 4096 = 0 then none else known) with
    | some pa => devWriteFrom (cohPutByte s pa b) c (va + 1) (some (pa + 1)) bs
    | none =>
      match devXlate s c va true with
      | .error k => .error (k, s)
      | .ok (pa, none) => devWriteFrom (cohPutByte s pa b) c (va + 1) (some (pa + 1)) bs
      | .ok (pa, some (pte, e)) => devWriteFrom (cohPutByte (collapseNow s c va pte e) pa b) c (va + 1) (some (pa + 1)) bs

/-- Writes bytes of a context's memory. -/
def devWrite (s : State) (c va : Nat) (bs : List Byte) : Except (Cause × State) State := devWriteFrom s c va none bs

/-- A little-endian number of n bytes in a context's memory. -/
def devNat (s : State) (c va n : Nat) : Except Cause Nat :=
  match devRead s c va n with
  | .ok bs => .ok (leNat bs)
  | .error k => .error k

/-! ## Messages of the device (R490, R505) -/

/-- Appends a sequenced message to a connection (R490); of the messages not acknowledged the first 512 are out. -/
def connSend (k : Conn) (m : OutMsg) : Conn :=
  { k with tx := k.tx + 1, unacked := k.unacked ++ [{ m with seq := k.tx }] }

/-- Sends a device message on every open owner connection, or keeps it (R505): at most 4096, the oldest dropped. (assumption 86, DEDUCED) -/
def devSend (s : State) (op : BitVec 8) (payload : List Byte) : State :=
  if s.conns.any (fun k => k.owner && k.port == 0 && !k.failed) then
    { s with conns := s.conns.map (fun k => if k.owner && k.port == 0 && !k.failed then
        let t := k.tx
        { connSend k { ty := 6, seq := 0, op := op, tag := t, payload := payload, len := payload.length } with
            reqs := k.reqs ++ [(t, .event)] } else k) }
  else if s.outbox.length < 4096 then { s with outbox := s.outbox ++ [⟨op, payload⟩] }
  else { s with outbox := s.outbox.drop 1 ++ [⟨op, payload⟩], evDrop := s.evDrop + 1 }

/-- An open connection by port and number (R489). -/
def connFind (s : State) (port : Nat) (num : BitVec 32) : Option Conn :=
  s.conns.find? (fun k => k.port == port && k.num == num && !k.failed)

/-- Replaces a connection. -/
def setConn (s : State) (k : Conn) : State :=
  { s with conns := s.conns.map (fun x => if x.port = k.port ∧ x.num = k.num ∧ x.failed = k.failed then k else x) }

/-- Answers a request with its COMPLETION (R491); dropped when the connection is gone (R492). -/
def answer (s : State) (a : Answer) (status : Nat) (payload : List Byte) : State :=
  match connFind s a.port (.ofNat 32 a.conn) with
  | some k => setConn s (connSend k
      { ty := 7, seq := 0, op := .ofNat 8 status, tag := a.tag, payload := payload, len := payload.length })
  | none => s

/-- Answers several requests alike. -/
def answerAll (s : State) (as : List Answer) (status : Nat) : State :=
  as.foldl (fun s a => answer s a status []) s

/-- Appends an error-log entry (R502), the newest last, 256 kept. (assumption 88, DEDUCED) -/
def logError (s : State) (kind island state core pa ctx : Nat) : State :=
  let e : List Byte := natLe 8 s.tb.toNat ++ natLe 2 kind ++ natLe 1 island ++ natLe 1 state ++ natLe 4 core ++
    natLe 8 pa ++ natLe 1 ctx ++ List.replicate 7 0
  { s with errLog := (s.errLog ++ [e]).drop (s.errLog.length + 1 - 256), errLogWr := s.errLogWr + 1 }

/-- Moves the package to another state and logs it (R16, R502 kind 11). -/
def setDev (s : State) (d : DevState) : State :=
  logError { s with dev := d } 11 0xFF (devCode d) 0xFFFFFFFF 0 0xFF

/-! ## Context-level faults (R316, R506) -/

/-- A context fault record (R506). -/
def faultRecord (s : State) (c : Nat) (k : Cause) (core warp : Option Nat) (addr : DWord) : List Byte :=
  natLe 1 c ++ natLe 1 (causeCode k) ++ natLe 1 ((causeClass k).getD 0xFF) ++ [0] ++
  natLe 4 (core.getD 0xFFFFFFFF) ++ natLe 4 (warp.getD 0xFFFFFFFF) ++ natLe 4 0 ++
  natLe 8 addr.toNat ++ natLe 8 s.tb.toNat

/-- A context-level cause (R306, R316): FAULTED with its record on the first, and CTX_FAULT to every owner
connection on each; every warp then stops and is saved as for pre-emption (R325). (assumption 104, DEDUCED) -/
def ctxFault (s : State) (c : Nat) (k : Cause) (core warp : Option Nat) (addr : DWord) : State :=
  let x := ctxOf s c
  let rec_ := faultRecord s c k core warp addr
  match x.st with
  | .empty => s
  | .built => s
  | .teardown => s
  | .faulted => devSend s 0x41 rec_
  | _ =>
    let pre : Preempt := match x.preempt with | some p => p | none => ⟨false, []⟩
    devSend (setCtx s c { x with st := .faulted, faultrec := rec_, preempt := some pre }) 0x41 rec_

/-! ## Quiescence and views of a warp's waits -/

/-- Whether everything R318 step 1 waits for is done: loads, atomics, SFU and long-integer operations landed, fences
complete. -/
def quiet (w : Warp) : Bool := w.pend.isEmpty && w.rel.isNone && w.acq.isNone

/-- The base address of a warp's frame (R311 FRAMEBASE). -/
def frameAddr (s : State) (w : Warp) : Nat := (ctxOf s w.ctx).framebase.toNat / 8192 * 8192 + w.num * 8192

/-- The base address of a warp's register backing area (R149). -/
def backAddr (s : State) (w : Warp) : Nat := (ctxOf s w.ctx).regback.toNat / 8192 * 8192 + w.num * 8192

/-- The bytes of the lanes of a register (R149, R318). -/
def laneBytes (x : Lanes) : List Byte := (laneIdx.map (fun l => natLe 4 (lane x l).toNat)).flatten

/-- Lanes from 128 bytes. -/
def lanesFromBytes (bs : List Byte) : Lanes := laneIdx.map (fun l => .ofNat 32 (leNat ((bs.drop (4 * l)).take 4)))

/-- The map word of the registers saved (R149, R319). -/
def mapWord (r : Regs) : Nat :=
  (List.range 56).foldl (fun n i => if (vEntry r i).st = .unmapped then n else n + 2 ^ i) 0

/-- The 512 header bytes of a frame (R319) for a cause; a pre-emption save has the zero cause word. -/
def frameHeader (w : Warp) (t : Option TrapInfo) (flagCounts : Bool) : List Byte :=
  let pcs := laneIdx.map (fun l =>
    match t with
    | some i => if laneBit i.spl l then getAt 0 w.pc l + BitVec.ofNat 32 i.skip else getAt 0 w.pc l
    | none => getAt 0 w.pc l)
  (pcs.map (fun p => natLe 4 p.toNat)).flatten ++
  (laneIdx.map (fun l => natLe 1 (getAt 0 w.depth l).toNat)).flatten ++
  natLe 4 w.exited.toNat ++
  natLe 4 (match t with | some i => i.spl.toNat | none => 0) ++
  natLe 4 (match t with | some i => i.act.toNat | none => 0) ++
  natLe 4 (match t with | some i => (causeWord i).toNat | none => 0) ++
  natLe 4 (match t with | some i => i.insn.toNat | none => 0) ++
  natLe 4 (match t with | some i => i.pfxw.toNat | none => 0) ++
  natLe 4 (match t with | some i => i.ginfo.toNat | none => 0) ++
  natLe 4 w.regs.flags.toNat ++
  natLe 8 (match t with | some i => i.faddr.toNat | none => 0) ++
  natLe 8 (mapWord w.regs) ++
  natLe 8 w.privbase.toNat ++
  natLe 4 (w.stackLim.toNat + 65536 * w.stackMax.toNat) ++ natLe 4 w.limbst.toNat ++
  ((List.range 12).map (fun i => natLe 1 (if flagCounts then getAt 0 w.f i else 0))).flatten ++
  natLe 4 w.regs.q.toNat ++ natLe 4 w.regs.draw.toNat ++
  natLe 2 w.tag.toNat ++ natLe 2 0 ++
  natLe 4 w.openb.toNat ++
  natLe 4 (w.role.toNat + 4 * w.cap) ++
  natLe 8 w.age.seq.toNat ++
  ((List.range 16).map (fun i => natLe 4 (mGet w.regs i).toNat)).flatten ++
  ((List.range 32).map (fun i => natLe 4 (getAt 0 w.carryx i).toNat)).flatten ++
  natLe 8 w.age.ord.toNat ++
  natLe 4 (bit w.age.cls) ++
  (laneIdx.map (fun l => natLe 1 (getAt 0 w.rep l).toNat)).flatten ++
  List.replicate 12 0

/-- The lanes of a saved register: its own, or those of the backing area for a SPILLED one (R318 step 2). -/
def savedLanes (s : State) (w : Warp) (n : Nat) : Except Cause Lanes :=
  match (vEntry w.regs n).st with
  | .mapped => .ok (vEntry w.regs n).val
  | .spilled =>
    match devRead s w.ctx (backAddr s w + n * 128) 128 with
    | .ok bs => .ok (lanesFromBytes bs)
    | .error k => .error k
  | .unmapped => .ok []

/-- Writes the slots of the registers listed (R318 step 2). -/
def writeSlots (s : State) (w : Warp) (base : Nat) : List Nat → Except (Cause × State) State
  | [] => .ok s
  | n :: ns =>
    if (vEntry w.regs n).st = .unmapped then writeSlots s w base ns
    else
      match savedLanes s w n with
      | .error k => .error (k, s)
      | .ok x =>
        match devWrite s w.ctx (base + 1024 + 128 * n) (laneBytes x) with
        | .error e => .error e
        | .ok s' => writeSlots s' w base ns

/-- Writes back the stack cache (R133). -/
def writeStack (s : State) (c : Nat) : List (Nat × Word) → Except (Cause × State) State
  | [] => .ok s
  | (va, v) :: r =>
    match devWrite s c va (natLe 4 v.toNat) with
    | .error e => .error e
    | .ok s' => writeStack s' c r

/-- A core's own writes leave no VALID copy in its L1 of the words they write: it reads what it wrote. (assumption 105, DEDUCED) -/
def ownDrop (s : State) (w : Warp) (va len : Nat) : State :=
  { s with l1 := s.l1.filter (fun x => !(x.owner == ownerOf s w.core && x.st == .valid && x.ctx == w.ctx &&
      decide (x.va < va + len) && decide (va < x.va + 4))) }

/-- Writes a warp's frame (R318 steps 1 and 2): the stack cache, the header, the scalars, the registers. -/
def writeFrame (s : State) (w : Warp) (t : Option TrapInfo) : Except (Cause × State) State :=
  let base := frameAddr s w
  match writeStack s w.ctx w.stack with
  | .error e => .error e
  | .ok s =>
    match devWrite s w.ctx base (frameHeader w t false ++
        ((List.range 64).map (fun n => natLe 8 (sGet w.regs n).toNat)).flatten) with
    | .error e => .error e
    | .ok s =>
      match writeSlots s w base (List.range 56) with
      | .error e => .error e
      | .ok s => .ok (ownDrop s w base 8192)

/-- Clears the last-warp records that name a warp of a context (R240, R245). -/
def offRecords (s : State) (c : Nat) (gone : Nat → Bool) : State :=
  { s with lastWarp := s.lastWarp.filter (fun r => !(r.2.1 == c && gone r.2.2)) }

/-- A warp's registers all UNMAPPED (R138). -/
def noRegs : List VReg := List.replicate 56 {}

/-- The handler entry of a class (R311 TRAPVEC, R318 step 5). -/
def vectorEntry (s : State) (c cls : Nat) : Except Cause Nat :=
  devNat s c ((ctxOf s c).trapvec.toNat / 32 * 32 + 4 * cls) 4

/-- Trap entry of a quiet warp (R318): the frame, unmapped registers, s62 and s63, the handler's address in every
LIVE lane. A fault on the way is context-level (R312), with the base of the frame or of the vector table as its address
(assumption 127, DESIGN CHOICE). -/
def trapEnter (s : State) (w : Warp) (t : TrapInfo) : State :=
  match writeFrame s w (some t) with
  | .error (k, s') => ctxFault (setWarp s' { w with trapping := none }) w.ctx k (some w.core) (some w.num) (.ofNat 64 (frameAddr s w))
  | .ok s' =>
    match vectorEntry s' w.ctx ((causeClass t.cause).getD 0) with
    | .error k =>
      ctxFault (setWarp s' { w with trapping := none }) w.ctx k (some w.core) (some w.num) (ctxOf s w.ctx).trapvec
    | .ok entry =>
      let regs := { w.regs with
        v := noRegs, order := [], flags := 0
        s := setAt 0 (setAt 0 w.regs.s 62 (.ofNat 64 (frameAddr s w))) 63 ((causeWord t).setWidth 64) }
      let w' := { w with
        regs := regs, limbst := 0, f := List.replicate 12 0, yielded := false, starve := 0
        pc := laneIdx.map (fun l => if laneBit w.exited l then getAt 0 w.pc l else .ofNat 32 entry)
        depth := laneIdx.map (fun l => if laneBit w.exited l then getAt 0 w.depth l else 0)
        rep := laneIdx.map (fun l => if laneBit w.exited l then getAt 0 w.rep l else 0)
        inHandler := true, trapping := none, chain := none, parked := [], holds := [], attempt := {}
        earlyV := [], earlyS := [], earlyM := [], stack := [], noPrev := true, stepSet := none }
      offRecords (setWarp s' w') w.ctx (fun n => n == w.num)

/-- Enters the trap a warp waits to take, once it is quiet (R318 step 1). -/
def pumpTrap (s : State) (c n : Nat) : State :=
  match warpFind s c n with
  | some w =>
    match w.trapping with
    | some t => if quiet w && w.rupds.isEmpty then trapEnter s w t else s
    | none => s
  | none => s

/-! ## Debug halts (R508, R512) -/

/-- The ordinal of a code offset in the safe-point list (R508), or 0xFFFFFFFF. -/
def ordinalFrom (s : State) (c off : Nat) (base : Nat) : Nat → Nat → Nat
  | 0, _ => 0xFFFFFFFF
  | n + 1, i =>
    match devNat s c (base + 4 * i) 4 with
    | .ok v => if v = off then i else ordinalFrom s c off base n (i + 1)
    | .error _ => 0xFFFFFFFF

def ordinalOf (s : State) (c off : Nat) : Nat :=
  match (ctxOf s c).safept with
  | some (base, n) => ordinalFrom s c off base.toNat n 0
  | none => 0xFFFFFFFF

/-- Whether a warp is in the granule that STOPSCOPE names around another (R509, R512). -/
def inGranule (scope : Nat) (w x : Warp) : Bool :=
  x.ctx == w.ctx &&
  (match scope with
   | 0 => x.num == w.num
   | 1 => x.num == w.num || (w.blk.isSome && x.blk == w.blk)
   | 2 => dieOf x.core == dieOf w.core
   | _ => true)

/-- The warps of a granule around a warp halt, and no last-warp record names one of them (R245, R512). -/
def haltGranule (s : State) (w : Warp) (scope : Nat) : State :=
  offRecords { s with warps := s.warps.map (fun x =>
      if inGranule scope w x ∧ x.halted.isNone then { x with halted := some 0, yielded := false, starve := 0 } else x) }
    w.ctx (fun n => n == w.num || s.warps.any (fun x => x.num == n && inGranule scope w x))

/-- What a halt at a scope leaves in the context: its halted dies at die scope, its state at context scope (R512, R513). -/
def haltScope (s : State) (w : Warp) (scope : Nat) : State :=
  let x := ctxOf s w.ctx
  if scope = 2 then setCtx s w.ctx { x with haltDies := dieOf w.core :: x.haltDies.filter (fun d => !(d == dieOf w.core)) }
  else if scope = 3 ∧ (x.st = .running ∨ x.st = .runnable) then setCtx s w.ctx { x with st := .halted }
  else s

/-- A warp as a debug cause halts it. -/
def haltedBy (w : Warp) (t : TrapInfo) : Warp :=
  { w with halted := some (causeWord t), haltInfo := some t, stepSet := none, yielded := false, starve := 0 }

/-- The payload of a DEBUG_EVENT (R512). -/
def debugEvent (s : State) (w : Warp) (t : TrapInfo) (pc : BitVec 32) : List Byte :=
  natLe 1 w.ctx ++ [0, 0, 0] ++ natLe 4 w.num ++ natLe 4 (causeWord t).toNat ++ natLe 4 (ordinalOf s w.ctx pc.toNat)

/-- A debug cause while the debugger holds the context (R512): the granule halts and DEBUG_EVENT goes out. -/
def debugHalt (s : State) (w : Warp) (t : TrapInfo) (pc : BitVec 32) : State :=
  let scope := field ((ctxOf s w.ctx).dbgctl.setWidth 64) 7 6
  devSend (haltScope (haltGranule (setWarp s (haltedBy w t)) w scope) w scope) 0x40 (debugEvent s w t pc)

/-! ## Raising a cause -/

/-- A warp whose TRAP has raised its cause stands at the group after it in the lanes of the issuing split (R322). (assumption 109, DEDUCED) -/
def pastTrap (w : Warp) (t : TrapInfo) : Warp :=
  if t.skip = 0 then w
  else { w with pc := laneIdx.map (fun l => if laneBit t.spl l then getAt 0 w.pc l + BitVec.ofNat 32 t.skip else getAt 0 w.pc l) }

/-- The context-level fault of a warp's cause (R316, R321). -/
def faultAt (s : State) (w : Warp) (k : Cause) (t : TrapInfo) : State :=
  ctxFault (if t.skip = 0 then s else setWarp s (pastTrap w t)) w.ctx k (some w.core) (some w.num) t.faddr

/-- A precise or deferred cause of a warp (R316, R317, R321, R512): the handler of its class, the debugger's halt, or
the context-level fault. `pc` is the group it reports. -/
def raiseAt (s : State) (w : Warp) (t : TrapInfo) (pc : BitVec 32) : State :=
  let x := ctxOf s w.ctx
  if w.inHandler then faultAt s w .doubleTrap t
  else if causeClass t.cause = some 5 ∧ x.dbgctl.getLsbD 0 = true then debugHalt s w t pc
  else
    match causeClass t.cause with
    | none => faultAt s w t.cause t
    | some cls =>
      if x.trapctl.getLsbD cls then
        pumpTrap (setWarp s { w with trapping := some t }) w.ctx w.num
      else faultAt s w t.cause t

/-! ## Returning from a trap, and reloading a saved warp (R323, R329) -/

/-- The bytes of a frame, in pieces. -/
def readFrame (s : State) (w : Warp) : Except Cause (List Byte) := devRead s w.ctx (frameAddr s w) 8192

/-- A field of a frame. -/
def fr (bs : List Byte) (off n : Nat) : Nat := leNat ((bs.drop off).take n)

/-- Whether a frame is refused by TRET (R323) for the LIVE lanes of a warp, those among them that its EXITED retires. -/
def frameBad (w : Warp) (bs : List Byte) : Bool :=
  fr bs 207 1 != 0 || 5 < fr bs 220 4 ||
  laneIdx.any (fun l => !(laneBit w.exited l) &&
    (fr bs (4 * l) 4 % 2 == 1 || 63 < fr bs (468 + l) 1))

/-- The warp as a frame restores it (R323): entries, scalars, masks, FLAGS, LIMBST, CARRYX, LIM, counters, and each
register whose map bit is set. -/
def loadFrame (w : Warp) (bs : List Byte) : Warp :=
  let ex : LaneMask := w.exited ||| BitVec.ofNat 32 (fr bs 160 4)
  let keep (l : Nat) : Bool := laneBit w.exited l
  let lim := fr bs 216 2
  { w with
    exited := ex
    pc := laneIdx.map (fun l => if keep l then getAt 0 w.pc l else .ofNat 32 (fr bs (4 * l) 4))
    depth := laneIdx.map (fun l => if keep l then getAt 0 w.depth l else .ofNat 8 (fr bs (128 + l) 1))
    rep := laneIdx.map (fun l => if keep l then getAt 0 w.rep l else .ofNat 6 (fr bs (468 + l) 1))
    regs :=
      { v := (List.range 56).map (fun n =>
          if fr bs 200 8 / 2 ^ n % 2 = 1 then
            ({ st := .mapped, val := lanesFromBytes ((bs.drop (1024 + 128 * n)).take 128) } : VReg)
          else {})
        order := (List.range 56).filter (fun n => fr bs 200 8 / 2 ^ n % 2 == 1)
        s := (List.range 64).map (fun n => .ofNat 64 (fr bs (512 + 8 * n) 8))
        m := (List.range 16).map (fun n => if n = 0 then 0 else .ofNat 32 (fr bs (264 + 4 * n) 4))
        flags := .ofNat 32 (fr bs 188 4 % 64)
        q := .ofNat 32 (fr bs 236 4)
        draw := .ofNat 32 (fr bs 240 4) }
    limbst := .ofNat 3 (fr bs 220 4)
    carryx := (List.range 32).map (fun n => .ofNat 32 (fr bs (328 + 4 * n) 4))
    stackLim := if lim ≤ w.stackMax.toNat then .ofNat 16 lim else w.stackMax
    f := List.replicate 12 0
    inHandler := false
    chain := none, earlyV := [], earlyS := [], earlyM := [], noPrev := true, attempt := {} }

end Sys2Proof.Machine
end

