-- ==== Sys2Proof/WellFormed.lean ====
section
/-! DEFINITION. Which values of `Instr` are well formed: an instruction of the stream by the rules of its encoding
(03_encoding.md R72 to R101), an event or operation by the ranges of what it names (26_link.md R488, R489; 01_device.md
R1; 12_word.md R248). -/

namespace Sys2Proof

/-- A message (R486, R488): a port of the package, and a payload of the length its header names; a READ carries no payload, and
its LEN is the number of bytes wanted (R491). -/
def msgOk (m : Msg) : Bool := decide (m.port ≤ 8) && decide (m.payload.length = m.len.toNat) && decide (m.payload.length ≤ 4096)

/-- A management message of one code of R500. -/
def mgmtOk (op : BitVec 8) (m : Msg) : Bool := msgOk m && m.op == op

/-- Whether an instruction, operation or event is well formed. -/
def wellFormed (i : Instr) : Bool :=
  match i with
  | .thermalTrip k => decide (k ≤ 12)
  | .thermalWarning k _ => decide (k ≤ 12)
  | .temperatureReport ts _ => ts.all (fun t => decide (t.1 ≤ 12))
  | .energyInterval es => es.all (fun e => decide (e.island < 40))
  | .islandTransitionDone k => decide (k < 40)
  | .patrolScrub r => r.corrected.all (fun c => decide (c.1 < 40))
  | .coreFailure c => decide (c < 1024)
  | .portTrainingDone p _ => decide (p ≤ 8)
  | .portTrainingTimeout p => decide (p ≤ 8)
  | .portRetrain p => decide (p ≤ 8)
  | .laneFailure p _ => decide (p ≤ 8)
  | .laneRestore p _ => decide (p ≤ 8)
  | .claimNonceExpiry p _ => decide (p ≤ 8)
  | .retransmitTimeout p _ => decide (p ≤ 8)
  | .openConn m => mgmtOk 0x01 m
  | .close m => mgmtOk 0x02 m
  | .regread m => mgmtOk 0x03 m
  | .regwrite m => mgmtOk 0x04 m
  | .featacceptWrite m => mgmtOk 0x04 m
  | .islandGo m => mgmtOk 0x04 m
  | .portEnable m => mgmtOk 0x04 m
  | .portDisable m => mgmtOk 0x04 m
  | .debugRegisterWrite m => mgmtOk 0x04 m
  | .claim m => mgmtOk 0x08 m
  | .handover m => mgmtOk 0x09 m
  | .release m => mgmtOk 0x0A m
  | .cancel m => mgmtOk 0x0B m
  | .reset m => mgmtOk 0x0C m
  | .attest m => mgmtOk 0x0D m
  | .fwStage m => mgmtOk 0x10 m
  | .fwActivate m => mgmtOk 0x11 m
  | .fwAdvance m => mgmtOk 0x12 m
  | .spare m => mgmtOk 0x13 m
  | .invalidate m => mgmtOk 0x15 m
  | .resolve m => mgmtOk 0x16 m
  | .unresolvable m => mgmtOk 0x17 m
  | .build m => mgmtOk 0x20 m
  | .run m => mgmtOk 0x21 m
  | .preempt m => mgmtOk 0x22 m
  | .resume m => mgmtOk 0x23 m
  | .teardown m => mgmtOk 0x24 m
  | .qCreate m => mgmtOk 0x28 m
  | .qReset m => mgmtOk 0x29 m
  | .qDestroy m => mgmtOk 0x2A m
  | .loadGraph m => mgmtOk 0x2C m
  | .unloadGraph m => mgmtOk 0x2D m
  | .setTid m => mgmtOk 0x30 m
  | .setFabwin m => mgmtOk 0x31 m
  | .setSafept m => mgmtOk 0x32 m
  | .setBbc m => mgmtOk 0x33 m
  | .setRing m => mgmtOk 0x34 m
  | .halt m => mgmtOk 0x38 m
  | .dresume m => mgmtOk 0x39 m
  | .step m => mgmtOk 0x3A m
  | .readWarp m => mgmtOk 0x3B m
  | .writeWarp m => mgmtOk 0x3C m
  | .read m => decide (m.port ≤ 8) && m.payload.isEmpty
  | .write m => msgOk m
  | .writeRel m => msgOk m
  | .atomic m => msgOk m
  | .trigger m => msgOk m
  | .completion m => msgOk m
  | .completionQueueRdWrite m => mgmtOk 0x04 m
  | i => Legal.codeLegal i

end Sys2Proof
end

