-- ==== Sys2Proof/Machine/Operands.lean ====
section
/-! DEFINITION. Operands: how a group reads each operand form, how results are written, the pool of physical registers
with its spills and refills, and last-use releases (03_encoding.md R80, R90; 04_thread.md R135; 05_register.md R138 to
R149; 11_issue.md R235). -/

namespace Sys2Proof.Machine

/-! ## Reads (R80, R138, R140, R235) -/

/-- Whether an operation of a warp is still out. -/
def isOut (w : Warp) (id : Nat) : Bool := w.pend.any (fun p => p.id == id)

/-- Whether an earlier write may still be undelivered (R235). -/
def earlyV? (w : Warp) (e : EarlyV) : Bool := decide (w.now < e.ready) || e.after.any (isOut w)

/-- The other values that a read of a lane of a vector register may return: those before writes not surely delivered,
and those of operations under way (R140, R235). -/
def otherV (w : Warp) (n l : Nat) : List Word :=
  (w.earlyV.filter (fun e => e.reg == n && laneBit e.lanes l && earlyV? w e)).map (fun e => lane e.old l) ++
  w.pend.filterMap (fun p => if p.vdst = some n ∧ laneBit p.lanes l = true then getAt none p.vals l else none)

/-- Whether some lane of a vector register may return another value. -/
def unsettledV (w : Warp) (n : Nat) : Bool :=
  w.earlyV.any (fun e => e.reg == n && earlyV? w e) || w.pend.any (fun p => p.vdst == some n)

/-- One of the values allowed, by the free choice (R235). -/
def pickOf {α : Type} (draw key l : Nat) (cur : α) (others : List α) : α :=
  match others with
  | [] => cur
  | _ => getAt cur (cur :: others) (Config.earlyPick draw key l % (others.length + 1))

/-- A vector register as a group reads it. -/
def readReg (w : Warp) (r : Regs) (draw n : Nat) : Lanes :=
  if unsettledV w n then laneIdx.map (fun l => pickOf draw n l (lane (vGet r n) l) (otherV w n l)) else vGet r n

/-- A vector operand code as a source (R80): v0 to v55, latches, zero, lane index. -/
def readV (w : Warp) (r : Regs) (draw : Nat) (code : BitVec 6) : Lanes :=
  let n := code.toNat
  if n ≤ 55 then readReg w r draw n
  else if n ≤ 59 then getAt [] w.x (n - 56)
  else if n = 61 then laneIdx.map (fun l => .ofNat 32 l)
  else []

/-- A scalar register as a group reads it (R136, R235). -/
def readS (w : Warp) (r : Regs) (draw n : Nat) : DWord :=
  pickOf draw (64 + n) 0 (sGet r n)
    ((w.earlyS.filter (fun e => e.reg == n && decide (w.now < e.ready))).map (fun e => e.old))

/-- A mask register as a group reads it (R135, R235, R228). -/
def readM (w : Warp) (r : Regs) (draw n : Nat) : LaneMask :=
  if n = 0 then 0xFFFFFFFF#32
  else
    let es := w.earlyM.filter (fun e => e.reg == n && decide (w.now < e.ready))
    let ps := w.pend.filter (fun p => p.mres.any (fun q => q.1 == n))
    if es.isEmpty ∧ ps.isEmpty then mGet r n
    else mkMask (fun l => pickOf draw (128 + n) l (laneBit (mGet r n) l)
      ((es.filter (fun e => laneBit e.lanes l)).map (fun e => laneBit e.old l) ++
       ps.flatMap (fun p => (p.mres.filter (fun q => q.1 == n && laneBit q.2.1 l)).map (fun q => laneBit q.2.2 l))))

/-! ## Writes and releases (R138, R139, R141 to R143) -/

/-- The lanes of a list in a mask, from one list there and another elsewhere. -/
def blend (m : LaneMask) (new old : Lanes) : Lanes := laneIdx.map (fun l => if laneBit m l then lane new l else lane old l)

/-- A write to a vector register (R138, R139): an unmapped one is mapped, its other lanes zero. -/
def putV (r : Regs) (w : VWrite) : Regs :=
  match (vEntry r w.reg).st with
  | .mapped => { r with v := setAt {} r.v w.reg ⟨.mapped, blend w.lanes w.val (vEntry r w.reg).val⟩ }
  | _ => { r with v := setAt {} r.v w.reg ⟨.mapped, blend w.lanes w.val []⟩, order := r.order ++ [w.reg] }

/-- A vector register's release (R138, R141). -/
def freeV (r : Regs) (n : Nat) : Regs := { r with v := setAt {} r.v n {}, order := r.order.filter (fun x => !(x == n)) }

/-- A scalar write (R136). -/
def putS (r : Regs) (n : Nat) (x : DWord) : Regs := { r with s := setAt 0 r.s n x }

/-- A mask write in some lanes (R135). -/
def putM (r : Regs) (n : Nat) (lanes val : LaneMask) : Regs := mPut r n ((val &&& lanes) ||| (mGet r n &&& ~~~ lanes))

/-- A member's releases, then its writes (R142). -/
def applyMember (r : Regs) (m : Member) : Regs :=
  let r := m.relV.foldl freeV r
  let r := m.relS.foldl (fun r n => putS r n 0) r
  let r := m.wrV.foldl putV r
  m.wrS.foldl (fun r p => putS r p.1 p.2) r

/-- A chain's effects at its end, member by member (R154 rule 5). -/
def applyMembers (r : Regs) (ms : List Member) : Regs := ms.foldl applyMember r

/-- The registers as the next member of a chain reads them: results written, releases not yet, but for a register that
is written again after its release (R142, R154 rule 5). -/
def viewMembers : Regs → List Nat → List Member → Regs
  | r, _, [] => r
  | r, freed, m :: ms =>
    let freed := freed ++ m.relV
    let r := m.wrV.foldl (fun r w => putV (if freed.contains w.reg then freeV r w.reg else r) w) r
    let r := m.wrS.foldl (fun r p => putS r p.1 p.2) r
    viewMembers r (freed.filter (fun n => !(m.wrV.any (fun w => w.reg == n)))) ms

/-! ## Ages (R146, R346) -/

/-- Whether launch sequence a precedes b, through their wrap (R346). -/
def seqBefore (a b : BitVec 64) : Bool := a != b && decide ((b - a).toNat < 2 ^ 63)

/-- Whether a warp is older than another (R146). -/
def older (a b : Warp) : Bool :=
  if a.age.seq ≠ b.age.seq then seqBefore a.age.seq b.age.seq
  else if a.age.cls ≠ b.age.cls then b.age.cls
  else if a.age.ord ≠ b.age.ord then decide (a.age.ord.toNat < b.age.ord.toNat)
  else decide (a.num < b.num)

/-- The oldest of some warps. -/
def oldest : List Warp → Option Warp
  | [] => none
  | w :: ws =>
    match oldest ws with
    | none => some w
    | some x => if older x w then some x else some w

/-- The youngest of some warps. -/
def youngest : List Warp → Option Warp
  | [] => none
  | w :: ws =>
    match youngest ws with
    | none => some w
    | some x => if older w x then some x else some w

/-- Whether a warp stands in a slot of a core. -/
def onCore (core : Nat) (w : Warp) : Bool :=
  w.core == core && (match w.place with | .resident => true | .landed => true | .departing _ _ => true | _ => false)

/-- The resident warps of a core. -/
def residents (s : State) (core : Nat) : List Warp := s.warps.filter (onCore core)

/-! ## The pool (R144, R145, R147, R149) -/

/-- The registers that a warp holds or has set aside (R144). -/
def holding (w : Warp) : Nat := if w.desched then mappedCount w.regs else max (mappedCount w.regs) w.floor

/-- F of a core, with one warp as it stands in hand (R144). -/
def freeRegs (s : State) (w : Warp) : Nat :=
  Config.poolSize - (((residents s w.core).map (fun x =>
    if x.ctx = w.ctx ∧ x.num = w.num then holding w else holding x)).foldl (· + ·) 0)

/-- Whether a register has an outstanding write (R140). -/
def outstanding (w : Warp) (n : Nat) : Bool := w.pend.any (fun p => p.vdst == some n)

/-- Writes one register to the backing area and marks it SPILLED (R149). -/
def spillOne (s : State) (w : Warp) (n : Nat) : Except (Cause × State) (State × Warp) :=
  match devWrite s w.ctx (backAddr s w + 128 * n) (laneBytes (vGet w.regs n)) with
  | .error e => .error e
  | .ok s =>
    .ok (ownDrop s w (backAddr s w + 128 * n) 128,
      { w with regs := { w.regs with v := setAt {} w.regs.v n ⟨.spilled, []⟩
                                     order := w.regs.order.filter (fun x => !(x == n)) } })

/-- Writes several. -/
def spillList (s : State) (w : Warp) : List Nat → Except (Cause × State) (State × Warp)
  | [] => .ok (s, w)
  | n :: ns =>
    match spillOne s w n with
    | .error e => .error e
    | .ok (s, w) => spillList s w ns

/-- The bit map of the SPILLED registers. -/
def spilledMap (r : Regs) : Nat :=
  (List.range 56).foldl (fun n i => if (vEntry r i).st = .spilled then n + 2 ^ i else n) 0

/-- Writes the map word, and at a victim spill the reserved bytes after it (R149). -/
def writeMap (s : State) (w : Warp) (victim : Bool) : Except (Cause × State) State :=
  (devWrite s w.ctx (7168 + backAddr s w) (natLe 8 (spilledMap w.regs) ++ (if victim then List.replicate 1016 0 else []))).map
    (fun s => ownDrop s w (7168 + backAddr s w) 1024)

/-- Spills registers of a warp in hand and its map word. -/
def spillRegs (s : State) (w : Warp) (ns : List Nat) (victim : Bool) : Except (Cause × State) (State × Warp) :=
  match spillList s w ns with
  | .error e => .error e
  | .ok (s, w) =>
    match writeMap s w victim with
    | .error e => .error e
    | .ok s => .ok (s, w)

/-- A victim's spill (R145 step 2): every MAPPED register, descheduled, SPILLS counted. (assumption 14, DEDUCED) -/
def spillVictim (s : State) (v : Warp) : Except (Cause × State) (State × Warp) :=
  match spillRegs s v v.regs.order true with
  | .error e => .error e
  | .ok (s, v) =>
    let x := ctxOf s v.ctx
    .ok (setCtx s v.ctx { x with spills := x.spills + 1 }, { v with desched := true })

/-- What asking the pool for a register answers. -/
inductive Grant where
  | ok (s : State) (w : Warp)
  /-- the warp is held: until a landing, or as its own victim until its refill -/
  | held (s : State) (w : Warp)
  /-- a spill or refill of a warp met a fault: context-level, of that warp's context (R148) -/
  | failed (k : Cause) (s : State) (v : Warp)

/-- How far a warp bound to a role is past its cap. -/
def overCap (w : Warp) : Nat := if w.role = 0 then 0 else mappedCount w.regs - w.cap

/-- The victim of R145 step 2: the youngest resident warp of the core that holds a register or has one set aside, the oldest left
out. -/
def victimOf (s : State) (core : Nat) : Option Warp :=
  let rs := residents s core
  let old := oldest rs
  youngest (rs.filter (fun x => decide (0 < holding x) &&
    !(match old with | some o => o.ctx == x.ctx && o.num == x.num | none => false)))

/-- A physical register for a warp (R144, R145). At its cap, the warp's earliest register is spilled as the write takes effect
(`trimCap`); the members of a latch chain write when the chain ends (R154 rule 5), and the pool is settled then (`trimPool`). (assumption
120, DEDUCED) -/
def poolGrant (s : State) (w : Warp) (chained : Bool) : Grant :=
  if mappedCount w.regs < w.floor then .ok s w
  else if chained then .ok s w
  else if w.role ≠ 0 ∧ w.cap ≤ mappedCount w.regs then
    if (w.regs.order.take (overCap w + 1)).any (outstanding w) then .held s { w with holds := .retry :: w.holds } else .ok s w
  else if 0 < freeRegs s w then .ok s w
  else
    match victimOf s w.core with
    | none => .held s { w with holds := .retry :: w.holds }
    | some v =>
      if v.ctx = w.ctx ∧ v.num = w.num then
        if w.regs.order.any (outstanding w) then .held s { w with holds := .retry :: w.holds }
        else
          match spillVictim s w with
          | .error (k, s) => .failed k s w
          | .ok (s, w) => .held s { w with holds := .refill :: w.holds }
      else if v.regs.order.any (outstanding v) then .held s { w with holds := .retry :: w.holds }
      else
        match spillVictim s v with
        | .error (k, s) => .failed k s v
        | .ok (s, v) => .ok (setWarp s v) w

/-- Spills of R145 step 1 that a warp owes: its registers mapped earliest, down to its cap. -/
def trimCap (s : State) (w : Warp) : State :=
  let ns := w.regs.order.take (overCap w)
  if ns.isEmpty || ns.any (outstanding w) then s
  else
    match spillRegs s w ns false with
    | .error (k, s) => ctxFault s w.ctx k (some w.core) (some w.num) (.ofNat 64 (backAddr s w))
    | .ok (s, w) => setWarp s w

/-- Spills of R145 step 2 that a core owes: victims, while more registers are held or set aside than it has; `n` bounds them. -/
def trimPool (s : State) (core : Nat) : Nat → State
  | 0 => s
  | n + 1 =>
    if ((residents s core).map holding).foldl (· + ·) 0 ≤ Config.poolSize then s
    else
      match victimOf s core with
      | none => s
      | some v =>
        if v.regs.order.any (outstanding v) then s
        else
          match spillVictim s v with
          | .error (k, s) => ctxFault s v.ctx k (some v.core) (some v.num) (.ofNat 64 (backAddr s v))
          | .ok (s, v) => trimPool (setWarp s v) core n

/-- Reads a SPILLED register back into a physical register that the pool has granted (R147). -/
def refillOne (s : State) (w : Warp) (n : Nat) : Except Cause Warp :=
  match devRead s w.ctx (backAddr s w + 128 * n) 128 with
  | .error k => .error k
  | .ok bs => .ok { w with regs := { w.regs with v := setAt {} w.regs.v n ⟨.mapped, lanesFromBytes bs⟩
                                                 order := w.regs.order ++ [n] } }

/-- Refills one register that a group names: a physical register, its lanes read back, the map word written (R147). -/
def refillFor (s : State) (w : Warp) (chained : Bool) (n : Nat) : Grant :=
  match poolGrant s w chained with
  | .held s w => .held s w
  | .failed k s v => .failed k s v
  | .ok s w =>
    match refillOne s w n with
    | .error k => .failed k s w
    | .ok w =>
      match writeMap s w false with
      | .error e => .failed e.1 e.2 w
      | .ok s => .ok s w

/-- Makes the registers that a group names ready: SPILLED ones are refilled, and an UNMAPPED destination is sure of a
physical register (R138, R144, R145). -/
def readyRegs (s : State) (w : Warp) (chained : Bool) (dst : Option Nat) : List Nat → Grant
  | [] =>
    match dst with
    | none => .ok s w
    | some d => if (vEntry w.regs d).st = .unmapped then poolGrant s w chained else .ok s w
  | n :: ns =>
    if (vEntry w.regs n).st = .spilled then
      match refillFor s w chained n with
      | .ok s w => readyRegs s w chained dst ns
      | .held s w => .held s w
      | .failed k s v => .failed k s v
    else readyRegs s w chained dst ns

/-! ## Landing (R140, R142, R183, R227) -/

/-- Lowers a completion flag by one (R137). -/
def lowerFlag (w : Warp) (f : Option Nat) : Warp :=
  match f with
  | some n => { w with f := setAt 0 w.f n (getAt 0 w.f n - 1) }
  | none => w

/-- Raises a completion flag by one (R137). -/
def raiseFlag (w : Warp) (f : Option Nat) : Warp :=
  match f with
  | some n => { w with f := setAt 0 w.f n (getAt 0 w.f n + 1) }
  | none => w

/-- A landing's values in the registers: the lanes not overtaken; then a release that waited for it (R140). -/
def landRegs (r : Regs) (p : POp) (others : Bool) : Regs :=
  let r :=
    match p.vdst with
    | some n =>
      if n ≤ 55 ∧ (vEntry r n).st = .mapped then
        { r with v := setAt {} r.v n ⟨.mapped, laneIdx.map (fun l =>
            if laneBit p.lanes l && !(laneBit p.overtaken l) then (getAt none p.vals l).getD (lane (vGet r n) l)
            else lane (vGet r n) l)⟩ }
      else r
    | none => r
  let r := p.mres.foldl (fun r q => putM r q.1 q.2.1 q.2.2) r
  let r := { r with flags := r.flags ||| p.flagsOr }
  match p.vdst with
  | some n => if p.release && !others && decide (n ≤ 55) then freeV r n else r
  | none => r

/-- A landing's scalar in the registers (R172). -/
def landS (r : Regs) (p : POp) (sval : Option DWord) : Regs :=
  match p.sdst, sval with
  | some n, some x => putS r n x
  | _, _ => r

/-- A landing as the latch chain under way sees it (R140, R154 rules 5 and 6). An operation issued before the head lands in the
registers before the head as well, in the lanes that no write before the head had overtaken; one that a member issued joins the
members' effects. A release that waited for it joins them too, if a member made it. -/
def landChain (ch : Chain) (pend : List POp) (p : POp) (others : Bool) (sval : Option DWord) : Chain :=
  let rel : List Member := match p.vdst with
    | some n => if p.release && !others then [⟨[n], [], [], []⟩] else []
    | none => []
  match ch.snapPend.find? (fun q => q.1 == p.id) with
  | some q =>
    let before := pend.any (fun x => x.vdst == p.vdst && p.vdst.isSome && ch.snapPend.any (fun y => y.1 == x.id))
    { ch with snap := landS (landRegs ch.snap { p with overtaken := q.2.1, release := q.2.2 } before) p sval
              members := if q.2.2 then ch.members else ch.members ++ rel }
  | none =>
    let w : List VWrite := match p.vdst with
      | some n => [⟨n, p.lanes &&& ~~~ p.overtaken, laneIdx.map (fun l => (getAt none p.vals l).getD 0)⟩]
      | none => []
    let sc : List (Nat × DWord) := match p.sdst, sval with | some n, some x => [(n, x)] | _, _ => []
    { ch with members := ch.members ++ [⟨[], [], w, sc⟩] ++ rel }

/-- The least latency of an operation (R234). -/
def leastLatency : OpKind → Nat
  | .load _ _ => 36
  | .sld => 36
  | .scratch _ => 20
  | .sfu => 12
  | .atom => 120
  | _ => 0

/-- The cycle from which an operation that has landed is known to have (R234). -/
def landedAt (p : POp) : Nat := p.ready.getD (p.born + leastLatency p.kind)

/-- Notes when the flag of an operation that has landed reads so, and when the warp that was held for it may issue (R183, R234). -/
def noteLanded (w : Warp) (p : POp) : Warp :=
  { w with
    flagAt := match p.flag with | some n => setAt 0 w.flagAt n (max (getAt 0 w.flagAt n) (landedAt p)) | none => w.flagAt
    notBefore := if w.holds.contains (.op p.id) then max w.notBefore (landedAt p) else w.notBefore
    holds := w.holds.filter (fun h => !(h == .op p.id)) }

/-- Ends the hold for long-integer results once f11 reads zero (R228). -/
def endLongHold (w : Warp) : Warp :=
  if getAt 0 w.f 11 = 0 then { w with holds := w.holds.filter (fun h => !(h == .long)) } else w

/-- Lands an operation of a warp: its register results, its flag count, the hold that waits for it. -/
def landOp (w : Warp) (p : POp) (sval : Option DWord) : Warp :=
  let pend := w.pend.filter (fun q => !(q.id == p.id))
  let others := pend.any (fun q => q.vdst == p.vdst && p.vdst.isSome)
  let pend := if others && p.release then
      pend.map (fun q => if q.vdst = p.vdst then { q with release := true } else q) else pend
  endLongHold (lowerFlag { noteLanded w p with
    regs := landS (landRegs w.regs p others) p sval, pend := pend
    chain := w.chain.map (fun ch => landChain ch pend p others sval)
    carryx := p.carry.foldl (fun c q => setAt 0 c q.1 q.2) w.carryx } p.flag)

/-- Whether an operation may land before those issued before it: long-integer results land in issue order (R228). -/
def landsNext (w : Warp) (p : POp) : Bool :=
  !(p.kind == .long) || (w.pend.find? (fun q => q.kind == .long)).all (fun q => q.id == p.id)

/-- Lands the operations of a warp that a test picks, in issue order. -/
def landWhere (f : Warp → Nat → Bool) (w : Warp) : Warp :=
  w.pend.foldl (fun w p =>
    match p.ready with
    | some t => if f w t && landsNext w p then landOp w p none else w
    | none => w) w

/-- Operations of a warp that have surely landed by its clock (R183, R227): SFU and long-integer results. -/
def autoLand (w : Warp) : Warp := landWhere (fun w t => decide (t ≤ w.now)) w

/-- Those that have landed before the cycle of its clock; what lands in that cycle follows its issue (R13). -/
def autoLandBefore (w : Warp) : Warp := landWhere (fun w t => decide (t < w.now)) w

/-- FLAGS bits that an operation of the warp sets on its own, in the registers before a latch chain under way as well (R58, R154). -/
def orFlags (w : Warp) (fl : BitVec 32) : Warp :=
  let set (r : Regs) : Regs := { r with flags := r.flags ||| fl }
  { w with regs := set w.regs, chain := w.chain.map (fun ch => { ch with snap := set ch.snap }) }

/-! ## Retries -/

/-- Ends the holds that wait for the next step of the machine. (assumption 103, DEDUCED) -/
def wake (s : State) : State :=
  { s with warps := s.warps.map (fun w => { w with holds := w.holds.filter (fun h => !(h == .retry)) }) }

end Sys2Proof.Machine
end

