-- ==== Sys2Proof/Machine/Issue.lean ====
section
/-! DEFINITION. Issuing a group: what every instruction of the stream shares, from the tests before it executes to what
its completion leaves (03_encoding.md R77, R90 to R92, R524; 04_thread.md R112 to R120; 05_register.md R141, R142,
R153, R154; 10_limbs.md R223; 11_issue.md R233, R240, R243; 27_debug.md R510, R516). -/

namespace Sys2Proof.Machine

/-! ## The group of an instruction -/

/-- A group as it issues: its instruction of 32 bits (the equivalent one for a lane form, R77), its length, distance in
cycles, and the word and PREFIX word that a frame reports. -/
structure Shape where
  code : Code
  len : Nat
  dist : Nat
  insn : BitVec 32
  pfxw : BitVec 32
  deriving DecidableEq, Repr

/-- Distance in cycles (R233). -/
def distCc (d : BitVec 2) : Nat := if d = 0 then 1 else if d = 1 then 2 else if d = 2 then 4 else 6

/-- A group without PREFIX, REPEAT or stop bit at distance 4 cc, as a lane form has it (R77). -/
def plainGrp : Grp := ⟨false, 2, none, none⟩

/-- The equivalent of a lane form with format A (R77). -/
def compactA (major sel : Nat) (o : OpsC16) : Code :=
  ⟨major, sel, plainGrp, .A ⟨o.rd.setWidth 6, o.rd.setWidth 6, o.rs.setWidth 6, false, o.ls⟩⟩

/-- The instruction of 32 bits whose effect a lane form has (R77). -/
def compactCode (op5 : Nat) (o : OpsC16) : Code :=
  match op5 with
  | 1 => compactA 0x01 0 o
  | 2 => compactA 0x01 1 o
  | 3 => compactA 0x01 2 o
  | 4 => compactA 0x04 0 o
  | 5 => compactA 0x04 1 o
  | 6 => compactA 0x04 2 o
  | 8 => compactA 0x05 0 o
  | 9 => compactA 0x05 1 o
  | 10 => compactA 0x05 2 o
  | 11 => ⟨0x0F, 0, plainGrp, .U ⟨o.rd.setWidth 6, o.rs.setWidth 6, o.ls, 7⟩⟩
  | 12 => compactA 0x0C 0 o
  | 13 => compactA 0x0C 1 o
  | 14 => compactA 0x0C 2 o
  | 16 => compactA 0x0D 0 o
  | 17 => compactA 0x0D 1 o
  | 18 => compactA 0x03 0 o
  | 20 => ⟨0x2E, 5, plainGrp, .T ⟨0, false, 0⟩⟩
  | _ => ⟨0x2E, 11, plainGrp, .T ⟨0, false, 0⟩⟩

/-- The group of an instruction; a WAIT stands as a NOP of 2 bytes here, its flags apart. -/
def shapeOf (i : Instr) : Option Shape :=
  match codeOf i with
  | some c => some ⟨c, instrLen i, distCc c.grp.dist, .ofNat 32 (baseWord c),
      match c.grp.pfx with | some p => .ofNat 32 (pfxWord p) | none => 0⟩
  | none =>
    match compactOf i with
    | some (op5, o) => some ⟨compactCode op5 o, 2, 4, .ofNat 32 (compactWord op5 o), 0⟩
    | none =>
      match i with
      | .wait fl => some ⟨compactCode 19 ⟨0, 0, false⟩, 2, 4, .ofNat 32 (14 + 16 * fl.toNat), 0⟩
      | _ => none

/-- A payload with its vector fields advanced to repetition j (R90). -/
def stepBody (r : Rpt) (j : Nat) : Body → Body
  | .A o => .A { o with d := Legal.stepped o.d r.stepD j, a := Legal.stepped o.a r.stepA j
                        b := Legal.stepped o.b r.stepB j }
  | .I o => .I { o with d := Legal.stepped o.d r.stepD j, a := Legal.stepped o.a r.stepA j }
  | .K o => .K { o with d := Legal.stepped o.d r.stepD j }
  | .U o => .U { o with d := Legal.stepped o.d r.stepD j, a := Legal.stepped o.a r.stepA j }
  | .X o => .X { o with d := Legal.stepped o.d r.stepD j, a := Legal.stepped o.a r.stepA j
                        b := Legal.stepped o.b r.stepB j }
  | .LD o => .LD { o with d := Legal.stepped o.d r.stepD j, a := Legal.stepped o.a r.stepA j }
  | .ST o => .ST { o with d := Legal.stepped o.d r.stepD j, a := Legal.stepped o.a r.stepA j }
  | .LDL o => .LDL { o with d := Legal.stepped o.d r.stepD j, a := Legal.stepped o.a r.stepA j }
  | .STL o => .STL { o with d := Legal.stepped o.d r.stepD j, a := Legal.stepped o.a r.stepA j }
  | b => b

/-- The instruction that repetition j executes (R90). -/
def stepCode (c : Code) (j : Nat) : Code :=
  match c.grp.rpt with
  | none => c
  | some r =>
    { c with body := stepBody r j c.body
             grp := { c.grp with pfx := c.grp.pfx.map (fun p => { p with c := Legal.stepped p.c r.stepC j }) } }

/-- The flags that a WAIT names (R236). -/
def waitFlags (sh : Shape) : Option (BitVec 12) :=
  if sh.len = 2 ∧ sh.insn.toNat % 16 = 14 then some (.ofNat 12 (sh.insn.toNat / 16)) else none

/-- How many times a group issues (R90). -/
def repeats (c : Code) : Nat :=
  match c.grp.rpt with
  | none => 1
  | some r => r.count.toNat + 1

/-! ## Tables of the instructions (R89, R117, R154, R223, R524) -/

/-- Singular instructions (R89). -/
def isSingular (c : Code) : Bool :=
  (c.major == 0x2F && c.sel ≤ 1) || (c.major == 0x30 && 2 ≤ c.sel) || (0x32 ≤ c.major && c.major ≤ 0x37) ||
  (c.major == 0x38 && c.sel ≤ 1) || c.major == 0x39

/-- Instructions with a vector operand field (R223). -/
def hasVector (c : Code) : Bool :=
  (1 ≤ c.major && c.major ≤ 0x0F) || c.major == 0x17 || c.major == 0x18 ||
  (0x1A ≤ c.major && c.major ≤ 0x2B) || (c.major == 0x2E && c.sel ≤ 1) || (c.major == 0x31 && c.sel == 1) ||
  (c.major == 0x36 && 2 ≤ c.sel)

/-- The completion flag that an instruction counts on (R84, R183, R227). -/
def flagOf (c : Code) : Option Nat :=
  match c.body with
  | .U o => if 10 ≤ c.sel ∧ c.sel ≤ 17 ∧ o.flag ≠ 7 then some o.flag.toNat else none
  | .LD o => some o.flag.toNat
  | .LDA o => some o.flag.toNat
  | .LDL o => some o.flag.toNat
  | .A _ => if c.major = 0x17 ∨ c.major = 0x18 then some 11 else none
  | _ => none

/-- Instructions that may stand only as a chain's last member (R154 rule 3, R221, R227, R280, R313, R391). -/
def closesChain (c : Code) : Bool :=
  (flagOf c).isSome || isSingular c || (0x20 ≤ c.major && c.major ≤ 0x22) || (0x24 ≤ c.major && c.major ≤ 0x2B) || c.major == 0x2D ||
  (c.major == 0x2E && c.sel ≠ 11 && c.sel ≠ 5) || c.major == 0x17 || c.major == 0x18 ||
  (c.major == 0x16 && c.sel == 1) || c.major == 0x31

/-- The latches that an instruction reads. -/
def latchReads (c : Code) : List Nat :=
  (Legal.uses c).srcs.filterMap (fun x =>
    match x with
    | .v code _ => if 56 ≤ code.toNat ∧ code.toNat ≤ 59 then some (code.toNat - 56) else none
    | _ => none)

/-- The co-issue class (R117). -/
def coIssuable (i : Instr) : Bool :=
  match codeOf i with
  | some c =>
    (1 ≤ c.major && c.major ≤ 0x0B && !(c.major == 2 && 2 ≤ c.sel)) || (0x0C ≤ c.major && c.major ≤ 0x0E) ||
    (c.major == 0x0F && (c.sel ≤ 9 || (18 ≤ c.sel && c.sel ≤ 23) || c.sel == 25)) ||
    (c.major == 0x19 && c.sel ≤ 4) || (0x1A ≤ c.major && c.major ≤ 0x1C)
  | none =>
    match compactOf i with
    | some (op5, _) => op5 ≤ 18
    | none => false

/-- The control registers that R310 assigns. -/
def csrAssigned (n : Nat) : Bool := n ≤ 0x006 || (0x008 ≤ n && n ≤ 0x00A) || (0x010 ≤ n && n ≤ 0x01B) || (0x040 ≤ n && n ≤ 0x05F)

/-- ILLEGAL for a feature not accepted, for a control register's number not assigned (R313), or for issue in handler (R524
position 1; R25, R301, R373, R375, R384, R385, R391). (assumption 111, DEDUCED) -/
def illegalHere (s : State) (w : Warp) (c : Code) : Bool :=
  (c.major == 0x39 && !(accepted s 2)) ||
  (c.major == 0x38 && c.sel ≤ 1 && (match c.body with | .S o => !(csrAssigned (o.sb.toNat * 64 + o.sa.toNat)) | _ => false)) ||
  (w.inHandler && ((c.major == 0x2F && c.sel ≤ 1) || (c.major == 0x30 && c.sel ≤ 1) || c.major == 0x31))

/-! ## Strands of a warp -/

/-- The record of the strand that a warp runs (R368): the entry of its tag, or its root record. (assumption 50, DEDUCED) -/
def strandOf (s : State) (w : Warp) : Strand :=
  let x := ctxOf s w.ctx
  if w.tag = 0 then (getKey (w.task.getD 0) x.roots).getD {}
  else ((x.strands.find? (fun e => e.tag == w.tag.toNat)).getD {})

/-- EXTEND (R365). -/
def extendKey (k : BitVec 64) (e : BitVec 32) : BitVec 64 :=
  let kl := ((k.setWidth 32 ^^^ e).rotateLeft 7) * 0x2C1B3C6D#32
  let kh := (((k >>> 32).setWidth 32 + e).rotateLeft 13) ^^^ kl
  kh ++ kl

/-- A strand's key sk (R366): its task's key extended by its counter entry. -/
def strandKey (e : Strand) : BitVec 64 := extendKey e.key e.ctr

/-- Replaces the record of the strand that a warp runs. -/
def setStrand (s : State) (w : Warp) (e : Strand) : State :=
  let x := ctxOf s w.ctx
  if w.tag = 0 then setCtx s w.ctx { x with roots := putKey (w.task.getD 0) e x.roots }
  else setCtx s w.ctx { x with strands := x.strands.map (fun y => if y.tag = e.tag then e else y) }

/-! ## One issue -/

/-- An issue in progress: the warp as the group finds it, the split, the instruction at its repetition, its group, ACTIVE,
and the registers it reads. -/
structure Iss where
  w : Warp
  split : LaneMask
  c : Code
  len : Nat
  pc : BitVec 32
  j : Nat
  last : Bool
  act : LaneMask
  regs : Regs
  draw : Nat
  chained : Bool
  second : Bool
  deriving DecidableEq, Repr

/-- A vector operand of an issue. -/
def Iss.v (i : Iss) (code : BitVec 6) : Lanes := readV i.w i.regs i.draw code
/-- A scalar operand of an issue. -/
def Iss.s (i : Iss) (n : Nat) : DWord := readS i.w i.regs i.draw n
/-- A mask operand of an issue. -/
def Iss.m (i : Iss) (n : Nat) : LaneMask := readM i.w i.regs i.draw n
/-- The PREFIX's mz (R86). -/
def Iss.mz (i : Iss) : Bool := match i.c.grp.pfx with | some p => p.mz | none => false
/-- The third source (R88). -/
def Iss.cv (i : Iss) : Lanes := match i.c.grp.pfx with | some p => i.v p.c | none => []
/-- The warp's leader lane (R119). -/
def leader (w : Warp) : Nat := ((lanesOf (live w)).head?).getD 0

/-- What an instruction does when it executes: the machine and the warp as it leaves them, its register results, and how
the warp goes on. -/
structure Out where
  s : State
  w : Warp
  /-- a result in a vector register, delivered to the latches (R153) -/
  v : Option VWrite := none
  /-- lanes of a result that go to the latches only (code 60) -/
  x0 : Option VWrite := none
  /-- a register that an operation landing later maps at issue (R140) -/
  map : Option Nat := none
  sc : List (Nat × DWord) := []
  m : List (Nat × LaneMask × LaneMask) := []
  flags : BitVec 32 := 0
  /-- draws of SRK rounding used (R52) -/
  srk : Nat := 0
  /-- latency of the results (R234) -/
  lat : Nat := 4
  /-- PC and DEPTH tables of a control transfer; none advances past the group -/
  pcs : Option (List (BitVec 32) × List (BitVec 8)) := none
  taken : Bool := false
  /-- the group may stand only as a chain's last member, whatever its encoding (WAIT) -/
  closes : Bool := false
  park : Option Wait := none
  /-- counts of a BBC, added when its chain ends (R522) -/
  bbc : List (Nat × Nat) := []

/-- How an instruction ends. -/
inductive Res where
  | ok (o : Out)
  /-- a precise cause, with the lane and address that R526 reports -/
  | cause (k : Cause) (lane : Option Nat) (faddr : DWord) (code : BitVec 8)
  /-- the warp is held and the group not issued -/
  | held (s : State) (w : Warp)
  /-- everything is done -/
  | done (s : State)

/-- The slot of issue of a warp: core × 4 + issue slot (R230). -/
def issueSlot (w : Warp) : Nat := w.core * 4 + (if w.slot = 97 then 2 else if w.slot = 96 then 0 else w.slot / 24)

/-- The cycle in which a slot last issued, by its own count (R233). -/
def clockOf (s : State) (slot : Nat) : Nat := (getKey slot s.clocks).getD 0

/-- The effects of an issue on the warps of its slot (R240, R243, R244). -/
def noteIssue (s : State) (w : Warp) : State :=
  let sl := issueSlot w
  { s with
    clocks := putKey sl w.now s.clocks
    warps := s.warps.map (fun x =>
      if issueSlot x = sl ∧ !(x.ctx == w.ctx && x.num == w.num) then { x with yielded := false } else x)
    lastWarp := (sl, w.ctx, w.num) :: s.lastWarp.filter (fun r => !(r.1 == sl)) }

/-- A lane's call depth. -/
def depthOf (w : Warp) (l : Nat) : Nat := (getAt 0 w.depth l).toNat

/-- A lane's key (R114). -/
def keyOf (w : Warp) (l : Nat) : Nat :=
  ((getAt 0 w.pc l).toNat * 256 + (255 - depthOf w l)) * 64 + (63 - (getAt 0 w.rep l).toNat)

/-- The LIVE lanes whose entries equal those of a lane: its split (R114). -/
def lanesAt (w : Warp) (l : Nat) : LaneMask := live w &&& mkMask (fun k => keyOf w k == keyOf w l)

/-- The lanes of a parked split: those that parked, and those whose entries have become equal to theirs since (R114, R115). -/
def parkSplit (w : Warp) (p : Park) : LaneMask := lanesAt w (((lanesOf p.lanes).head?).getD 0)

/-- Last-use bits of a group (R81): vector registers and scalar registers released, when they are honoured (R91, R141). -/
def lastUses (base c : Code) (last : Bool) : List Nat × List Nat :=
  let b0 := (Legal.uses base).srcs
  let b1 := (Legal.uses (stepCode base 1)).srcs
  let cur := (Legal.uses c).srcs
  let items := cur.zip (b0.zip b1)
  (items.filterMap (fun p =>
      match p.1 with
      | .v code true => if code.toNat ≤ 55 ∧ (last ∨ p.2.1 ≠ p.2.2) then some code.toNat else none
      | _ => none),
   items.filterMap (fun p =>
      match p.1 with
      | .s n true => if last then some n.toNat else none
      | _ => none))

/-- A list without repeats. -/
def dedup : List Nat → List Nat
  | [] => []
  | n :: ns => n :: (dedup ns).filter (fun x => !(x == n))

/-- Marks what synchronous writes and releases do to operations still out (R140, R235). (assumption 13, DEDUCED) -/
def markPend (ps : List POp) (ws : List VWrite) (rel : List Nat) : List POp :=
  ps.map (fun p =>
    match p.vdst with
    | some n =>
      let p := if rel.contains n then
          (if ws.any (fun w => w.reg == n) then { p with overtaken := 0xFFFFFFFF#32 } else { p with release := true })
        else p
      match ws.find? (fun w => w.reg == n) with
      | some w => if p.release then { p with overtaken := 0xFFFFFFFF#32, release := false } else { p with overtaken := p.overtaken ||| w.lanes }
      | none => p
    | none => p)

/-- The entry of each lane of a split after its group (R92, R113). -/
def nextEntries (i : Iss) (w : Warp) (o : Out) : List (BitVec 32) × List (BitVec 8) × List (BitVec 6) :=
  match o.park with
  | some _ => (w.pc, w.depth, w.rep)
  | none =>
    match o.pcs with
    | some (pc, d) => (pc, d, laneIdx.map (fun l => if laneBit i.split l then 0 else getAt 0 w.rep l))
    | none =>
      if i.last then
        (laneIdx.map (fun l => if laneBit i.split l then getAt 0 w.pc l + .ofNat 32 i.len else getAt 0 w.pc l),
         w.depth, laneIdx.map (fun l => if laneBit i.split l then 0 else getAt 0 w.rep l))
      else
        (w.pc, w.depth,
         laneIdx.map (fun l => if laneBit i.split l then .ofNat 6 (i.j + 1) else getAt 0 w.rep l))

/-- What the issue delivers to x0 (R153): the value that each lane of the split has after the write. (assumption 15, DEDUCED) -/
def delivered (i : Iss) (o : Out) (after : Regs) : Lanes :=
  match o.v, o.x0 with
  | some w, _ => laneIdx.map (fun l => if laneBit i.split l then
      (if laneBit w.lanes l then lane w.val l else lane (vGet after w.reg) l) else 0)
  | none, some w => laneIdx.map (fun l => if laneBit i.split l && laneBit w.lanes l then lane w.val l else 0)
  | none, none => []

/-- The latches after an issue (R153); the second split of a pair adds its lanes to x0 (R118). -/
def shiftLatches (i : Iss) (x : List Lanes) (d : Lanes) : List Lanes :=
  if i.second then blend i.split d (getAt [] x 0) :: x.drop 1
  else d :: (x.take 3)

/-- The latest of some cycles, at least a given one. -/
def latest (t : Nat) (ts : List Nat) : Nat := ts.foldl max t

/-- The reads that R235 leaves open after an issue: a write is delivered no earlier than every earlier write to its register. -/
def noteEarly (o : Out) (w before : Warp) (ws : List VWrite) : Warp :=
  let t := w.now + o.lat
  let keepV := w.earlyV.filter (earlyV? w)
  let keepS := w.earlyS.filter (fun e => decide (w.now < e.ready))
  let keepM := w.earlyM.filter (fun e => decide (w.now < e.ready))
  { w with
    earlyV := keepV ++ ws.map (fun x =>
      ⟨x.reg, x.lanes, latest t ((keepV.filter (fun e => e.reg == x.reg)).map (fun e => e.ready)), (before.pend.filter (fun p => p.vdst == some x.reg)).map (fun p => p.id), vGet before.regs x.reg⟩)
    earlyS := keepS ++ o.sc.map (fun p =>
      ⟨p.1, latest t ((keepS.filter (fun e => e.reg == p.1)).map (fun e => e.ready)), sGet before.regs p.1⟩)
    earlyM := keepM ++ o.m.map (fun q =>
      ⟨q.1, q.2.1, latest t ((keepM.filter (fun e => e.reg == q.1)).map (fun e => e.ready)), mGet before.regs q.1⟩) }

/-- Whether an issue's last-use bits are honoured: its split holds every LIVE lane, and it is no second of a pair (R141). -/
def honoured (i : Iss) : Bool := (i.split &&& live i.w) == live i.w && !i.second

/-- The vector registers that an issue writes, its own result or the destination that an operation landing later maps. -/
def writesOf (o : Out) : List VWrite := o.v.toList ++ (match o.map with | some n => [⟨n, 0, []⟩] | none => [])

/-- The vector and scalar registers that an issue releases (R81, R141). -/
def releasedV (base : Code) (i : Iss) : List Nat := if honoured i then dedup (lastUses base i.c i.last).1 else []
def releasedS (base : Code) (i : Iss) : List Nat := if honoured i then dedup (lastUses base i.c i.last).2 else []

/-- Last-use bits not honoured, which LUSKIP counts (R141). (assumption 28, DEDUCED) -/
def skippedUses (base : Code) (i : Iss) : Nat :=
  if honoured i then 0 else (lastUses base i.c i.last).1.length + (lastUses base i.c i.last).2.length

/-- The operations out after an issue: those out before it as its writes and releases leave them, then its own. -/
def pendAfter (base : Code) (i : Iss) (o : Out) : List POp :=
  markPend (o.w.pend.take i.w.pend.length) (writesOf o) (releasedV base i) ++
  (o.w.pend.drop i.w.pend.length).map (fun p => { p with born := o.w.now })

/-- What an issue releases and writes; the release of a register with a result still out waits for it (R140), and a parked group's
release for the end of its wait (R115, R141). -/
def memberOf (base : Code) (i : Iss) (o : Out) : Member :=
  let late := (releasedV base i).filter (fun n => outstanding o.w n && !((writesOf o).any (fun x => x.reg == n)))
  ⟨(releasedV base i).filter (fun n => !(late.contains n)), if o.park.isSome then [] else releasedS base i, writesOf o, o.sc⟩

/-- The chain after an issue: its own new one, or the one that it goes on with (R153, R154). (assumption 16, DEDUCED) -/
def chainAfter (base : Code) (i : Iss) (o : Out) : Chain :=
  match i.chained, i.w.chain with
  | true, some ch =>
    { ch with len := ch.len + 1, closed := closesChain i.c || o.closes, members := ch.members ++ [memberOf base i o]
              luskip := ch.luskip + skippedUses base i, split := i.split }
  | _, _ => ⟨i.pc, 1, closesChain i.c || o.closes, i.split, i.w.regs, i.w.pc, i.w.depth, i.w.rep, [memberOf base i o],
      skippedUses base i, i.w.pend.map (fun p => (p.id, p.overtaken, p.release)),
      (match i.w.chain with | some ch => ch.bbc | none => []) ++ o.bbc⟩

/-- The registers after an issue (R138, R139, R141, R142, R154 rule 5): releases and writes, masks, FLAGS, the SRK counter. -/
def regsAfter (base : Code) (i : Iss) (o : Out) : Regs :=
  let ch := chainAfter base i o
  let r :=
    if i.chained then applyMembers { o.w.regs with v := ch.snap.v, order := ch.snap.order, s := ch.snap.s } ch.members
    else applyMember o.w.regs (memberOf base i o)
  let r := o.m.foldl (fun r q => putM r q.1 q.2.1 q.2.2) r
  { r with flags := r.flags ||| o.flags, q := r.q + .ofNat 32 o.srk }

/-- Whether a split parks at an acquiring instruction, SYNCW or RAWAIT (R258). -/
def acquiringWait : Wait → Bool
  | .syncw _ _ _ => true
  | .rawait _ _ => true
  | _ => false

/-- The warp after an issue; `seq` orders the parks (R113, R115, R153, R233). -/
def warpAfter (base : Code) (i : Iss) (o : Out) (seq : Nat) : Warp :=
  let next := nextEntries i o.w o
  noteEarly o { o.w with
    regs := regsAfter base i o
    pend := pendAfter base i o
    pc := next.1, depth := next.2.1, rep := next.2.2
    x := shiftLatches i o.w.x (delivered i o (regsAfter base i o))
    chain := if i.second ∨ o.park.isSome then none else some (chainAfter base i o)
    parked := match o.park with
      | some k => o.w.parked ++ [⟨i.split, k, seq, .ofNat 32 (baseWord base), .ofNat 32 (i.len + 64 * bit i.chained), releasedS base i,
          o.w.tag != 0 && acquiringWait k⟩]
      | none => o.w.parked
    noPrev := false
    notBefore := if o.taken then o.w.now + 3 else o.w.now
    bpSkip := false, attempt := {}, starve := 0, entryWait := 0 } { i.w with regs := o.w.regs } (o.v.toList)

/-- A group's completion (R113, R141, R142, R153, R154, R233): the warp, LUSKIP, the slot's record, and a debugger's step
(R516). -/
def retire (base : Code) (i : Iss) (o : Out) : State :=
  let (seq, s) := takeFresh o.s
  let w := warpAfter base i o seq
  let x := ctxOf s w.ctx
  let s := setCtx s w.ctx { x with luskip := x.luskip + .ofNat 32 (skippedUses base i) }
  let s := wake (noteIssue (setWarp { s with free := s.free + 1, issue := none } w) w)
  match w.stepSet with
  | some _ =>
    debugHalt s { w with chain := w.chain.map (fun c => { c with closed := true }) } { cause := .step, spl := i.split }
      (getAt 0 w.pc ((lanesOf i.split).head?.getD 0))
  | none => s

/-- A chain's effects taken back (R154 rule 6): registers, entries, last-use count, its own operations, and what it did to
operations still out. -/
def rollback (s : State) (w : Warp) : State × Warp :=
  match w.chain with
  | none => (s, w)
  | some ch =>
    let x := ctxOf s w.ctx
    (setCtx s w.ctx { x with luskip := x.luskip - .ofNat 32 ch.luskip },
     { w with regs := ch.snap, pc := ch.pc, depth := ch.depth, rep := ch.rep, chain := none
              pend := w.pend.filterMap (fun p =>
                (ch.snapPend.find? (fun q => q.1 == p.id)).map (fun q => { p with overtaken := q.2.1, release := q.2.2 })) })

/-- GINFO of a group (R319). -/
def ginfoOf (sh : Shape) (j : Nat) (chained : Bool) : BitVec 32 :=
  .ofNat 32 (sh.len + 16 * bit sh.code.grp.rpt.isSome + 32 * bit sh.code.grp.pfx.isSome + 64 * bit chained + 256 * j)

/-- Raises a precise cause of an issue (R9, R92, R154 rule 6, R316, R319, R526). -/
def raiseIssue (s : State) (w : Warp) (split act : LaneMask) (sh : Shape) (j : Nat) (chained : Bool) (pc : BitVec 32)
    (k : Cause) (ln : Option Nat) (faddr : DWord) (code : BitVec 8) : State :=
  let (s, w) := if chained then rollback s w else (s, { w with chain := none })
  let head := if chained then getAt 0 w.pc ((lanesOf split).head?.getD 0) else pc
  let t : TrapInfo :=
    { cause := k, code := code, lane := ln, faddr := faddr, spl := split
      act := if k = .copyFault then 0 else act, deferred := decide (k = .copyFault)
      insn := sh.insn, pfxw := sh.pfxw, ginfo := ginfoOf sh j chained
      skip := if k = .trap then 4 else 0 }
  raiseAt (noteIssue (setWarp s { w with attempt := {} }) w) { w with attempt := {} } t head

/-- The breakpoint that names a group, the lowest (R510). -/
def breakAt (s : State) (c : Nat) (off : Nat) : List (BitVec 32) → Nat → Option Nat
  | [], _ => none
  | b :: bs, n =>
    match (ctxOf s c).safept with
    | none => none
    | some (base, cnt) =>
      let hit := b.getLsbD 31 && decide (b.toNat % 65536 < cnt) &&
        (match devNat s c (base.toNat + 4 * (b.toNat % 65536)) 4 with
         | .ok v => v == off
         | .error _ => false)
      if hit then some n else breakAt s c off bs (n + 1)

/-- The lanes of the bound group of a lane (R218). -/
def groupOf (n l : Nat) : LaneMask := mkMask (fun i => i / n == l / n)

/-- The lowest lane of a bound group that a set of lanes holds in part (R223). (assumption 114, DEDUCED) -/
def tornLane (n : Nat) (liv x : LaneMask) : Option Nat :=
  laneIdx.find? (fun l => laneBit liv l &&
    (x &&& groupOf n l &&& liv) != 0 && (x &&& groupOf n l &&& liv) != (groupOf n l &&& liv))

/-- The size of the bound groups (R218, R219). -/
def boundSize (w : Warp) : Nat := 2 ^ w.limbst.toNat

/-- The first cause of positions 1 to 6 of R524 (and of R510 before them) that an issue meets. (assumption 115, DEDUCED) -/
def firstCause (s : State) (i : Iss) (sh : Shape) (legal : Bool) : Option (Cause × Option Nat × BitVec 8) :=
  let w := i.w
  match (if sh.code.grp.stop && !w.bpSkip && w.stepSet.isNone then breakAt s w.ctx i.pc.toNat (ctxOf s w.ctx).bp 0 else none) with
  | some n => some (.brk, none, .ofNat 8 n)
  | none =>
    if !legal || (Legal.illegal sh.code).isSome && sh.len ≠ 2 || illegalHere s w i.c || decide (repeats sh.code ≤ i.j) then
      some (.illegal, none, 0)
    else
      let ks := latchReads i.c
      let chainOk := match w.chain with
        | some ch => i.chained && !ch.closed && (ch.split &&& i.split) == ch.split && ks.all (fun k => decide (k < ch.len)) &&
            decide (ch.len + (if i.j = 0 then repeats sh.code else 1) ≤ 8)
        | none => false
      if !ks.isEmpty && !chainOk then some (.latchChain, none, 0)
      else
        let reads := (Legal.uses i.c).srcs.filterMap (fun x => match x with | .v c _ => some c.toNat | _ => none)
        if (ctxOf s w.ctx).staletrap && reads.any (fun n => decide (n ≤ 55) && (vEntry i.regs n).st == .unmapped) then
          some (.unmappedRead, none, 0)
        else
          let n := boundSize w
          let torn := match tornLane n (live w) i.act with
            | some l => some l
            | none => tornLane n (live w) i.split
          match (if hasVector i.c && decide (1 < n) then torn else none) with
          | some l => some (.boundMask, some l, 0)
          | none =>
            if isSingular i.c && !(laneBit i.split (leader w)) then some (.singularSplit, none, 0) else none

/-- Whether a whole-warp hold for outstanding long-integer results begins at an instruction that would write what they write
(R228). -/
def longHold (i : Iss) : Bool :=
  i.w.pend.any (fun p => p.kind == .long && !(i.c.major == 0x17 || i.c.major == 0x18) &&
    (((Legal.uses i.c).vdst.map (fun d => p.vdst == some d.toNat)).getD false ||
     ((Legal.uses i.c).mdst.map (fun d => p.mres.any (fun q => q.1 == d.toNat))).getD false ||
     (i.c.major == 0x38 && i.c.sel == 1 && !p.carry.isEmpty)))

/-- A chain's snapshot learns of a register refilled since (R147). -/
def syncSnap (w : Warp) : Warp :=
  match w.chain with
  | none => w
  | some ch =>
    let v := (List.range 56).map (fun n =>
      if (vEntry ch.snap n).st = .spilled ∧ (vEntry w.regs n).st = .mapped then vEntry w.regs n else vEntry ch.snap n)
    { w with chain := some { ch with snap := { ch.snap with v := v } } }

/-- The first cycle in which a group of a warp meets its distance, the delay of a taken transfer, and a WAIT its flags (R233, R234,
R237, R238). -/
def dueTime (w : Warp) (sh : Shape) : Nat :=
  let t := if w.noPrev then w.notBefore else max (w.now + sh.dist) w.notBefore
  match waitFlags sh with
  | some fl => latest t ((List.range 12).map (fun n => if fl.getLsbD n then getAt 0 w.flagAt n else 0))
  | none => t

/-- The cycle of its slot in which a group issues: that of the pair for the second of one, else a later one than the slot's latest
issue (R117, R233, R238). -/
def issueTime (s : State) (p : Issue) (w : Warp) (sh : Shape) : Nat :=
  if p.pre.isSome then w.now else max (dueTime w sh) (clockOf s (issueSlot w) + 1)

/-- A warp as its group issues: its clock moved on, results landed; those that land in the cycle of a CSRW follow it (R13, R58, R183,
R227, R233). -/
def atIssue (s : State) (p : Issue) (w : Warp) (sh : Shape) : Warp :=
  let w := { w with now := issueTime s p w sh }
  if sh.code.major = 0x38 ∧ sh.code.sel = 1 then autoLandBefore w else autoLand w

/-- The first lane of a split. -/
def headLane (m : LaneMask) : Nat := ((lanesOf m).head?).getD 0

/-- The issue of a group for a split of a warp as it stands: its repetition, its PC, whether it goes on with a latch chain, the
registers that it reads, ACTIVE (R7, R92, R118, R154). -/
def issOf (s : State) (p : Issue) (sh : Shape) (w : Warp) : Iss :=
  let j := (getAt 0 w.rep (headLane p.split)).toNat
  let c := stepCode sh.code j
  let chained := !(latchReads c).isEmpty && w.chain.any (fun ch => ch.split &&& p.split == ch.split) && w.stepSet.isNone && !p.pre.isSome
  let regs :=
    match p.pre, chained, w.chain with
    | some r, _, _ => { r with v := (List.range 56).map (fun n => if (vEntry r n).st = .spilled then vEntry w.regs n else vEntry r n) }
    | none, true, some ch => viewMembers { w.regs with v := ch.snap.v, order := ch.snap.order, s := ch.snap.s } [] ch.members
    | none, _, _ => w.regs
  let mask := match c.grp.pfx with | some q => readM w regs s.free q.mask.toNat | none => 0xFFFFFFFF#32
  ⟨w, p.split, c, sh.len, getAt 0 w.pc (headLane p.split), j, decide (j + 1 = repeats sh.code), p.split &&& live w &&& mask, regs,
    s.free, chained, p.pre.isSome⟩

/-- The vector registers v0 to v55 that an instruction reads. -/
def readsOf (c : Code) : List Nat :=
  (Legal.uses c).srcs.filterMap (fun x => match x with | .v code _ => if code.toNat ≤ 55 then some code.toNat else none | _ => none)

/-- The vector register v0 to v55 that an instruction writes. -/
def destOf (c : Code) : Option Nat :=
  match (Legal.uses c).vdst with
  | some d => if d.toNat ≤ 55 then some d.toNat else none
  | none => none

/-- Whether a group gives a physical register back before it writes: a MAPPED one that its last-use bits release now (R138, R142). -/
def givesBack (base : Code) (i : Iss) : Bool :=
  !i.chained && (releasedV base i).any (fun n => (vEntry i.w.regs n).st == .mapped && !(outstanding i.w n))

/-- The registers of a group made ready, its SPILLED destination with those that it reads (R145, R147). -/
def operandsReady (s : State) (base : Code) (i : Iss) : Grant :=
  readyRegs s i.w i.chained (if givesBack base i then none else destOf i.c) (readsOf i.c ++
    (match destOf i.c with | some d => if (vEntry i.w.regs d).st = .spilled then [d] else [] | none => []))

/-- Runs a group through its tests to its meaning, and completes it. -/
def runIssue (s : State) (p : Issue) (w0 : Warp) (sh : Shape) (legal : Bool) (sem : State → Iss → Res) : State :=
  let i := issOf s p sh (atIssue s p w0 sh)
  match firstCause s i sh legal with
  | some (k, l, code) => raiseIssue s i.w p.split i.act sh i.j (i.chained && k != .brk) i.pc k l 0 code
  | none =>
    if longHold i then setWarp s { i.w with now := w0.now, holds := .long :: i.w.holds }
    else
      match operandsReady s sh.code i with
      | .failed k s v => ctxFault (setWarp s { i.w with now := w0.now }) v.ctx k (some v.core) (some v.num) (.ofNat 64 (backAddr s v))
      | .held s w => setWarp s { w with now := w0.now }
      | .ok s w =>
        let i := issOf s p sh (syncSnap w)
        match sem s i with
        | .ok o => retire sh.code i o
        | .cause k l f code => raiseIssue s i.w p.split i.act sh i.j i.chained i.pc k l f code
        | .held s w => setWarp s { w with now := w0.now }
        | .done s => s

/-- Issues an instruction of the stream for the split that the step has chosen. -/
def issueAs (s : State) (i : Instr) (sem : State → Iss → Res) : Host.Outcome State Fault Refusal :=
  match s.issue with
  | none => .fault .noIssuer
  | some p =>
    match warpFind s p.ctx p.warp, shapeOf i with
    | some w, some sh => .next (runIssue s p w sh true sem)
    | _, _ => .fault .noIssuer

end Sys2Proof.Machine
end

