-- ==== Sys2Proof/Machine/Lane.lean ====
section
/-! DEFINITION. The integer and scalar instructions (06_integer.md R155 to R171), their lane forms (03_encoding.md R77), and the
shared way a lane instruction reads its operands and writes its destination (R155, R174). -/

namespace Sys2Proof.Machine

/-! ## Shared operations -/

/-- The lanes that a lane instruction writes: ACTIVE, and under mz the rest of the split (R139, R155). -/
def Iss.written (i : Iss) : LaneMask := if i.mz then i.split else i.act

/-- A result in ACTIVE, zero in the other lanes (R155). -/
def Iss.res (i : Iss) (f : Nat → Word) : Lanes := laneIdx.map (fun l => if laneBit i.act l then f l else 0)

/-- A lane result in the destination, or in the latches only for code 60 (R80, R155). -/
def laneOut (s : State) (i : Iss) (d : BitVec 6) (f : Nat → Word) : Out :=
  let w : VWrite := ⟨d.toNat, i.written, i.res f⟩
  if d = 60 then { s := s, w := i.w, x0 := some w } else { s := s, w := i.w, v := some w }

/-- A lane instruction of two sources, format A (R158). -/
def lane2 (f : Word → Word → Word) (s : State) (i : Iss) : Res :=
  match i.c.body with
  | .A o =>
    let a := i.v o.a
    let b := i.v o.b
    .ok (laneOut s i o.d (fun l => f (lane a l) (lane b l)))
  | _ => .held s i.w

/-- A lane instruction of three sources, the third from the PREFIX (R88). -/
def lane3 (f : Word → Word → Word → Word) (s : State) (i : Iss) : Res :=
  match i.c.body with
  | .A o =>
    let a := i.v o.a
    let b := i.v o.b
    let c := i.cv
    .ok (laneOut s i o.d (fun l => f (lane a l) (lane b l) (lane c l)))
  | _ => .held s i.w

/-- A lane instruction with a 7-bit immediate (R161): SEXT, or bits [4:0] for a shift. -/
def laneImm (shift : Bool) (f : Word → Word → Word) (s : State) (i : Iss) : Res :=
  match i.c.body with
  | .I o =>
    let a := i.v o.a
    let b : Word := if shift then (o.imm.setWidth 5).setWidth 32 else o.imm.signExtend 32
    .ok (laneOut s i o.d (fun l => f (lane a l) b))
  | _ => .held s i.w

/-- A unary lane function (R164). -/
def lane1 (f : Word → Word) (s : State) (i : Iss) : Res :=
  match i.c.body with
  | .U o =>
    let a := i.v o.a
    .ok (laneOut s i o.d (fun l => f (lane a l)))
  | _ => .held s i.w

/-- A scalar instruction of two sources (R166, R168). -/
def scalar2 (f : DWord → DWord → DWord) (s : State) (i : Iss) : Res :=
  match i.c.body with
  | .A o => .ok { s := s, w := i.w, sc := [(o.d.toNat, f (i.s o.a.toNat) (i.s o.b.toNat))] }
  | _ => .held s i.w

/-- Shifts by the whole of a count (R159). -/
def shlW (a : Word) (n : Nat) : Word := if 32 ≤ n then 0 else a <<< n
def shrW (a : Word) (n : Nat) : Word := if 32 ≤ n then 0 else a >>> n
def sarW (a : Word) (n : Nat) : Word := a.sshiftRight (min n 31)

/-- Position and clipped width of a field control word (R160). -/
def fieldPos (c : Word) : Nat := c.toNat % 32
def fieldLen (c : Word) : Nat := min (c.toNat / 256 % 64) (32 - fieldPos c)

/-- BFX (R160). -/
def bfxW (a b : Word) : Word := .ofNat 32 (a.toNat / 2 ^ fieldPos b % 2 ^ fieldLen b)

/-- BFI (R160). -/
def bfiW (a b c : Word) : Word :=
  let m : Word := .ofNat 32 ((2 ^ fieldLen c - 1) * 2 ^ fieldPos c)
  (a &&& ~~~ m) ||| ((b <<< fieldPos c) &&& m)

/-- The number of set bits. -/
def popcW (a : Word) : Word := .ofNat 32 (laneIdx.filter (fun k => a.getLsbD k)).length

/-- The number of zero bits above the highest set bit. -/
def clzW (a : Word) : Word := if a = 0 then 32 else .ofNat 32 (31 - Nat.log2 a.toNat)

/-- Bit k moved to bit 31 − k. -/
def brevW (a : Word) : Word := mkMask (fun k => a.getLsbD (31 - k))

/-- The conditions of ICMP and SCMP (R96, R163, R170). -/
def intCond {n : Nat} (cond : BitVec 3) (a b : BitVec n) : Bool :=
  match cond.toNat with
  | 0 => a == b
  | 1 => a != b
  | 2 => a.slt b
  | 3 => !(b.slt a)
  | 4 => b.slt a
  | 5 => !(a.slt b)
  | 6 => a.ult b
  | _ => !(a.ult b)

/-- A comparison's mask result (R163): ACTIVE lanes, and zero in the rest of the split under mz. -/
def maskOut (s : State) (i : Iss) (md : BitVec 4) (f : Nat → Bool) : Out :=
  { s := s, w := i.w, m := [(md.toNat, i.written, mkMask f &&& i.act)] }

/-! ## Three-operand forms (R158 to R160) -/

/-- IADD (R158). -/
def execIadd (g : Grp) (o : OpsA) (s : State) : Host.Outcome State Fault Refusal :=
  issueAs s (.iadd g o) (lane2 (fun a b => a + b))

/-- ISUB (R158). -/
def execIsub (g : Grp) (o : OpsA) (s : State) : Host.Outcome State Fault Refusal :=
  issueAs s (.isub g o) (lane2 (fun a b => a - b))

/-- IMUL (R158). -/
def execImul (g : Grp) (o : OpsA) (s : State) : Host.Outcome State Fault Refusal :=
  issueAs s (.imul g o) (lane2 (fun a b => a * b))

/-- IMULH (R158). -/
def execImulh (g : Grp) (o : OpsA) (s : State) : Host.Outcome State Fault Refusal :=
  issueAs s (.imulh g o) (lane2 (fun a b => .ofInt 32 (a.toInt * b.toInt / 2 ^ 32)))

/-- IMULHU (R158). -/
def execImulhu (g : Grp) (o : OpsA) (s : State) : Host.Outcome State Fault Refusal :=
  issueAs s (.imulhu g o) (lane2 (fun a b => .ofNat 32 (a.toNat * b.toNat / 2 ^ 32)))

/-- IMIN (R158). -/
def execImin (g : Grp) (o : OpsA) (s : State) : Host.Outcome State Fault Refusal :=
  issueAs s (.imin g o) (lane2 (fun a b => if a.slt b then a else b))

/-- IMAX (R158). -/
def execImax (g : Grp) (o : OpsA) (s : State) : Host.Outcome State Fault Refusal :=
  issueAs s (.imax g o) (lane2 (fun a b => if a.slt b then b else a))

/-- UMIN (R158). -/
def execUmin (g : Grp) (o : OpsA) (s : State) : Host.Outcome State Fault Refusal :=
  issueAs s (.umin g o) (lane2 (fun a b => if a.ult b then a else b))

/-- UMAX (R158). -/
def execUmax (g : Grp) (o : OpsA) (s : State) : Host.Outcome State Fault Refusal :=
  issueAs s (.umax g o) (lane2 (fun a b => if a.ult b then b else a))

/-- AND (R158). -/
def execAnd (g : Grp) (o : OpsA) (s : State) : Host.Outcome State Fault Refusal :=
  issueAs s (.and g o) (lane2 (fun a b => a &&& b))

/-- OR (R158). -/
def execOr (g : Grp) (o : OpsA) (s : State) : Host.Outcome State Fault Refusal :=
  issueAs s (.or g o) (lane2 (fun a b => a ||| b))

/-- XOR (R158). -/
def execXor (g : Grp) (o : OpsA) (s : State) : Host.Outcome State Fault Refusal :=
  issueAs s (.xor g o) (lane2 (fun a b => a ^^^ b))

/-- ANDN (R158). -/
def execAndn (g : Grp) (o : OpsA) (s : State) : Host.Outcome State Fault Refusal :=
  issueAs s (.andn g o) (lane2 (fun a b => a &&& ~~~ b))

/-- SHL (R159). -/
def execShl (g : Grp) (o : OpsA) (s : State) : Host.Outcome State Fault Refusal :=
  issueAs s (.shl g o) (lane2 (fun a b => shlW a b.toNat))

/-- SHR (R159). -/
def execShr (g : Grp) (o : OpsA) (s : State) : Host.Outcome State Fault Refusal :=
  issueAs s (.shr g o) (lane2 (fun a b => shrW a b.toNat))

/-- SAR (R159). -/
def execSar (g : Grp) (o : OpsA) (s : State) : Host.Outcome State Fault Refusal :=
  issueAs s (.sar g o) (lane2 (fun a b => sarW a b.toNat))

/-- ROTL (R159). -/
def execRotl (g : Grp) (o : OpsA) (s : State) : Host.Outcome State Fault Refusal :=
  issueAs s (.rotl g o) (lane2 (fun a b => a.rotateLeft (b.toNat % 32)))

/-- BFX (R160). -/
def execBfx (g : Grp) (o : OpsA) (s : State) : Host.Outcome State Fault Refusal :=
  issueAs s (.bfx g o) (lane2 (fun a b => bfxW a b))

/-- IMAD (R158). -/
def execImad (g : Grp) (o : OpsA) (s : State) : Host.Outcome State Fault Refusal :=
  issueAs s (.imad g o) (lane3 (fun a b c => a * b + c))

/-- BFI (R160). -/
def execBfi (g : Grp) (o : OpsA) (s : State) : Host.Outcome State Fault Refusal :=
  issueAs s (.bfi g o) (lane3 (fun a b c => bfiW a b c))

/-- SEL (R160). -/
def execSel (g : Grp) (o : OpsA) (s : State) : Host.Outcome State Fault Refusal :=
  issueAs s (.sel g o) (lane3 (fun a b c => if c = 0 then b else a))

/-! ## IDIV and IREM: UNIMPL in this part (R101, R165) -/

/-- IDIV (R101, R165). -/
def execIdiv (g : Grp) (o : OpsA) (s : State) : Host.Outcome State Fault Refusal :=
  issueAs s (.idiv g o) (fun _ _ => .cause .unimpl none 0 0)

/-- IREM (R101, R165). -/
def execIrem (g : Grp) (o : OpsA) (s : State) : Host.Outcome State Fault Refusal :=
  issueAs s (.irem g o) (fun _ _ => .cause .unimpl none 0 0)

/-! ## Immediate forms (R161), MOVI and MOVH (R162) -/

/-- IADD (immediate) (R161). -/
def execIaddImm (g : Grp) (o : OpsI) (s : State) : Host.Outcome State Fault Refusal :=
  issueAs s (.iaddImm g o) (laneImm false (fun a b => a + b))

/-- IMUL (immediate) (R161). -/
def execImulImm (g : Grp) (o : OpsI) (s : State) : Host.Outcome State Fault Refusal :=
  issueAs s (.imulImm g o) (laneImm false (fun a b => a * b))

/-- AND (immediate) (R161). -/
def execAndImm (g : Grp) (o : OpsI) (s : State) : Host.Outcome State Fault Refusal :=
  issueAs s (.andImm g o) (laneImm false (fun a b => a &&& b))

/-- OR (immediate) (R161). -/
def execOrImm (g : Grp) (o : OpsI) (s : State) : Host.Outcome State Fault Refusal :=
  issueAs s (.orImm g o) (laneImm false (fun a b => a ||| b))

/-- XOR (immediate) (R161). -/
def execXorImm (g : Grp) (o : OpsI) (s : State) : Host.Outcome State Fault Refusal :=
  issueAs s (.xorImm g o) (laneImm false (fun a b => a ^^^ b))

/-- SHL (immediate) (R161). -/
def execShlImm (g : Grp) (o : OpsI) (s : State) : Host.Outcome State Fault Refusal :=
  issueAs s (.shlImm g o) (laneImm true (fun a b => shlW a b.toNat))

/-- SHR (immediate) (R161). -/
def execShrImm (g : Grp) (o : OpsI) (s : State) : Host.Outcome State Fault Refusal :=
  issueAs s (.shrImm g o) (laneImm true (fun a b => shrW a b.toNat))

/-- SAR (immediate) (R161). -/
def execSarImm (g : Grp) (o : OpsI) (s : State) : Host.Outcome State Fault Refusal :=
  issueAs s (.sarImm g o) (laneImm true (fun a b => sarW a b.toNat))

/-- MOVI (R162). -/
def execMovi (g : Grp) (o : OpsK) (s : State) : Host.Outcome State Fault Refusal :=
  issueAs s (.movi g o) (fun s i =>
    match i.c.body with
    | .K o => .ok (laneOut s i o.d (fun _ => o.imm.signExtend 32))
    | _ => .held s i.w)

/-- MOVH (R162). -/
def execMovh (g : Grp) (o : OpsK) (s : State) : Host.Outcome State Fault Refusal :=
  issueAs s (.movh g o) (fun s i =>
    match i.c.body with
    | .K o =>
      let x := i.v o.d
      .ok (laneOut s i o.d (fun l => o.imm ++ (lane x l).setWidth 16))
    | _ => .held s i.w)

/-- ICMP (R163). -/
def execIcmp (g : Grp) (o : OpsC) (s : State) : Host.Outcome State Fault Refusal :=
  issueAs s (.icmp g o) (fun s i =>
    match i.c.body with
    | .C o =>
      let a := i.v o.a
      let b := i.v o.b
      .ok (maskOut s i o.md (fun l => intCond o.cond (lane a l) (lane b l)))
    | _ => .held s i.w)

/-! ## Unary functions (R164) -/

/-- MOV (R164). -/
def execMov (g : Grp) (o : OpsU) (s : State) : Host.Outcome State Fault Refusal :=
  issueAs s (.mov g o) (lane1 (fun a => a))

/-- NOT (R164). -/
def execNot (g : Grp) (o : OpsU) (s : State) : Host.Outcome State Fault Refusal :=
  issueAs s (.not g o) (lane1 (fun a => ~~~ a))

/-- INEG (R164). -/
def execIneg (g : Grp) (o : OpsU) (s : State) : Host.Outcome State Fault Refusal :=
  issueAs s (.ineg g o) (lane1 (fun a => -a))

/-- IABS (R164). -/
def execIabs (g : Grp) (o : OpsU) (s : State) : Host.Outcome State Fault Refusal :=
  issueAs s (.iabs g o) (lane1 (fun a => if a.msb then -a else a))

/-- POPC (R164). -/
def execPopc (g : Grp) (o : OpsU) (s : State) : Host.Outcome State Fault Refusal :=
  issueAs s (.popc g o) (lane1 (fun a => popcW a))

/-- CLZ (R164). -/
def execClz (g : Grp) (o : OpsU) (s : State) : Host.Outcome State Fault Refusal :=
  issueAs s (.clz g o) (lane1 (fun a => clzW a))

/-- BREV (R164). -/
def execBrev (g : Grp) (o : OpsU) (s : State) : Host.Outcome State Fault Refusal :=
  issueAs s (.brev g o) (lane1 (fun a => brevW a))

/-- MOVS (R164). -/
def execMovs (g : Grp) (o : OpsU) (s : State) : Host.Outcome State Fault Refusal :=
  issueAs s (.movs g o) (fun s i =>
    match i.c.body with
    | .U o =>
      let x := (i.s o.a.toNat).setWidth 32
      .ok (laneOut s i o.d (fun _ => x))
    | _ => .held s i.w)

/-! ## Lane forms of 16 bits (R77) -/

/-- IADD, 16-bit lane form (R77). -/
def execIaddC (o : OpsC16) (s : State) : Host.Outcome State Fault Refusal :=
  issueAs s (.iaddC o) (lane2 (fun a b => a + b))

/-- ISUB, 16-bit lane form (R77). -/
def execIsubC (o : OpsC16) (s : State) : Host.Outcome State Fault Refusal :=
  issueAs s (.isubC o) (lane2 (fun a b => a - b))

/-- IMUL, 16-bit lane form (R77). -/
def execImulC (o : OpsC16) (s : State) : Host.Outcome State Fault Refusal :=
  issueAs s (.imulC o) (lane2 (fun a b => a * b))

/-- AND, 16-bit lane form (R77). -/
def execAndC (o : OpsC16) (s : State) : Host.Outcome State Fault Refusal :=
  issueAs s (.andC o) (lane2 (fun a b => a &&& b))

/-- OR, 16-bit lane form (R77). -/
def execOrC (o : OpsC16) (s : State) : Host.Outcome State Fault Refusal :=
  issueAs s (.orC o) (lane2 (fun a b => a ||| b))

/-- XOR, 16-bit lane form (R77). -/
def execXorC (o : OpsC16) (s : State) : Host.Outcome State Fault Refusal :=
  issueAs s (.xorC o) (lane2 (fun a b => a ^^^ b))

/-- SHL, 16-bit lane form (R77). -/
def execShlC (o : OpsC16) (s : State) : Host.Outcome State Fault Refusal :=
  issueAs s (.shlC o) (lane2 (fun a b => shlW a b.toNat))

/-- SHR, 16-bit lane form (R77). -/
def execShrC (o : OpsC16) (s : State) : Host.Outcome State Fault Refusal :=
  issueAs s (.shrC o) (lane2 (fun a b => shrW a b.toNat))

/-- SAR, 16-bit lane form (R77). -/
def execSarC (o : OpsC16) (s : State) : Host.Outcome State Fault Refusal :=
  issueAs s (.sarC o) (lane2 (fun a b => sarW a b.toNat))

/-- IMIN, 16-bit lane form (R77). -/
def execIminC (o : OpsC16) (s : State) : Host.Outcome State Fault Refusal :=
  issueAs s (.iminC o) (lane2 (fun a b => if a.slt b then a else b))

/-- MOV, 16-bit lane form (R77). -/
def execMovC (o : OpsC16) (s : State) : Host.Outcome State Fault Refusal :=
  issueAs s (.movC o) (lane1 (fun a => a))

/-! ## Scalar instructions (R166 to R171) -/

/-- SADD (R168). -/
def execSadd (g : Grp) (o : OpsA) (s : State) : Host.Outcome State Fault Refusal :=
  issueAs s (.sadd g o) (scalar2 (fun a b => a + b))

/-- SSUB (R168). -/
def execSsub (g : Grp) (o : OpsA) (s : State) : Host.Outcome State Fault Refusal :=
  issueAs s (.ssub g o) (scalar2 (fun a b => a - b))

/-- SMUL (R168). -/
def execSmul (g : Grp) (o : OpsA) (s : State) : Host.Outcome State Fault Refusal :=
  issueAs s (.smul g o) (scalar2 (fun a b => a * b))

/-- SAND (R168). -/
def execSand (g : Grp) (o : OpsA) (s : State) : Host.Outcome State Fault Refusal :=
  issueAs s (.sand g o) (scalar2 (fun a b => a &&& b))

/-- SOR (R168). -/
def execSor (g : Grp) (o : OpsA) (s : State) : Host.Outcome State Fault Refusal :=
  issueAs s (.sor g o) (scalar2 (fun a b => a ||| b))

/-- SXOR (R168). -/
def execSxor (g : Grp) (o : OpsA) (s : State) : Host.Outcome State Fault Refusal :=
  issueAs s (.sxor g o) (scalar2 (fun a b => a ^^^ b))

/-- SSHL (R168). -/
def execSshl (g : Grp) (o : OpsA) (s : State) : Host.Outcome State Fault Refusal :=
  issueAs s (.sshl g o) (scalar2 (fun a b => if 64 ≤ b.toNat then 0 else a <<< b.toNat))

/-- SSHR (R168). -/
def execSshr (g : Grp) (o : OpsA) (s : State) : Host.Outcome State Fault Refusal :=
  issueAs s (.sshr g o) (scalar2 (fun a b => if 64 ≤ b.toNat then 0 else a >>> b.toNat))

/-- SSAR (R168). -/
def execSsar (g : Grp) (o : OpsA) (s : State) : Host.Outcome State Fault Refusal :=
  issueAs s (.ssar g o) (scalar2 (fun a b => a.sshiftRight (min b.toNat 63)))

/-- SMOV (R168). -/
def execSmov (g : Grp) (o : OpsA) (s : State) : Host.Outcome State Fault Refusal :=
  issueAs s (.smov g o) (fun s i =>
    match i.c.body with
    | .A o => .ok { s := s, w := i.w, sc := [(o.d.toNat, i.s o.a.toNat)] }
    | _ => .held s i.w)

/-- SRDL (R169). -/
def execSrdl (g : Grp) (o : OpsA) (s : State) : Host.Outcome State Fault Refusal :=
  issueAs s (.srdl g o) (fun s i =>
    match i.c.body with
    | .A o =>
      let j := (i.s o.b.toNat).toNat % 32
      .ok { s := s, w := i.w, sc := [(o.d.toNat, (lane (i.v o.a) j).setWidth 64)], lat := 6 }
    | _ => .held s i.w)

/-- SCMP (R170). -/
def execScmp (g : Grp) (o : OpsC) (s : State) : Host.Outcome State Fault Refusal :=
  issueAs s (.scmp g o) (fun s i =>
    match i.c.body with
    | .C o =>
      let x := intCond o.cond (i.s o.a.toNat) (i.s o.b.toNat)
      .ok { s := s, w := i.w, m := [(o.md.toNat, 0xFFFFFFFF#32, if x then 0xFFFFFFFF#32 else 0)] }
    | _ => .held s i.w)

/-- SMOVI (R171). -/
def execSmovi (g : Grp) (o : OpsK) (s : State) : Host.Outcome State Fault Refusal :=
  issueAs s (.smovi g o) (fun s i =>
    match i.c.body with
    | .K o => .ok { s := s, w := i.w, sc := [(o.d.toNat, o.imm.signExtend 64)] }
    | _ => .held s i.w)

/-- SMOVH (R171). -/
def execSmovh (g : Grp) (o : OpsK) (s : State) : Host.Outcome State Fault Refusal :=
  issueAs s (.smovh g o) (fun s i =>
    match i.c.body with
    | .K o => .ok { s := s, w := i.w, sc := [(o.d.toNat, (i.s o.d.toNat) <<< 16 ||| o.imm.setWidth 64)] }
    | _ => .held s i.w)

end Sys2Proof.Machine
end

