-- ==== Sys2Proof/Machine/Float.lean ====
section
/-! DEFINITION. The floating-point instructions (07_float.md R174 to R186): arithmetic, comparison, conversion and the SFU
functions, which complete later. -/

namespace Sys2Proof.Machine

/-! ## Shared operations -/

/-- The rounding mode of an issue (R50): the PREFIX's, RNE without one, RNDMODE under dyn. -/
def modeOf (s : State) (i : Iss) : Nat :=
  match i.c.grp.pfx with
  | some p => if p.rnd = 6 then (ctxOf s i.w.ctx).rndmode.toNat else p.rnd.toNat
  | none => 0

/-- The rounding of a lane: under SRK with the strand's draw (R51, R52). -/
def rndAt (s : State) (i : Iss) (l : Nat) : Rnd :=
  let m := modeOf s i
  if m = 5 then
    ⟨5, (drawBits (strandKey (strandOf s i.w)) (0x40000000#32 ||| (i.w.regs.q &&& 0x3FFFFFFF#32)) l).toNat⟩
  else ⟨m, 0⟩

/-- The draws that an issue in SRK uses (R52). -/
def srkOf (s : State) (i : Iss) : Nat := if modeOf s i = 5 then 1 else 0

/-- The flags of the lanes of ACTIVE (R58). -/
def flagsOver (i : Iss) (f : Nat → BitVec 32) : BitVec 32 :=
  (lanesOf i.act).foldl (fun x l => x ||| f l) 0

/-- A lane result with flags. -/
def floatOut (s : State) (i : Iss) (d : BitVec 6) (rounds : Bool) (f : Nat → FRes) : Out :=
  { laneOut s i d (fun l => (f l).1) with
    flags := flagsOver i (fun l => (f l).2), srk := if rounds then srkOf s i else 0 }

/-- A floating-point instruction of two sources. -/
def float2 (rounds : Bool) (f : Rnd → Word → Word → FRes) (s : State) (i : Iss) : Res :=
  match i.c.body with
  | .A o =>
    let a := i.v o.a
    let b := i.v o.b
    .ok (floatOut s i o.d rounds (fun l => f (rndAt s i l) (lane a l) (lane b l)))
  | _ => .held s i.w

/-- A unary floating-point function of fixed latency. -/
def float1 (rounds : Bool) (f : Rnd → Word → FRes) (s : State) (i : Iss) : Res :=
  match i.c.body with
  | .U o =>
    let a := i.v o.a
    .ok (floatOut s i o.d rounds (fun l => f (rndAt s i l) (lane a l)))
  | _ => .held s i.w

/-- Whether a flag's count lets an instruction count on it (R137). -/
def flagFull (w : Warp) (f : Option Nat) : Bool :=
  match f with
  | some n => decide (63 ≤ getAt 0 w.f n)
  | none => false

/-- An SFU function (R183): its result lands 12 cc after issue, on a flag or with the warp held. -/
def sfu1 (rounds : Bool) (f : Rnd → Word → FRes) (s : State) (i : Iss) : Res :=
  match i.c.body with
  | .U o =>
    let fl := flagOf i.c
    if flagFull i.w fl then .held s { i.w with holds := .retry :: i.w.holds }
    else
      let a := i.v o.a
      let (id, s) := takeFresh s
      let vals := laneIdx.map (fun l =>
        if laneBit i.act l then some (f (rndAt s i l) (lane a l)).1 else if laneBit i.written l then some 0 else none)
      let op : POp :=
        { id := id, kind := .sfu, flag := fl, vdst := if o.d = 60 then none else some o.d.toNat
          lanes := i.written, vals := vals, ready := some (i.w.now + 12)
          flagsOr := flagsOver i (fun l => (f (rndAt s i l) (lane a l)).2) }
      let w := raiseFlag { i.w with pend := i.w.pend ++ [op] } fl
      let w := if fl.isNone then { w with holds := .op id :: w.holds } else w
      .ok { s := s, w := w, map := op.vdst, srk := if rounds then srkOf s i else 0 }
  | _ => .held s i.w

/-! ## Arithmetic (R176, R178) -/

/-- FADD (R176). -/
def execFadd (g : Grp) (o : OpsA) (s : State) : Host.Outcome State Fault Refusal :=
  issueAs s (.fadd g o) (float2 true faddOp)

/-- FSUB (R176). -/
def execFsub (g : Grp) (o : OpsA) (s : State) : Host.Outcome State Fault Refusal :=
  issueAs s (.fsub g o) (float2 true fsubOp)

/-- FMUL (R176). -/
def execFmul (g : Grp) (o : OpsA) (s : State) : Host.Outcome State Fault Refusal :=
  issueAs s (.fmul g o) (float2 true fmulOp)

/-- FFMA (R176). -/
def execFfma (g : Grp) (o : OpsA) (s : State) : Host.Outcome State Fault Refusal :=
  issueAs s (.ffma g o) (fun s i =>
    match i.c.body with
    | .A o =>
      let a := i.v o.a
      let b := i.v o.b
      let c := i.cv
      .ok (floatOut s i o.d true (fun l => ffmaOp (rndAt s i l) (lane a l) (lane b l) (lane c l)))
    | _ => .held s i.w)

/-- FMIN (R178). -/
def execFmin (g : Grp) (o : OpsA) (s : State) : Host.Outcome State Fault Refusal :=
  issueAs s (.fmin g o) (lane2 fminOp)

/-- FMAX (R178). -/
def execFmax (g : Grp) (o : OpsA) (s : State) : Host.Outcome State Fault Refusal :=
  issueAs s (.fmax g o) (lane2 fmaxOp)

/-- FCMP (R179). -/
def execFcmp (g : Grp) (o : OpsC) (s : State) : Host.Outcome State Fault Refusal :=
  issueAs s (.fcmp g o) (fun s i =>
    match i.c.body with
    | .C o =>
      let a := i.v o.a
      let b := i.v o.b
      .ok (maskOut s i o.md (fun l => fcmpOp o.cond.toNat (lane a l) (lane b l)))
    | _ => .held s i.w)

/-! ## Unary functions of fixed latency (R180 to R182) -/

/-- FNEG (R180). -/
def execFneg (g : Grp) (o : OpsU) (s : State) : Host.Outcome State Fault Refusal :=
  issueAs s (.fneg g o) (lane1 fnegOp)

/-- FABS (R180). -/
def execFabs (g : Grp) (o : OpsU) (s : State) : Host.Outcome State Fault Refusal :=
  issueAs s (.fabs g o) (lane1 fabsOp)

/-- FFLOOR (R180). -/
def execFfloor (g : Grp) (o : OpsU) (s : State) : Host.Outcome State Fault Refusal :=
  issueAs s (.ffloor g o) (lane1 (frintOp { mode := 2 }))

/-- FCEIL (R180). -/
def execFceil (g : Grp) (o : OpsU) (s : State) : Host.Outcome State Fault Refusal :=
  issueAs s (.fceil g o) (lane1 (frintOp { mode := 3 }))

/-- FRINT (R180). -/
def execFrint (g : Grp) (o : OpsU) (s : State) : Host.Outcome State Fault Refusal :=
  issueAs s (.frint g o) (float1 true (fun r a => (frintOp r a, 0)))

/-- FCVTI (R180). -/
def execFcvti (g : Grp) (o : OpsU) (s : State) : Host.Outcome State Fault Refusal :=
  issueAs s (.fcvti g o) (float1 true fcvtiOp)

/-- ICVTF (R180). -/
def execIcvtf (g : Grp) (o : OpsU) (s : State) : Host.Outcome State Fault Refusal :=
  issueAs s (.icvtf g o) (float1 true icvtfOp)

/-- FCLASS (R180). -/
def execFclass (g : Grp) (o : OpsU) (s : State) : Host.Outcome State Fault Refusal :=
  issueAs s (.fclass g o) (lane1 fclassOp)

/-! ## SFU functions (R183 to R186) -/

/-- FRCP (R183). -/
def execFrcp (g : Grp) (o : OpsU) (s : State) : Host.Outcome State Fault Refusal :=
  issueAs s (.frcp g o) (sfu1 false (fun _ a => frcpOp a))

/-- FRSQ (R183). -/
def execFrsq (g : Grp) (o : OpsU) (s : State) : Host.Outcome State Fault Refusal :=
  issueAs s (.frsq g o) (sfu1 false (fun _ a => frsqOp a))

/-- FSQRT (R183). -/
def execFsqrt (g : Grp) (o : OpsU) (s : State) : Host.Outcome State Fault Refusal :=
  issueAs s (.fsqrt g o) (sfu1 true fsqrtOp)

/-- FEXP2 (R183). -/
def execFexp2 (g : Grp) (o : OpsU) (s : State) : Host.Outcome State Fault Refusal :=
  issueAs s (.fexp2 g o) (sfu1 false (fun _ a => fexp2Op a))

/-- FLOG2 (R183). -/
def execFlog2 (g : Grp) (o : OpsU) (s : State) : Host.Outcome State Fault Refusal :=
  issueAs s (.flog2 g o) (sfu1 false (fun _ a => flog2Op a))

/-- FSIN (R183). -/
def execFsin (g : Grp) (o : OpsU) (s : State) : Host.Outcome State Fault Refusal :=
  issueAs s (.fsin g o) (sfu1 false (fun _ a => ftrigOp 15 a))

/-- FCOS (R183). -/
def execFcos (g : Grp) (o : OpsU) (s : State) : Host.Outcome State Fault Refusal :=
  issueAs s (.fcos g o) (sfu1 false (fun _ a => ftrigOp 16 a))

/-- FTANH (R183). -/
def execFtanh (g : Grp) (o : OpsU) (s : State) : Host.Outcome State Fault Refusal :=
  issueAs s (.ftanh g o) (sfu1 false (fun _ a => ftanhOp a))

/-! ## Lane forms of 16 bits (R77, R177) -/

/-- FADD, 16-bit lane form (R77). -/
def execFaddC (o : OpsC16) (s : State) : Host.Outcome State Fault Refusal :=
  issueAs s (.faddC o) (float2 true faddOp)

/-- FSUB, 16-bit lane form (R77). -/
def execFsubC (o : OpsC16) (s : State) : Host.Outcome State Fault Refusal :=
  issueAs s (.fsubC o) (float2 true fsubOp)

/-- FMUL, 16-bit lane form (R77). -/
def execFmulC (o : OpsC16) (s : State) : Host.Outcome State Fault Refusal :=
  issueAs s (.fmulC o) (float2 true fmulOp)

/-- FMIN, 16-bit lane form (R77). -/
def execFminC (o : OpsC16) (s : State) : Host.Outcome State Fault Refusal :=
  issueAs s (.fminC o) (lane2 fminOp)

/-- FMAX, 16-bit lane form (R77). -/
def execFmaxC (o : OpsC16) (s : State) : Host.Outcome State Fault Refusal :=
  issueAs s (.fmaxC o) (lane2 fmaxOp)

end Sys2Proof.Machine
end

