-- ==== Sys2Proof/Machine/Cross.lean ====
section
/-! DEFINITION. The mask instructions (04_thread.md R135), the cross-lane network (09_crosslane.md R211 to R217) and RAND
(19_task.md R382). -/

namespace Sys2Proof.Machine

/-! ## Mask instructions (R135) -/

/-- A mask instruction that writes the lanes of the split. -/
def maskOp (f : Iss → OpsM → LaneMask) (s : State) (i : Iss) : Res :=
  match i.c.body with
  | .M o => .ok { s := s, w := i.w, m := [(o.md.toNat, i.split, f i o)] }
  | _ => .held s i.w

/-- A mask instruction that reads masks into a scalar. -/
def maskRead (f : LaneMask → LaneMask → Nat) (s : State) (i : Iss) : Res :=
  match i.c.body with
  | .M o => .ok { s := s, w := i.w, sc := [(o.s.toNat, .ofNat 64 (f (i.m o.ma.toNat) (i.m o.mb.toNat)))] }
  | _ => .held s i.w

/-- The number of set bits of a mask. -/
def maskCount (x : LaneMask) : Nat := (lanesOf x).length

/-- The lowest set bit of a mask, or 32. -/
def maskFirst (x : LaneMask) : Nat := ((lanesOf x).head?).getD 32

/-- MAND (R135). -/
def execMand (g : Grp) (o : OpsM) (s : State) : Host.Outcome State Fault Refusal :=
  issueAs s (.mand g o) (maskOp (fun i o => i.m o.ma.toNat &&& i.m o.mb.toNat))

/-- MOR (R135). -/
def execMor (g : Grp) (o : OpsM) (s : State) : Host.Outcome State Fault Refusal :=
  issueAs s (.mor g o) (maskOp (fun i o => i.m o.ma.toNat ||| i.m o.mb.toNat))

/-- MXOR (R135). -/
def execMxor (g : Grp) (o : OpsM) (s : State) : Host.Outcome State Fault Refusal :=
  issueAs s (.mxor g o) (maskOp (fun i o => i.m o.ma.toNat ^^^ i.m o.mb.toNat))

/-- MNOT (R135). -/
def execMnot (g : Grp) (o : OpsM) (s : State) : Host.Outcome State Fault Refusal :=
  issueAs s (.mnot g o) (maskOp (fun i o => ~~~ i.m o.ma.toNat))

/-- MMOV (R135). -/
def execMmov (g : Grp) (o : OpsM) (s : State) : Host.Outcome State Fault Refusal :=
  issueAs s (.mmov g o) (maskOp (fun i o => (i.s o.s.toNat).setWidth 32))

/-- MRD (R135). -/
def execMrd (g : Grp) (o : OpsM) (s : State) : Host.Outcome State Fault Refusal :=
  issueAs s (.mrd g o) (maskRead (fun a _ => a.toNat))

/-- MPOPC (R135). -/
def execMpopc (g : Grp) (o : OpsM) (s : State) : Host.Outcome State Fault Refusal :=
  issueAs s (.mpopc g o) (maskRead (fun a b => maskCount (a &&& b)))

/-- MFFS (R135). -/
def execMffs (g : Grp) (o : OpsM) (s : State) : Host.Outcome State Fault Refusal :=
  issueAs s (.mffs g o) (maskRead (fun a b => maskFirst (a &&& b)))

/-! ## The cross-lane network (R211 to R216) -/

/-- An exchange (R212): each ACTIVE lane receives the a value of its source lane where that lane is ACTIVE, else its fill. -/
def exchange (src : Iss → OpsX → Nat → Option Nat) (s : State) (i : Iss) : Res :=
  match i.c.body with
  | .X o =>
    let a := i.v o.a
    let old := if o.fill = 1 then i.v o.d else []
    let res (l : Nat) : Word :=
      let fill : Word := if o.fill = 0 then 0 else if o.fill = 1 then lane old l else lane a l
      match src i o l with
      | some j => if laneBit i.act j then lane a j else fill
      | none => fill
    .ok { laneOut s i o.d res with lat := 6 }
  | _ => .held s i.w

/-- XRD (R211). -/
def execXrd (g : Grp) (o : OpsX) (s : State) : Host.Outcome State Fault Refusal :=
  issueAs s (.xrd g o) (exchange (fun i o =>
    let b := i.v o.b
    fun l => some ((lane b l).toNat % 32)))

/-- XBFLY (R211). -/
def execXbfly (g : Grp) (o : OpsX) (s : State) : Host.Outcome State Fault Refusal :=
  issueAs s (.xbfly g o) (exchange (fun _ o l => some (l ^^^ (o.b.toNat % 32))))

/-- XBCAST (R211). -/
def execXbcast (g : Grp) (o : OpsX) (s : State) : Host.Outcome State Fault Refusal :=
  issueAs s (.xbcast g o) (exchange (fun _ o _ => some (o.b.toNat % 32)))

/-- XUP (R211). -/
def execXup (g : Grp) (o : OpsX) (s : State) : Host.Outcome State Fault Refusal :=
  issueAs s (.xup g o) (exchange (fun _ o l => if l < o.b.toNat % 32 then none else some (l - o.b.toNat % 32)))

/-- XDN (R211). -/
def execXdn (g : Grp) (o : OpsX) (s : State) : Host.Outcome State Fault Refusal :=
  issueAs s (.xdn g o) (exchange (fun _ o l => if 31 < l + o.b.toNat % 32 then none else some (l + o.b.toNat % 32)))

/-- MATCH (R217). -/
def execMatchLanes (g : Grp) (o : OpsU) (s : State) : Host.Outcome State Fault Refusal :=
  issueAs s (.matchLanes g o) (fun s i =>
    match i.c.body with
    | .U o =>
      let a := i.v o.a
      .ok { laneOut s i o.d (fun l => mkMask (fun j => laneBit i.act j && lane a j == lane a l)) with lat := 6 }
    | _ => .held s i.w)

/-- RAND (R382). -/
def execRand (g : Grp) (o : OpsU) (s : State) : Host.Outcome State Fault Refusal :=
  issueAs s (.rand g o) (fun s i =>
    match i.c.body with
    | .U o =>
      let c := i.w.regs.draw
      if c = 0x40000000#32 then .cause .pedigreeRank none 0 0
      else
        let key := strandKey (strandOf s i.w)
        .ok { laneOut s i o.d (fun l => drawBits key c l) with
          w := { i.w with regs := { i.w.regs with draw := c + 1 } } }
    | _ => .held s i.w)

end Sys2Proof.Machine
end

