-- ==== Sys2Proof/Machine/Limb.lean ====
section
/-! DEFINITION. Bound lanes and the tightrope: LBIND, LFREE and the long-integer instructions (10_limbs.md R218 to R229). -/

namespace Sys2Proof.Machine

/-! ## The binding (R220, R221) -/

/-- Whether f11 still counts (R221). -/
def longBusy (w : Warp) : Bool := getAt 0 w.f 11 != 0

/-- LIMBST's code of a group size (R219). -/
def bindCode (n : Nat) : BitVec 3 := .ofNat 3 (Nat.log2 n)

/-- LBIND (R220, R221). BOUND_DIVERGE names the lowest LIVE lane outside the split. (assumption 126, DESIGN CHOICE) -/
def execLbind (g : Grp) (o : OpsT) (s : State) : Host.Outcome State Fault Refusal :=
  issueAs s (.lbind g o) (fun s i =>
    if longBusy i.w then .held s { i.w with holds := .retry :: i.w.holds }
    else if (i.split &&& live i.w) != live i.w then .cause .boundDiverge (lanesOf (live i.w &&& ~~~ i.split)).head? 0 0
    else
      match tornLane o.imm.toNat 0xFFFFFFFF#32 (live i.w) with
      | some l => .cause .boundMask (some l) 0 0
      | none => .ok { s := s, w := { i.w with limbst := bindCode o.imm.toNat, carryx := List.replicate 32 0 } })

/-- LFREE (R220, R221). BOUND_DIVERGE names the lowest LIVE lane outside the split. (assumption 126, DESIGN CHOICE) -/
def execLfree (g : Grp) (o : OpsT) (s : State) : Host.Outcome State Fault Refusal :=
  issueAs s (.lfree g o) (fun s i =>
    if longBusy i.w then .held s { i.w with holds := .retry :: i.w.holds }
    else if (i.split &&& live i.w) != live i.w then .cause .boundDiverge (lanesOf (live i.w &&& ~~~ i.split)).head? 0 0
    else .ok { s := s, w := { i.w with limbst := 0 } })

/-! ## The long-integer instructions (R225 to R229) -/

/-- The operations of R226. -/
inductive LongOp where
  | add | sub | adc | muls | shl | shr | cmp | neg
  deriving DecidableEq, Repr

/-- The latency of R227 for groups of n lanes. -/
def longLatency (k : LongOp) (n : Nat) : Nat :=
  match k with
  | .muls => 12
  | .shl => 6
  | .shr => 6
  | _ => if n ≤ 4 then 6 else if n ≤ 16 then 8 else 9

/-- A vector operand, forwarded from outstanding long-integer results (R228). -/
def longV (i : Iss) (code : BitVec 6) : Lanes :=
  (i.w.pend.filter (fun p => p.kind == .long && p.vdst == some code.toNat)).foldl
    (fun x p => laneIdx.map (fun l => if laneBit p.overtaken l then lane x l else (getAt none p.vals l).getD (lane x l)))
    (if code.toNat ≤ 55 ∧ i.w.pend.any (fun p => p.kind == .long && p.vdst == some code.toNat) then
      vGet i.regs code.toNat else i.v code)

/-- m15, forwarded likewise (R228). -/
def longC (i : Iss) : LaneMask :=
  let ps := i.w.pend.filter (fun p => p.kind == .long)
  ps.foldl (fun x p => p.mres.foldl (fun x q => if q.1 = 15 then (q.2.2 &&& q.2.1) ||| (x &&& ~~~ q.2.1) else x) x)
    (if ps.isEmpty then i.m 15 else mGet i.regs 15)

/-- The number that a bound group holds (R226). -/
def limbs (x : Lanes) (g : Nat) : Nat → Nat
  | 0 => 0
  | n + 1 => (lane x g).toNat + 2 ^ 32 * limbs x (g + 1) n

/-- R, F, E and the carry limb of a group (R226, R229): of b the number and its limb 0, of d the number, the carry in,
the scalar. -/
def longGroup (k : LongOp) (n a b b0 d c sc : Nat) : Nat × Bool × Bool × Nat :=
  let m := 2 ^ (32 * n)
  match k with
  | .add => ((a + b) % m, decide (m ≤ a + b), false, 0)
  | .sub => ((a + m - b) % m, decide (a < b), false, 0)
  | .adc => ((a + b + c) % m, decide (m ≤ a + b + c), false, 0)
  | .muls => ((d + a * sc) % m, decide (m ≤ d + a * sc), false, (d + a * sc) / m)
  | .shl => (a * 2 ^ (b0 % 32) % m, decide (m ≤ a * 2 ^ (b0 % 32)), false, 0)
  | .shr => (a / 2 ^ (b0 % 32), decide (a % 2 ^ (b0 % 32) ≠ 0), false, 0)
  | .cmp => (0, decide (a < b), decide (a = b), 0)
  | .neg => ((m - a) % m, decide (a ≠ 0), false, 0)

/-- A long-integer instruction (R226 to R229): its results land later, in issue order, on f11. -/
def long (k : LongOp) (s : State) (i : Iss) : Res :=
  match i.c.body with
  | .A o =>
    if flagFull i.w (some 11) then .held s { i.w with holds := .retry :: i.w.holds }
    else
      let n := boundSize i.w
      let av := longV i o.a
      let bv := if k = .muls ∨ k = .neg then [] else longV i o.b
      let dv := if k = .muls then longV i o.d else []
      let cm := longC i
      let sc := if k = .muls then ((i.s o.b.toNat).setWidth 32).toNat else 0
      let group (l : Nat) : Nat × Bool × Bool × Nat :=
        let g := l / n * n
        longGroup k n (limbs av g n) (limbs bv g n) (lane bv g).toNat (limbs dv g n) (bit (laneBit cm g)) sc
      let vals := laneIdx.map (fun l =>
        if laneBit i.act l then some (.ofNat 32 ((group l).1 / 2 ^ (32 * (l % n))))
        else if laneBit i.written l then some (0 : Word) else none)
      let fm := mkMask (fun l => laneBit i.act l && l % n == 0 && (group l).2.1)
      let em := mkMask (fun l => laneBit i.act l && l % n == 0 && (group l).2.2.1)
      let writesD := k ≠ .cmp ∧ o.d ≠ 60
      let (id, s) := takeFresh s
      let uses := i.w.pend.filter (fun p => p.kind == .long)
      let start := uses.foldl (fun t p =>
        if p.vdst = some o.a.toNat ∨ p.vdst = some o.b.toNat ∨ p.vdst = some o.d.toNat ∨ k = .adc then
          max t (p.ready.getD t) else t) i.w.now
      let ready := uses.foldl (fun t p => max t (p.ready.getD t)) (start + longLatency k n)
      let op : POp :=
        { id := id, kind := .long, flag := some 11
          vdst := if writesD then some o.d.toNat else none
          lanes := if writesD then i.written else 0, vals := if writesD then vals else []
          mres := (15, i.written, fm) :: (if k = .cmp then [(14, i.written, em)] else [])
          carry := if k = .muls then
              (lanesOf i.act).map (fun l => (l, if l % n = 0 then .ofNat 32 (group l).2.2.2 else 0)) else []
          ready := some ready }
      .ok { s := s, w := raiseFlag { i.w with pend := i.w.pend ++ [op] } (some 11), map := op.vdst }
  | _ => .held s i.w

/-- LADD (R226). -/
def execLadd (g : Grp) (o : OpsA) (s : State) : Host.Outcome State Fault Refusal :=
  issueAs s (.ladd g o) (long .add)

/-- LSUB (R226). -/
def execLsub (g : Grp) (o : OpsA) (s : State) : Host.Outcome State Fault Refusal :=
  issueAs s (.lsub g o) (long .sub)

/-- LADC (R226). -/
def execLadc (g : Grp) (o : OpsA) (s : State) : Host.Outcome State Fault Refusal :=
  issueAs s (.ladc g o) (long .adc)

/-- LMULS (R226). -/
def execLmuls (g : Grp) (o : OpsA) (s : State) : Host.Outcome State Fault Refusal :=
  issueAs s (.lmuls g o) (long .muls)

/-- LSHL (R226). -/
def execLshl (g : Grp) (o : OpsA) (s : State) : Host.Outcome State Fault Refusal :=
  issueAs s (.lshl g o) (long .shl)

/-- LSHR (R226). -/
def execLshr (g : Grp) (o : OpsA) (s : State) : Host.Outcome State Fault Refusal :=
  issueAs s (.lshr g o) (long .shr)

/-- LCMP (R226). -/
def execLcmp (g : Grp) (o : OpsA) (s : State) : Host.Outcome State Fault Refusal :=
  issueAs s (.lcmp g o) (long .cmp)

/-- LNEG (R226). -/
def execLneg (g : Grp) (o : OpsA) (s : State) : Host.Outcome State Fault Refusal :=
  issueAs s (.lneg g o) (long .neg)

end Sys2Proof.Machine
end

