-- ==== Sys2Proof/Machine/Xlate.lean ====
section
/-! DEFINITION. Translation for warps: the L1 TLBs, translation slices and walks, the fault buffers, the page states and
the start of a collapse (14_page.md R289 to R299), and the multicasts that carry invalidations and collapses to the
dies (26_link.md R483, R484). -/

namespace Sys2Proof.Machine

/-! ## Addresses -/

/-- A page number, of 4 KiB. -/
def pageOf (va : Nat) : Nat := va / 4096

/-- The address that a leaf gives, window addresses set apart from physical ones by KIND and WIN (R285). -/
def physOf (e : BitVec 64) (va : Nat) : Nat := leafPa e va + 2 ^ 56 * leafKind e + 2 ^ 60 * (if leafKind e = 2 then leafWin e else 0)

/-- The KIND of an address of `physOf`. -/
def physKind (pa : Nat) : Nat := pa / 2 ^ 56 % 16

/-- What is known of the translation of an address for a warp: its core's TLB, or what its replayed group has met. -/
def xlateOf (s : State) (w : Warp) (va : Nat) : Option XRes :=
  if w.attempt.bad.any (fun b => va / 2 ^ b.2 == b.1 / 2 ^ b.2) then some .unresolvable
  else
    match tlbFind s.tlb w.core w.ctx va with
    | some e => some (.leaf e)
    | none => getKey (pageOf va) w.attempt.xlate

/-! ## Requests and walks (R289, R290) -/

/-- Whether some warp of a core and context waits for a page. -/
def wantsPage (s : State) (core c page : Nat) : Bool :=
  s.warps.any (fun w => w.core == core && w.ctx == c && w.holds.any (fun h =>
    match h with | .xlate ps => ps.contains page | _ => false))

/-- What a hold for translations still waits for. -/
def trimHold (covered : Nat → Bool) (h : Hold) : Option Hold :=
  match h with
  | .xlate ps =>
    let r := ps.filter (fun p => !covered p)
    if r.isEmpty then none else some (.xlate r)
  | h => some h

/-- Gives a core the answer for a page (R289). -/
def deliverXlate (s : State) (core c page : Nat) (r : XRes) : State :=
  match r with
  | .leaf e =>
    let base := leafBase e (4096 * page)
    let covered (p : Nat) : Bool := base ≤ 4096 * p && 4096 * p < base + 2 ^ leafLog e
    { s with
      tlb := tlbPut s.tlb Config.tlbEntries core c (4096 * page) e
      warps := s.warps.map (fun w => if w.core = core ∧ w.ctx = c then
        { w with holds := w.holds.filterMap (trimHold covered)
                 attempt := { w.attempt with xlate := w.attempt.xlate.filter (fun p => !covered p.1) } } else w) }
  | _ =>
    { s with warps := s.warps.map (fun w =>
      if w.core = core ∧ w.ctx = c ∧ w.holds.any (fun h => match h with | .xlate ps => ps.contains page | _ => false) = true then
        { w with holds := w.holds.filterMap (trimHold (fun p => p == page))
                 attempt := { w.attempt with xlate := putKey page r w.attempt.xlate } }
      else w) }

/-- Notes the home die of a page (R246), and that one with REPL = 1 is REPLICATED; words of it that are still REGISTERED go back
first, what the slices hold dirty goes to HBM, and no die holds a line of an earlier replica (R292). -/
def notePage (s : State) (c va : Nat) (e : BitVec 64) : State :=
  let base := leafBase e va
  let s := if leafKind e = 0 then
      { s with homes := (leafPa e base, leafLog e, leafHome e) :: s.homes.filter (fun h => h.1 != leafPa e base) } else s
  if leafRepl e && !(s.pages.any (fun p => p.ctx == c && p.base == base)) then
    let pa := leafPa e base
    let inPage (x : SliceWord) : Bool := decide (pa ≤ 4 * x.wa) && decide (4 * x.wa < pa + 2 ^ leafLog e)
    let s := (s.slices.filter (fun x => x.st != .home && inPage x)).foldl (fun s x => flushWord s x.wa) s
    let s := (s.slices.filter (fun x => x.dirty && inPage x)).foldl (fun s x => sliceClean s x.wa) s
    let s := dropReplicas s (fun _ => true) pa (2 ^ leafLog e)
    { s with pages := ⟨c, base, leafLog e, .replicated, pa⟩ :: s.pages }
  else s

/-- A request at the translation slice (R289, R290): its cache, a walk in progress, or a new walk. The answer tells whether
it was taken. -/
def askSlice (s : State) (core c page : Nat) : Bool × State :=
  let die := sliceDie (4096 * page)
  match tlbFind s.tcache die c (4096 * page) with
  | some e => (true, deliverXlate s core c page (.leaf e))
  | none =>
    match s.walks.find? (fun k => k.ctx == c && k.page == page) with
    | some k =>
      if k.waiters.length < Config.walkWaiters then
        (true, { s with walks := s.walks.map (fun x =>
          if x.ctx = c ∧ x.page = page then { x with waiters := x.waiters ++ [core] } else x) })
      else (false, s)
    | none => (true, { s with walks := s.walks ++ [⟨c, page, [core]⟩] })

/-- Whether a core's request for a page is out. -/
def asked (s : State) (core c page : Nat) : Bool :=
  s.walks.any (fun k => k.ctx == c && k.page == page && k.waiters.contains core) ||
  s.refused.any (fun r => r.core == core && r.ctx == c && r.page == page)

/-- TLB_MISS_REQUEST (R289, R290). -/
def dueTlbMissRequest (core c page : Nat) (s : State) : Option State :=
  if wantsPage s core c page ∧ asked s core c page = false then
    match askSlice s core c page with
    | (true, s) => some s
    | (false, s) => some { s with refused := s.refused ++ [⟨core, c, page, 0⟩] }
  else none

/-- TLB_MISS_REQUEST, which takes place where it is due. -/
def execTlbMissRequest (core c page : Nat) (s : State) : Host.Outcome State Fault Refusal := takes s (dueTlbMissRequest core c page s)

/-- TRANSLATION_REFUSAL_RETRY (R290). -/
def dueTranslationRefusalRetry (core c page : Nat) (s : State) : Option State :=
  match s.refused.find? (fun r => r.core == core && r.ctx == c && r.page == page) with
  | none => none
  | some r =>
    let rest := s.refused.filter (fun x => !(x == r))
    match askSlice { s with refused := rest } core c page with
    | (true, s) => some s
    | (false, s) => some { s with refused := s.refused ++ [{ r with k := min 4 (r.k + 1) }] }

/-- TRANSLATION_REFUSAL_RETRY, which takes place where it is due. -/
def execTranslationRefusalRetry (core c page : Nat) (s : State) : Host.Outcome State Fault Refusal := takes s (dueTranslationRefusalRetry core c page s)

/-- PAGE_WALK_DONE (R284 to R290, R292): the walk's answer to every waiter. -/
def duePageWalkDone (c page : Nat) (s : State) : Option State :=
  match s.walks.find? (fun k => k.ctx == c && k.page == page) with
  | none => none
  | some k =>
    let r := (walk s c (4096 * page)).1
    let s := { s with walks := s.walks.filter (fun x => !(x == k)) }
    let s := match r with
      | .leaf e => notePage { s with tcache := tlbPut s.tcache 65536 (sliceDie (4096 * page)) c (4096 * page) e } c (4096 * page) e
      | _ => s
    some (k.waiters.foldl (fun s core => deliverXlate s core c page r) s)

/-- PAGE_WALK_DONE, which takes place where it is due. -/
def execPageWalkDone (c page : Nat) (s : State) : Host.Outcome State Fault Refusal := takes s (duePageWalkDone c page s)

/-! ## The fault buffers (R297 to R299, R507) -/

/-- The access kinds of R507. -/
def kLoad : BitVec 7 := 1
def kStore : BitVec 7 := 2
def kAtomic : BitVec 7 := 4
def kFetch : BitVec 7 := 8
def kCopy : BitVec 7 := 16
def kHost : BitVec 7 := 32
def kWalk : BitVec 7 := 64

/-- The first byte of the granule of a level that holds an address (R297). -/
def granuleOf (level va : Nat) : Nat := va / 2 ^ granLog level * 2 ^ granLog level

/-- The lowest free slot of a die's buffer. -/
def freeSlot (s : State) (die : Nat) : Nat → Nat → Option Nat
  | 0, _ => none
  | n + 1, k =>
    if s.faults.any (fun f => f.die == die && f.slot == k) then freeSlot s die n (k + 1) else some k

/-- The key of a fault: the die of the address's translation slice, the level, the granule (R297). -/
def faultKey (level va : Nat) : Nat × Nat × Nat := (sliceDie va, level, granuleOf level va)

/-- Posts a fault of a key, joins an entry of the key, or is held for a full buffer (R297, R299). -/
def postKey (s : State) (c : Nat) (key : Nat × Nat × Nat) (kind : BitVec 7) (who : Waiter) : State :=
  let die := key.1
  let level := key.2.1
  let gran := key.2.2
  if s.faults.any (fun f => f.die == die && f.ctx == c && f.level == level && f.gran == gran) then
    { s with faults := s.faults.map (fun f =>
      if f.die = die ∧ f.ctx = c ∧ f.level = level ∧ f.gran = gran then
        { f with kinds := f.kinds ||| kind, waiters := f.waiters ++ [who] } else f) }
  else
    let used := (s.faults.filter (fun f => f.die == die)).length
    match (if used < Config.faultBufferEntries then freeSlot s die (used + 1) 0 else none) with
    | none => { s with heldFaults := s.heldFaults ++ [⟨die, c, level, gran, kind, who⟩] }
    | some k =>
      devSend { s with faults := s.faults ++ [⟨die, k, c, level, gran, kind, [who]⟩] } 0x42
        (natLe 2 (die * 4096 + k) ++ natLe 1 c ++ natLe 1 level ++ natLe 1 kind.toNat ++ [0, 0, 0] ++
         natLe 8 gran ++ natLe 8 s.tb.toNat ++ natLe 8 0)

/-- Posts the fault that an access to an address meets. -/
def postFault (s : State) (c level va : Nat) (kind : BitVec 7) (who : Waiter) : State := postKey s c (faultKey level va) kind who

/-- FAULT_BUFFER_RETRY (R299): the die's oldest held fault is posted once an entry has freed. -/
def dueFaultBufferRetry (die : Nat) (s : State) : Option State :=
  match s.heldFaults.find? (fun f => f.die == die) with
  | none => none
  | some f => some (postKey { s with heldFaults := s.heldFaults.erase f } f.ctx (f.die, f.level, f.gran) f.kind f.waiter)

/-- FAULT_BUFFER_RETRY, which takes place where it is due. -/
def execFaultBufferRetry (die : Nat) (s : State) : Host.Outcome State Fault Refusal := takes s (dueFaultBufferRetry die s)

/-- Whether a warp is fault-parked on a key. -/
def parkedOn (w : Warp) (key : Nat × Nat × Nat) : Bool := w.holds.any (fun h => match h with | .fault ks => ks.contains key | _ => false)

/-- Takes a key off a waiter's list; UNRESOLVABLE is noted with it (R298). One that no longer waits on the key hears nothing. -/
def answerWaiter (s : State) (level gran die : Nat) (bad : Bool) (who : Waiter) : State :=
  let key := (die, level, gran)
  let b : List (Nat × Nat) := if bad then [(gran, granLog level)] else []
  match who with
  | .warp wc n =>
    match warpFind s wc n with
    | none => s
    | some w =>
      if !(parkedOn w key) then s
      else
      let rest : List Hold := w.holds.filterMap (fun h =>
        match h with
        | .fault ks => if bad && ks.contains key then none
                       else if (ks.filter (fun k => !(k == key))).isEmpty then none else some (.fault (ks.filter (fun k => !(k == key))))
        | h => some h)
      setWarp s { w with holds := rest, attempt := { w.attempt with bad := w.attempt.bad ++ b, xlate := [] } }
  | .copy id _ =>
    { s with copies := s.copies.map (fun k => if k.id = id then
        { k with waits := k.waits.filter (fun x => !(x.2.1 == die && x.2.2.1 == level && x.2.2.2 == gran))
                 refused := k.refused || (bad && k.waits.any (fun x => x.2 == key)) } else k) }
  | .msg port conn _ =>
    { s with conns := s.conns.map (fun k => if k.port = port ∧ k.num.toNat = conn then   -- the failed ones too (R492)
        { k with waits := k.waits.filter (fun x => !(x == key)), bad := if k.waits.contains key then k.bad ++ b else k.bad } else k) }
  | .cmd bc bn cmd =>
    { s with blocks := s.blocks.map (fun x => if x.ctx = bc ∧ x.num = bn then
        { x with queue := x.queue.map (fun q => if q.id = cmd then
            { q with waits := q.waits.filter (fun y => !(y == key)), bad := if q.waits.contains key then q.bad ++ b else q.bad } else q) } else x) }

/-- The owner's answer to a fault-buffer entry (R298): every waiter replays, or meets TRANSLATION. -/
def answerFault (s : State) (c id : Nat) (bad : Bool) : Option State :=
  match s.faults.find? (fun f => f.die == id / 4096 && f.slot == id % 4096 && f.ctx == c) with
  | none => none
  | some f =>
    let s := { s with faults := s.faults.filter (fun x => !(x == f)) }
    some (f.waiters.foldl (fun s who => answerWaiter s f.level f.gran f.die bad who) s)

/-! ## Multicasts and the start of a collapse (R292, R293, R483) -/

/-- The eight compute dies. -/
def allDies : List Nat := [0, 1, 2, 3, 4, 5, 6, 7]

/-- Begins a multicast to every compute die. -/
def startCast (s : State) (k : CastKind) : State :=
  { s with casts := s.casts ++ [⟨s.fresh, k, allDies, [], [], [], false⟩], fresh := s.fresh + 1 }

/-- The collapse in progress of a page. -/
def collapseOf (s : State) (c base : Nat) : Option Nat :=
  s.casts.findSome? (fun k =>
    match k.kind with
    | .collapse c' b _ _ => if c' = c ∧ b = base then some k.id else none
    | _ => none)

/-- Makes sure that a page's collapse is in progress; its number (R292, R293). -/
def ensureCollapse (s : State) (c va : Nat) (e : BitVec 64) : Nat × State :=
  let base := leafBase e va
  match collapseOf s c base with
  | some id => (id, s)
  | none =>
    let pte := (walk s c va).2.1
    let id := s.fresh
    (id, { startCast s (.collapse c base (leafLog e) pte) with
      pages := ⟨c, base, leafLog e, .collapsing, leafPa e base⟩ :: s.pages.filter (fun p => !(p.ctx == c && p.base == base)) })

/-- Whether a write to a page must wait for its collapse (R292): its writer is stalled, and replays. -/
def mustCollapse (s : State) (c va : Nat) (e : BitVec 64) : Bool :=
  leafRepl e || (collapseOf s c (leafBase e va)).isSome

/-- Begins the collapses that some writes wait for (R292, R293): addresses with their leaves. -/
def beginCollapses (s : State) (c : Nat) (xs : List (Nat × BitVec 64)) : State := xs.foldl (fun s x => (ensureCollapse s c x.1 x.2).2) s

end Sys2Proof.Machine
end

