-- ==== Sys2Proof/Machine/Access.lean ====
section
/-! DEFINITION. Memory accesses of warps: the addresses, the checks before any byte moves, the race filter's first pass,
and what loads and stores do to the core's L1, the private window's stack cache and the window connections
(08_access.md R187 to R198; 04_thread.md R131 to R134; 12_word.md R250; 14_page.md R287; 26_link.md R497;
27_debug.md R511). -/

namespace Sys2Proof.Machine

/-! ## Holds -/

/-- The warp tries its group again after the next step. -/
def retryHold (w : Warp) : Warp := { w with holds := .retry :: w.holds }

/-- Whether n bytes from an address on touch a range modulo 2^64 (R278, R279). -/
def inRange (r : Range) (a n : Nat) : Bool :=
  decide ((BitVec.ofNat 64 a - r.base).toNat < r.len.toNat) || (decide (0 < r.len.toNat) && decide ((r.base - BitVec.ofNat 64 a).toNat < n))

/-- Whether two spans of bytes overlap. -/
def spansMeet (a n b m : Nat) : Bool := decide (a < b + m) && decide (b < a + n)

/-- Whether an access of n bytes at each of some addresses must wait for an acquire, a fence, or the stores of an STR that
waits for its release (R191, R200, R201, R279, R280). (assumption 33, DEDUCED) -/
def memHeld (w : Warp) (as : List Nat) (n : Nat) : Bool :=
  (match w.acq with
   | none => false
   | some q => match q.range with | none => true | some r => as.any (fun a => inRange r a n)) ||
  (match w.rel with
   | none => false
   | some q => match q.holds with
     | none => false
     | some none => true
     | some (some r) => as.any (fun a => inRange r a n)) ||
  w.relq.any (fun q => match q.cont with
    | .stores ws => ws.any (fun x => as.any (fun a => spansMeet a n x.1 4))
    | _ => false)

/-! ## The private window (R130 to R134) -/

/-- Whether an address lies in a warp's private window (R131). -/
def inPriv (w : Warp) (a : Nat) : Bool := decide (w.privbase.toNat ≤ a) && decide (a < w.privbase.toNat + 2 ^ 23)

/-- Whether an access lies above the accessible offsets of the private window (R131). -/
def overStack (w : Warp) (a n : Nat) : Bool :=
  inPriv w a && decide (w.privbase.toNat + w.stackLim.toNat * 128 < a + n)

/-- A word of the private window as its warp reads it (R133): its stack cache before memory. (assumption 18, DEDUCED) -/
def privRead (s : State) (w : Warp) (va pa : Nat) : Word := (getKey (va / 4 * 4) w.stack).getD (cohWord s (pa / 4))

/-- The distinct rows of 128 bytes of a stack cache. -/
def stackRows (st : List (Nat × Word)) : Nat := (dedup (st.map (fun p => p.1 / 128))).length

/-- A row of the stack cache has been used: of those that it holds it is the most recently used (R133). -/
def useRow (w : Warp) (va : Nat) : Warp :=
  let holds (r : Nat) : Bool := w.stack.any (fun p => p.1 / 128 == r)
  let rest := w.rowUse.filter (fun r => r != va / 128 && holds r)
  { w with rowUse := if holds (va / 128) then rest ++ [va / 128] else rest }

/-- Moves the least recently used row of a full stack cache to memory (R133). -/
def spillStack (s : State) (w : Warp) : State × Warp :=
  if stackRows w.stack ≤ 32 then (s, w)
  else
    match w.rowUse with
    | [] => (s, w)
    | r :: rest =>
      let mine := w.stack.filter (fun p => p.1 / 128 == r)
      let w := { w with stack := w.stack.filter (fun p => !(p.1 / 128 == r)), rowUse := rest }
      match writeStack s w.ctx mine with
      | .ok s => (s, w)
      | .error (k, s) => (ctxFault s w.ctx k (some w.core) (some w.num) (.ofNat 64 (128 * r)), w)

/-- Writes bytes of a word of the private window (R133). -/
def privWrite (s : State) (w : Warp) (va pa : Nat) (m : BitVec 4) (v : Word) : State × Warp :=
  spillStack s (useRow { w with stack := putKey (va / 4 * 4) (overlay (privRead s w va pa) v m) w.stack } va)

/-! ## Checks (R189, R194, R195) -/

/-- What an access asks of its lanes: element size and alignment, reads, writes, and what else its checks need. -/
structure Want where
  size : Nat
  align : Nat
  rd : Bool
  wr : Bool
  stf : Bool := false
  atom : Bool := false
  kind : BitVec 7
  /-- WATCH is tested, and the race filter checks the lanes -/
  watch : Bool := true
  plain : Bool := false
  deriving DecidableEq, Repr

/-- What the checks of an access settle: a cause with its lane and code, the warp waits, or each lane's leaf. -/
inductive Gate where
  | cause (k : Cause) (lane : Nat) (addr : Nat) (code : BitVec 8)
  | wait (s : State) (w : Warp)
  | go (s : State) (es : List (Nat × Nat × BitVec 64))

/-- The connection that carries the accesses of a window page, if the window is allowed (R497). -/
def windowConn (s : State) (c : Nat) (e : BitVec 64) : Option (Nat × BitVec 32) :=
  let x := ctxOf s c
  if leafKind e = 1 then
    if x.hostwin.getLsbD 63 then some (0, x.hostwin.setWidth 32) else none
  else
    match getKey (leafWin e) x.fabwin with
    | some bs => if fr bs 0 1 % 2 = 1 then some (fr bs 1 1, .ofNat 32 (fr bs 4 4)) else none
    | none => none

/-- The cause of order 6 of R189 that a leaf gives an access (R25, R202, R209, R287, R497). -/
def leafCause (s : State) (c : Nat) (k : Want) (e : BitVec 64) (va : Nat) : Option Cause :=
  if leafKind e = 2 ∧ accepted s 1 = false then some .translation
  else if (k.rd && !leafR e) || (k.wr && !leafW e) then some .protection
  else if leafKind e = 0 then (if isMemory (leafPa e va) then none else some .protection)
  else if k.stf || (k.atom && leafKind e == 1) || (windowConn s c e).isNone then some .protection
  else none

/-- The lowest watchpoint that matches an access (R511). -/
def watchHit (x : Ctx) (k : Want) (a : Nat) : Nat → Option Nat → Option Nat
  | 0, r => r
  | n + 1, r =>
    let ctl := getAt 0 x.wpctl n
    let b := (getAt 0 x.wpbase n).toNat
    watchHit x k a n (if ctl.getLsbD 31 && ((k.wr && ctl.getLsbD 30) || (k.rd && ctl.getLsbD 29)) &&
      spansMeet a k.size b (ctl.toNat % 2 ^ 24) then some n else r)

/-- The lowest lane with an outcome. -/
def firstHit {α β : Type} (f : α → Option β) : List α → Option (α × β)
  | [] => none
  | x :: xs => match f x with | some y => some (x, y) | none => firstHit f xs

/-- At a spawn or sync boundary a strand is checked again (R258). -/
def boundary (w : Warp) : Warp := { w with unchecked := false, parked := w.parked.map (fun p => { p with acq := false }) }

/-- Whether a strand is unchecked: it has issued an acquiring instruction, or a split of it is parked at one (R258). -/
def uncheckedNow (w : Warp) : Bool := w.unchecked || w.parked.any (fun p => p.acq)

/-- Whether the race filter checks a warp's plain accesses (R195, R258, R318). -/
def raceOn (s : State) (w : Warp) : Bool :=
  (ctxOf s w.ctx).raceEn && accepted s 3 && w.tag != 0 && !(uncheckedNow w) && !w.inHandler

/-- The tag under which a warp's stores register (R25, R258, R261, R318). -/
def storeTag (s : State) (w : Warp) : BitVec 16 :=
  if (ctxOf s w.ctx).raceEn ∧ accepted s 3 ∧ uncheckedNow w = false ∧ w.inHandler = false then w.tag else 0

/-! ## What the core holds (R193, R250, R287) -/

/-- How a load finds a word: its value in the core, a grant to the core that it must wait for, or not there. -/
inductive Found where
  | val (v : Word)
  | wait
  | ask
  deriving DecidableEq, Repr

/-- Whether an earlier load of the warp still waits for a word: a later one is served behind it (R272). -/
def loadsWord (w : Warp) (k : Nat) : Bool := w.pend.any (fun p => p.words.any (fun y => y.1 == k && y.2.isNone))

/-- A word as a core's load of some of its bytes finds it (R133, R250, R287): the stack cache, a registered word, the bytes of a
store that waits for its grant, or a copy that the page lets the core hold. -/
def findWord (s : State) (w : Warp) (e : BitVec 64) (va : Nat) (need : BitVec 4) : Found :=
  if leafKind e = 0 ∧ inPriv w va = true then .val (privRead s w va (leafPa e va))
  else
    let k := physOf e va / 4
    if leafC e = false ∨ loadsWord w k = true then .ask
    else
      match l1Find s.l1 (ownerOf s w.core) k with
      | some x =>
        if x.st ≠ .pending then .val x.val
        else
          match x.base with
          | some (b, _) => .val (overlay b x.val x.mask)
          | none => if need &&& ~~~ x.mask = 0 then .val x.val else .wait
      | none =>
        if leafKind e = 0 then .ask
        else
          match l1Find s.l1 (l2Owner (dieOf w.core)) k with
          | some x => .val x.val
          | none => .ask

/-- Whether the two words of an aligned doubleword stand in the core as one access left them: both of the private window, both
registered, or copies of one reading (R193). -/
def pairHere (s : State) (w : Warp) (e : BitVec 64) (va : Nat) : Bool :=
  if leafKind e = 0 ∧ inPriv w va = true then true
  else
    let k := physOf e va / 4
    leafC e && !(loadsWord w k) && !(loadsWord w (k + 1)) &&
    (match l1Find s.l1 (ownerOf s w.core) k, l1Find s.l1 (ownerOf s w.core) (k + 1) with
     | some x, some y =>
       (x.st == .registered && y.st == .registered) || (x.st == .valid && y.st == .valid && x.stamp == y.stamp)
     | _, _ => false)

/-- Whether the filter leaves a lane unchecked: a load that hits in L1, or a store that is performed locally (R195). (assumption 29, DEDUCED) -/
def raceExempt (s : State) (w : Warp) (k : Want) (e : BitVec 64) (va : Nat) : Bool :=
  let mine (n : Nat) : Bool := match l1Find s.l1 (ownerOf s w.core) n with
    | some x => x.st == .registered && x.tag == storeTag s w
    | none => false
  leafKind e != 0 ||
  (if k.wr then !k.stf && leafC e && mine (physOf e va / 4) && (k.size != 8 || mine (physOf e va / 4 + 1))
   else !(inPriv w va) && (if k.size = 8 then pairHere s w e va
     else match findWord s w e va (byteMask (va % 4) k.size) with | .val _ => true | _ => false))

/-- Sends the check requests of a group (R195); their messages' numbers. -/
def sendChecks (s : State) (w : Warp) (k : Want) : List (Nat × Nat × BitVec 64) → State × List Nat
  | [] => (s, [])
  | (l, va, e) :: r =>
    let id := s.fresh
    let pa := leafPa e va
    let s := netSend s (ownerOf s w.core)
      (.check w.ctx w.num l va (pa / 4) (byteMask (pa % 4) (min k.size (4 - pa % 4))) w.tag)
    let two := k.size = 8
    let (s, more) := if two then
        (netSend s (ownerOf s w.core) (.check w.ctx w.num l va (pa / 4 + 1) 15#4 w.tag), [s.fresh])
      else (s, [])
    let (s, ids) := sendChecks s w k r
    (s, id :: more ++ ids)

/-- The checks of an access in the order of R189 from position 2 on, then its translations (R194), watchpoints (R511), collapses
that a write waits for (R292) and race checks (R195). `as` gives lane and address, in lane order. -/
def gate (s : State) (w : Warp) (k : Want) (as : List (Nat × Nat)) : Gate :=
  if memHeld w (as.map (fun p => p.2)) k.size then .wait s (retryHold w)
  else
    match as.find? (fun p => decide (2 ^ 57 ≤ p.2)) with
    | some (l, a) => .cause .translation l a 0
    | none =>
      match as.find? (fun p => p.2 % k.align != 0) with
      | some (l, a) => .cause .misaligned l a 0
      | none =>
        match as.find? (fun p => overStack w p.2 k.size) with
        | some (l, a) => .cause .stackLimit l a 0
        | none =>
          let xs := as.map (fun p => (p.1, p.2, xlateOf s w p.2))
          let missing := dedup ((xs.filter (fun x => x.2.2.isNone)).map (fun x => pageOf x.2.1))
          if !missing.isEmpty then .wait s { w with holds := .xlate missing :: w.holds }
          else
            match firstHit (fun x : Nat × Nat × Option XRes =>
                match x.2.2 with
                | some .unresolvable => some Cause.translation
                | some .refused => some Cause.protection
                | some (.leaf e) => leafCause s w.ctx k e x.2.1
                | _ => none) xs with
            | some (x, c) => .cause c x.1 x.2.1 0
            | none =>
              let absent := xs.filterMap (fun x => match x.2.2 with | some (.notPresent lv) => some (faultKey lv x.2.1) | _ => none)
              let absent := absent.foldl (fun (acc : List (Nat × Nat × Nat)) y => if acc.contains y then acc else acc ++ [y]) []
              if !absent.isEmpty then
                let s := absent.foldl (fun s y => postKey s w.ctx y k.kind (.warp w.ctx w.num)) s
                .wait s { w with holds := .fault absent :: w.holds
                                 attempt := { w.attempt with xlate := [] } }
              else
                let es := xs.filterMap (fun x => match x.2.2 with | some (.leaf e) => some (x.1, x.2.1, e) | _ => none)
                match (if k.watch then firstHit (fun x : Nat × Nat × BitVec 64 => watchHit (ctxOf s w.ctx) k x.2.1 8 none) es else none) with
                | some (x, n) => .cause .watch x.1 x.2.1 (.ofNat 8 n)
                | none =>
                  let stall := (es.filter (fun x => k.wr && leafKind x.2.2 == 0 && mustCollapse s w.ctx x.2.1 x.2.2)).map (fun x => x.2)
                  if !stall.isEmpty then .wait (beginCollapses s w.ctx stall) (retryHold w)
                  else if k.plain && raceOn s w && !w.attempt.checked then
                    match es.filter (fun x => !(raceExempt s w k x.2.2 x.2.1)) with
                    | [] => .go s es
                    | need =>
                      let (s, ids) := sendChecks s w k need
                      .wait s { w with holds := .check :: w.holds, attempt := { w.attempt with checks := ids } }
                  else
                    match w.attempt.raced with
                    | [] => .go s es
                    | r :: rs =>
                      let m := rs.foldl (fun a b => if b.1 < a.1 then b else a) r
                      .cause .race m.1 m.2 0

/-! ## Loads (R197, R198, R250, R287, R497) -/

/-- A load's raw element from its words: a lane's bytes from a byte offset on. -/
def elemOf (v : Word) (off n : Nat) : Nat := v.toNat / 256 ^ off % 256 ^ n

/-- A lane's value once its words are known. -/
def laneVal (p : POp) (x : LaneSrc) : Option Word :=
  match p.kind with
  | .load fmt _ => ((getKey x.wa p.words).getD none).map (fun v => widen fmt (elemOf v x.off (fmtBytes fmt)))
  | _ => none

/-- An operation learns a word in a step (R197). -/
def learn (wa : Nat) (v : Word) (now : Nat) (p : POp) : POp :=
  if p.words.any (fun x => x.1 == wa && x.2.isNone) then
    let p := { p with words := p.words.map (fun (x : Nat × Option Word) => if x.1 = wa then (wa, some v) else x)
                      fill := p.fill.map (fun (x : Nat × Word × Nat) => if x.1 = wa then (wa, v, now) else x) }
    { p with vals := laneIdx.map (fun l =>
        match p.srcs.find? (fun (x : LaneSrc) => x.lane == l) with
        | some x => laneVal p x
        | none => getAt none p.vals l) }
  else p

/-- The words of an access, each once: virtual word address and leaf. -/
def wordsOf (es : List (Nat × Nat × BitVec 64)) : List (Nat × BitVec 64) :=
  es.foldl (fun acc x => if acc.any (fun y => y.1 == x.2.1 / 4 * 4) then acc else acc ++ [(x.2.1 / 4 * 4, x.2.2)]) []

/-- A request of the device on a connection, under a TAG equal to its SEQ. (assumption 58, DEDUCED) -/
def connRequest (k : Conn) (m : OutMsg) (r : DevReq) : Conn :=
  { connSend k { m with tag := k.tx } with reqs := k.reqs ++ [(k.tx, r)] }

/-- Sends a request for a window access of a context; none without its connection (R497, R498). -/
def windowSendAt (s : State) (c : Nat) (e : BitVec 64) (m : OutMsg) (r : DevReq) : Option State :=
  match windowConn s c e with
  | none => none
  | some (port, num) => (connFind s port num).map (fun k => setConn s (connRequest k m r))

/-- Sends a request for a window access of a warp. -/
def windowSend (s : State) (w : Warp) (e : BitVec 64) (m : OutMsg) (r : DevReq) : Option State := windowSendAt s w.ctx e m r

/-- The window address of a word, as a request names it (R285, R488). -/
def windowAddr (e : BitVec 64) (va : Nat) : DWord := .ofNat 64 (leafPa e va)

/-- Gives a word to an operation of a warp. -/
def learnAt (s : State) (c n id wa : Nat) (v : Word) : State :=
  match warpFind s c n with
  | none => s
  | some w => setWarp s { w with pend := w.pend.map (fun p => if p.id = id then learn wa v s.tick p else p) }

/-- The loads that wait for a core's own word to be granted take its bytes (R250). -/
def learnHeld (s : State) (owner wa : Nat) (v : Word) : State :=
  { s with warps := s.warps.map (fun w =>
      { w with pend := w.pend.map (fun p => if p.owner = owner ∧ p.held.contains wa = true then
          { learn wa v s.tick p with held := p.held.filter (fun k => !(k == wa)) } else p) }) }

/-- Asks for the words of a load that the core does not hold: one request for each line of local memory (R197), one READ
for each word of a window, or for the two of an SLD (R193, R497). The answer also lists words whose window is gone. -/
def askWords (s : State) (w : Warp) (id : Nat) (pair : Bool) (ws : List (Nat × BitVec 64)) : State × List Nat :=
  let here := (ws.filter (fun x => leafKind x.2 == 0)).map (fun x => physOf x.2 x.1 / 4)
  let lines := dedup (here.map (fun k => k / 16))
  let s := lines.foldl (fun s ln =>
    let ks := here.filter (fun k => k / 16 == ln)
    netSend s (ownerOf s w.core) (match ws.find? (fun x => leafKind x.2 == 0 && leafRepl x.2 && ks.contains (physOf x.2 x.1 / 4)) with
      | some x => .replica w.ctx w.num id ks w.core (leafBase x.2 x.1)
      | none => .read w.ctx w.num id ks w.core)) s
  let far := ws.filter (fun x => leafKind x.2 != 0)
  (if pair then far.take 1 else far).foldl (fun (acc : State × List Nat) x =>
    let k := physOf x.2 x.1 / 4
    match windowSend acc.1 w x.2 { ty := 1, seq := 0, addr := windowAddr x.2 x.1, len := if pair then 8 else 4 }
        (.window w.ctx w.num id k) with
    | some s => (s, acc.2)
    | none => (ctxFault acc.1 w.ctx .protection (some w.core) (some w.num) (.ofNat 64 x.1),
        acc.2 ++ (if pair then [k, k + 1] else [k]))) (s, [])

/-- The invalidation epoch of an L1 (R250: a fill that arrives after an acquire has begun is installed INVALID). -/
def epochOf (s : State) (owner : Nat) : Nat := (getKey owner s.epochs).getD 0

/-- The bytes of a word that the lanes of a load of n bytes name. -/
def neededBytes (es : List (Nat × Nat × BitVec 64)) (n va : Nat) : BitVec 4 :=
  es.foldl (fun m x => if x.2.1 / 4 = va / 4 then m ||| byteMask (x.2.1 % 4) (min n 4) else m) 0

/-- The bytes of a load's elements within a word. -/
def opBytes (p : POp) : Nat := match p.kind with | .load fmt _ => fmtBytes fmt | _ => 4

/-- What a core finds of the words of a load: an SLD takes both of its words from the core, or asks for both (R193). -/
def findFor (s : State) (w : Warp) (op : POp) (es : List (Nat × Nat × BitVec 64)) (x : Nat × BitVec 64) : Found :=
  let whole := match op.kind, op.sdst with
    | .sld, some _ => es.head?.elim true (fun y => pairHere s w y.2.2 y.2.1)
    | _, _ => true
  if whole then findWord s w x.2 x.1 (neededBytes es (opBytes op) x.1) else .ask

/-- Begins a load: the operation with the words that the core holds, those whose grant it waits for, and the requests for the
others. -/
def beginLoad (s : State) (w : Warp) (op : POp) (es : List (Nat × Nat × BitVec 64)) : State × Warp :=
  let ws := wordsOf es
  let found := findFor s w op es
  let word (x : Nat × BitVec 64) : Nat := physOf x.2 x.1 / 4
  let asked := ws.filter (fun x => found x == .ask)
  let owner := ownerOf s w.core
  let op := { op with
    words := ws.map (fun x => (word x, none))
    held := (ws.filter (fun x => found x == .wait)).map word
    fill := (asked.filter (fun x => leafC x.2)).map (fun x => (word x, 0, 0))
    owner := owner, epoch := epochOf s owner, pages := ws.map (fun x => x.1) }
  let op := ws.foldl (fun p x => match found x with | .val v => learn (word x) v s.tick p | _ => p) op
  let (s, gone) := askWords s w op.id (op.kind == .sld && op.sdst.isSome) asked
  let op := gone.foldl (fun p k => learn k ((Config.freeDWord s.free).setWidth 32) s.tick p) op
  let w := ws.foldl (fun w x => if leafKind x.2 = 0 ∧ inPriv w x.1 = true then useRow w x.1 else w) w
  (s, { w with pend := w.pend ++ [op] })

/-- Whether a lane of a CPY16 of the warp has yet to read bytes of a word (R191). -/
def unreadLane (s : State) (w : Warp) (va : Nat) : Bool :=
  s.copies.any (fun k => k.ctx == w.ctx && k.warp == w.num && k.image.isEmpty && spansMeet k.lanesrc.toNat 16 (va / 4 * 4) 4 &&
    (match k.kind with | .cpy16 _ => true | _ => false))

/-- Whether a lane of a CPY16 of the warp has yet to land on scratchpad bytes that an access names (R191). -/
def lanesFlying (s : State) (w : Warp) (as : List (Nat × Nat)) (n : Nat) : Bool :=
  s.copies.any (fun k => k.ctx == w.ctx && k.warp == w.num && as.any (fun p => spansMeet k.scr 16 p.2 n) &&
    (match k.kind with | .cpy16 _ => true | _ => false))

/-- Whether an access of the warp must wait for an earlier one of its own to the same bytes (R191): the source read of a CPY16, or
an STF to the private window. -/
def behindOwn (s : State) (w : Warp) (es : List (Nat × Nat × BitVec 64)) : Bool :=
  es.any (fun x => unreadLane s w x.2.1) || es.any (fun x => decide (leafKind x.2.2 = 0) && inPriv w x.2.1 &&
    w.stores.any (fun y => y.wa == physOf x.2.2 x.2.1 / 4))

/-- The same, or some word of it awaits its grant in the core's L1 (R250). -/
def anyPending (s : State) (w : Warp) (es : List (Nat × Nat × BitVec 64)) : Bool :=
  behindOwn s w es || es.any (fun x => decide (¬ (leafKind x.2.2 = 0 ∧ inPriv w x.2.1 = true)) &&
    (match l1Find s.l1 (ownerOf s w.core) (physOf x.2.2 x.2.1 / 4) with | some y => y.st == .pending | none => false))

/-! ## Stores (R191, R198, R250, R262, R287, R497) -/

/-- Runs of ones of a byte mask: offset and length. -/
def maskRuns (m : BitVec 4) : List (Nat × Nat) :=
  match m.toNat with
  | 0 => []
  | 1 => [(0, 1)] | 2 => [(1, 1)] | 3 => [(0, 2)] | 4 => [(2, 1)]
  | 5 => [(0, 1), (2, 1)] | 6 => [(1, 2)] | 7 => [(0, 3)] | 8 => [(3, 1)]
  | 9 => [(0, 1), (3, 1)] | 10 => [(1, 1), (3, 1)] | 11 => [(0, 2), (3, 1)] | 12 => [(2, 2)]
  | 13 => [(0, 1), (2, 2)] | 14 => [(1, 3)]
  | _ => [(0, 4)]

/-- The bytes of some lanes' elements gathered by word, a higher lane's bytes over a lower's (R192): word address, leaf,
mask, value. -/
def gatherStores (size : Nat) (val : Nat → Nat) (es : List (Nat × Nat × BitVec 64)) : List (Nat × BitVec 64 × BitVec 4 × Word) :=
  es.foldl (fun acc x =>
    let wv := x.2.1 / 4 * 4
    let off := x.2.1 % 4
    let m := byteMask off (min size 4)
    let v : Word := .ofNat 32 (val x.1 * 256 ^ off)
    if acc.any (fun y => y.1 == wv) then
      acc.map (fun y => if y.1 = wv then (y.1, y.2.1, y.2.2.1 ||| m, overlay y.2.2.2 v m) else y)
    else acc ++ [(wv, x.2.2, m, overlay 0 v m)]) []

/-- A word taken out of what the loads in flight of a warp will install in an L1. -/
def withoutFill (owner k : Nat) (w : Warp) : Warp :=
  { w with pend := w.pend.map (fun p => if p.owner = owner then { p with fill := p.fill.filter (fun f => !(f.1 == k)) } else p) }

/-- Takes a word out of what loads in flight of an L1 will install, once the core stores to it. -/
def dropFill (s : State) (owner k : Nat) : State := { s with warps := s.warps.map (withoutFill owner k) }

/-- The copies of a window word that a core finds, in its L1 and its die's L2, take the bytes of a store. -/
def windowCopies (s : State) (w : Warp) (k : Nat) (m : BitVec 4) (v : Word) : State :=
  let own := ownerOf s w.core
  { s with l1 := s.l1.map (fun x => if x.wa = k ∧ (x.owner = own ∨ x.owner = l2Owner (dieOf w.core)) then
    { x with val := overlay x.val v m } else x) }

/-- A WRITE of bytes of a window page (R497). -/
def windowWrite (s : State) (w : Warp) (va : Nat) (e : BitVec 64) (bs : List Byte) : State × Warp :=
  let id := s.fresh
  let msg : OutMsg := { ty := 2, seq := 0, addr := windowAddr e va, len := bs.length, payload := bs }
  match windowSend { s with fresh := s.fresh + 1 } w e msg (.store w.ctx w.num id) with
  | some s => (s, { w with stores := w.stores ++ [⟨id, va / 4 * 4, physOf e va / 4, leafKind e⟩] })
  | none => (ctxFault s w.ctx .protection (some w.core) (some w.num) (.ofNat 64 (va / 4 * 4)), w)

/-- A store to a word of a window page (R497): WRITE messages, and the copies in the core's L1 and its die's L2. -/
def windowStore (s : State) (w : Warp) (va : Nat) (e : BitVec 64) (m : BitVec 4) (v : Word) : State × Warp :=
  (maskRuns m).foldl (fun (acc : State × Warp) r => windowWrite acc.1 acc.2 (va + r.1) e (natLe r.2 (elemOf v r.1 r.2)))
    (windowCopies s w (physOf e va / 4) m v, w)

/-- One store of a warp to bytes of a word (R250, R262, R287): in the stack cache, by WRITE to a window, locally in a
REGISTERED word, or by a registration. `fwd` is the consumer cluster of an STF. -/
def storeWord (s : State) (w : Warp) (stf : Option Nat) (va : Nat) (e : BitVec 64) (m : BitVec 4) (v : Word) : State × Warp :=
  if leafKind e ≠ 0 then windowStore s w va e m v
  else if inPriv w va = true ∧ stf = none then privWrite s w va (leafPa e va) m v
  else
    let (s, w) := if inPriv w va then privWrite s w va (leafPa e va) m v else (s, w)
    let k := physOf e va / 4
    let own := ownerOf s w.core
    let tag := storeTag s w
    let thru := stf.isSome || !leafC e
    let s := dropFill s own k
    let w := withoutFill own k w
    let send (s : State) (base : Option (Word × BitVec 4)) : State × Warp :=
      let ent : L1Word := { owner := own, wa := k, st := .pending, val := overlay 0 v m, mask := m, tag := tag, ctx := w.ctx
                            thru := thru, keep := leafC e, base := base, va := va }
      let id := s.fresh
      let s := netSend { s with l1 := l1Put s.l1 ent } own (.register [(k, m, v)] tag w.ctx thru stf)
      (s, { w with stores := w.stores ++ [⟨id, va, k, 0⟩] })
    match l1Find s.l1 own k with
    | some x =>
      if x.st = .registered then
        if thru then send (giveUp s x) none
        else if x.tag = tag then
          ({ s with l1 := l1Put s.l1 { x with val := overlay x.val v m, mask := x.mask ||| m } }, w)
        else send s (some (x.val, x.mask))
      else send s none
    | none => send s none

/-- The stores of a group. -/
def storeWords (s : State) (w : Warp) (stf : Option Nat) (ws : List (Nat × BitVec 64 × BitVec 4 × Word)) : State × Warp :=
  ws.foldl (fun (acc : State × Warp) x => storeWord acc.1 acc.2 stf x.1 x.2.1 x.2.2.1 x.2.2.2) (s, w)

/-! ## Release conditions (R267, R279) -/

/-- Whether a store of a warp still has to be granted or acknowledged for a release at a scope (R267). -/
def storeDue (s : State) (w : Warp) (scope : Nat) (x : OutStore) : Bool :=
  if x.window = 0 then decide (4 ≤ scope) || (decide (scope = 3) && !isFused s w.core)
  else if x.window = 1 then decide (7 ≤ scope)
  else decide (8 ≤ scope)

/-- Whether an operation is a load in the sense of R267: it reads memory or the scratchpad. -/
def isLoad (p : POp) : Bool :=
  match p.kind with
  | .load _ _ => true | .sld => true | .scratch _ => true | .atom => true
  | _ => false

/-- The STRs whose stores wait for a release of their own, those with a store to a range only (R201). -/
def queuedStores (w : Warp) (r : Option Range) : List Nat :=
  (w.relq.filter (fun q => match q.cont with
    | .stores ws => r.isNone || ws.any (fun x => r.elim true (fun g => inRange g x.1 4))
    | _ => false)).map (fun q => q.id)

/-- The operations and stores that a release at a scope waits for, those of a range only (R267, R279). -/
def releaseList (s : State) (w : Warp) (scope : Nat) (r : Option Range) : List Nat × List Nat :=
  let touch (a n : Nat) : Bool := match r with | none => true | some g => inRange g a n
  ((w.pend.filter (fun p => isLoad p && (r.isNone || p.pages.any (fun a => touch a 4)))).map (fun p => p.id),
   (w.stores.filter (fun x => storeDue s w scope x && touch x.va 4)).map (fun x => x.msg))

/-- The writes of a warp that its block's scratchpad has not performed (R204). -/
def scratchOut (s : State) (w : Warp) : Bool :=
  match blockOf s w with
  | none => false
  | some b => b.scrq.any (fun q => match q with
    | .bytes n _ => n == w.num
    | .synci n _ _ => n == w.num
    | .ringi n _ _ => n == w.num)

/-- Whether a release at a scope has nothing left to wait for (R267). -/
def releaseReady (s : State) (w : Warp) (scope : Nat) : Bool :=
  let (ops, sts) := releaseList s w scope none
  decide (scope ≤ 1) || (ops.isEmpty && sts.isEmpty && !scratchOut s w && (queuedStores w none).isEmpty)

/-- A release action of a warp for its loads, its stores, and the STRs still to go out, within a range (R267, R279). -/
def relActOf (s : State) (w : Warp) (scope : Nat) (r : Option Range) (cont : Cont) : RelAct :=
  let (ops, sts) := releaseList s w scope r
  { id := s.fresh, behind := queuedStores w r, scope := scope, ops := ops, stores := sts, cont := cont }

/-- The last-reads and the acquire of a strand: it is unchecked from here to its next boundary (R258). -/
def acquires (w : Warp) : Warp := if w.tag = 0 then w else { w with unchecked := true }

end Sys2Proof.Machine
end

