-- ==== Sys2Proof/Machine/Scratch.lean ====
section
/-! DEFINITION. The scratchpad of a block: its bytes, sync words and their arrivals, the Carousel pointers, the tests of
parked splits that wait on it, and the writes on their way (08_access.md R188, R204; 21_barrier.md R399 to R420). -/

namespace Sys2Proof.Machine

/-! ## Bytes and doublewords -/

/-- The n bytes of a scratchpad from an offset on. -/
def scrBytes (b : Block) (off n : Nat) : List Byte := memRead b.scr off n

/-- The doubleword at an offset (R399). -/
def scrDword (b : Block) (off : Nat) : Nat := leNat (scrBytes b off 8)

/-- Writes bytes of a scratchpad. -/
def scrSet (b : Block) (off : Nat) (bs : List Byte) : Block := { b with scr := memWrite b.scr off bs }

/-! ## Sync words (R399, R400) -/

/-- STATE of a sync word. -/
def syncState (x : Nat) : Nat := x / 2 ^ 62 % 4
def syncGen (x : Nat) : Nat := x / 2 ^ 40 % 2 ^ 22
def syncTarget (x : Nat) : Nat := x / 2 ^ 20 % 2 ^ 20
def syncCount (x : Nat) : Nat := x % 2 ^ 20

/-- A sync word from its fields (R399). -/
def syncWord (st gen target count : Nat) : Nat := st * 2 ^ 62 + gen * 2 ^ 40 + target * 2 ^ 20 + count

/-- An arrival of amount k (R400); whether the generation advanced. -/
def arrival (x k : Nat) : Nat × Bool :=
  if k = 0 ∨ 2 ≤ syncState x then (x, false)
  else if syncCount x + k < syncTarget x then (syncWord (syncState x) (syncGen x) (syncTarget x) (syncCount x + k), false)
  else if syncCount x + k = syncTarget x then
    (syncWord (syncState x) ((syncGen x + 1) % 2 ^ 22) (syncTarget x) 0, true)
  else (syncWord 2 (syncGen x) (syncTarget x) (syncCount x), false)

/-! ## Carousels (R414, R415) -/

/-- The pointers of a ring at H: RD, TAKE, WR, CLAIM. -/
def ringRd (b : Block) (h : Nat) : Nat := scrDword b h / 2 ^ 48
def ringTake (b : Block) (h : Nat) : Nat := scrDword b h / 2 ^ 32 % 65536
def ringWr (b : Block) (h : Nat) : Nat := scrDword b h / 2 ^ 16 % 65536
def ringClaim (b : Block) (h : Nat) : Nat := scrDword b h % 65536

/-- Its configuration: DATA, SLOTB and N. -/
def ringData (b : Block) (h : Nat) : Nat := scrDword b (h + 8) / 2 ^ 32
def ringSlotb (b : Block) (h : Nat) : Nat := scrDword b (h + 8) / 2 ^ 16 % 65536
def ringN (b : Block) (h : Nat) : Nat := scrDword b (h + 8) % 16 + 1

/-- Writes the pointers. -/
def ringPut (b : Block) (h rd take wr claim : Nat) : Block :=
  scrSet b h (natLe 8 (rd % 65536 * 2 ^ 48 + take % 65536 * 2 ^ 32 + wr % 65536 * 2 ^ 16 + claim % 65536))

/-- The offset of the sync word of a slot index. -/
def slotWord (b : Block) (h idx : Nat) : Nat := h + 16 + 8 * (idx % ringN b h)

/-- The offset of the data of a slot index. -/
def slotData (b : Block) (h idx : Nat) : Nat := (ringData b h + idx % ringN b h * ringSlotb b h * 64) % 2 ^ 32

/-- WR passes the slot it names, and then those whose words had already advanced (R415). -/
def passWr (b : Block) (h : Nat) : Nat → Block
  | 0 => b
  | n + 1 =>
    let wr := ringWr b h
    if b.ringDone.contains (h, wr) then
      passWr { ringPut b h (ringRd b h) (ringTake b h) (wr + 1) (ringClaim b h) with
        ringDone := b.ringDone.filter (fun x => !(x == (h, wr))) } h n
    else b

/-- A CLAIMED slot's word has advanced (R415). -/
def slotAdvanced (b : Block) (h idx : Nat) : Block := passWr { b with ringDone := (h, idx) :: b.ringDone } h 17

/-! ## Waits of parked splits (R407 to R409, R418) -/

/-- An acquire action of a warp, with one that is still in progress (R200, R267). -/
def joinAcquire (w : Warp) (scope : Nat) (ops : List Nat) (r : Option Range) : Warp :=
  match w.acq with
  | none => { w with acq := some ⟨scope, ops, r, false⟩ }
  | some q => { w with acq := some ⟨max scope q.scope, q.ops ++ ops, none, q.begun⟩ }

/-- The acquire action that follows an instruction, or none where its scope has none (R267). -/
def addAcquire (w : Warp) (scope : Nat) (ops : List Nat) (r : Option Range) : Warp :=
  if scope ≤ 1 then w else joinAcquire w scope ops r

/-- What a test of a wait answers: it goes on with a scalar result, it stays, or a cause with its address. -/
inductive Tested where
  | pass (b : Block) (scope : Nat) (sd : Option (Nat × DWord))
  | stay
  | fault (k : Cause) (faddr : DWord)
  deriving DecidableEq, Repr

/-- The address of the copy that broke a sync word (R409). -/
def brokenBy (b : Block) (off : Nat) : DWord := (getKey off b.broken).getD 0

/-- SYNCW's test (R407, R409). (assumption 31, DEDUCED) -/
def testSyncw (b : Block) (off phase scope : Nat) : Tested :=
  let x := scrDword b off
  if syncState x = 2 then .fault .barrierOverrun 0
  else if syncState x = 3 then .fault .copyFault (brokenBy b off)
  else if syncGen x % 2 ≠ phase then .pass b scope none
  else .stay

/-- RAWAIT's test (R418). -/
def testRawait (b : Block) (h sd : Nat) : Tested :=
  let take := ringTake b h
  let off := slotWord b h take
  let x := scrDword b off
  if syncState x = 2 then .fault .barrierOverrun 0
  else if syncState x = 3 then .fault .copyFault (brokenBy b off)
  else if take = ringWr b h then .stay
  else .pass (ringPut b h (ringRd b h) (take + 1) (ringWr b h) (ringClaim b h)) 2
    (some (sd, .ofNat 64 (take * 2 ^ 32 + slotData b h take)))

/-- Ends a split's park: its lanes go past the group, and the scalars that the group's last-use bits name are released (R115, R141,
R143). -/
def unpark (w : Warp) (p : Park) : Warp :=
  { w with parked := w.parked.filter (fun x => !(x == p))
           pc := laneIdx.map (fun l => if laneBit (parkSplit w p) l then getAt 0 w.pc l + 4 else getAt 0 w.pc l)
           regs := p.rel.foldl (fun r n => putS r n 0) w.regs }

/-- Whether a warp takes part in what its core does: neither halted nor stopped nor on its way to a trap. -/
def running (w : Warp) : Bool :=
  w.halted.isNone && !w.stopped && w.trapping.isNone && (w.place == .resident || w.place == .landed)

/-- A cause met by a parked split, precise against its group as though it had just issued (R408, R409). -/
def parkedFault (s : State) (w : Warp) (p : Park) (k : Cause) (faddr : DWord) : State :=
  let lanes := parkSplit w p
  let w := { w with parked := w.parked.filter (fun x => !(x == p)), chain := none }
  raiseAt (setWarp s w) w
    { cause := k, faddr := faddr, spl := lanes, act := if k = .copyFault then 0 else lanes
      deferred := decide (k = .copyFault), insn := p.insn, ginfo := p.ginfo }
    (getAt 0 w.pc ((lanesOf p.lanes).head?.getD 0))

/-- Tests one parked split of a warp against its block (R407, R418). -/
def testPark (s : State) (c n : Nat) (p : Park) : State :=
  match warpFind s c n with
  | none => s
  | some w =>
    if running w = false ∨ w.parked.contains p = false then s
    else
      match blockOf s w with
      | none => s
      | some b =>
        let r := match p.wait with
          | .syncw off phase scope => testSyncw b off phase scope
          | .rawait h sd => testRawait b h sd
          | _ => .stay
        match r with
        | .stay => s
        | .fault k a => parkedFault s w p k a
        | .pass b scope sd =>
          let w := addAcquire (if p.acq then acquires (unpark w p) else unpark w p) scope [] none
          let w := match sd with
            | some (d, v) => { w with regs := putS w.regs d v, earlyS := w.earlyS.filter (fun e => !(e.reg == d)) }
            | none => w
          setWarp (setBlock s b) w

/-- Tests every parked split of a block's warps, in the order of their issue. -/
def testBlock (s : State) (c bn : Nat) : State :=
  let ps := (s.warps.filter (fun w => w.ctx == c && w.blk == some bn)).flatMap (fun w => w.parked.map (fun p => (p.seq, w.num, p)))
  let sorted := ps.foldl (fun (acc : List (Nat × Nat × Park)) x =>
    acc.takeWhile (fun y => decide (y.1 ≤ x.1)) ++ [x] ++ acc.dropWhile (fun y => decide (y.1 ≤ x.1))) []
  sorted.foldl (fun s x => testPark s c x.2.1 x.2.2) s

/-! ## Writes and arrivals (R191, R204, R400, R404, R415, R417) -/

/-- One write as the scratchpad performs it (R204, R404, R417). -/
def scrApply (b : Block) : ScrWrite → Block
  | .bytes _ bs => bs.foldl (fun b p => scrSet b p.1 [p.2]) b
  | .synci _ off target => scrSet b off (natLe 8 (syncWord 0 (syncGen (scrDword b off)) target 0))
  | .ringi _ h cfg =>
    let c := cfg.toNat / 65536 * 65536 + cfg.toNat % 16
    let b := scrSet b h (List.replicate 8 0 ++ natLe 8 c)
    let b := (List.range (ringN b h)).foldl (fun b k =>
      scrSet b (h + 16 + 8 * k) (natLe 8 (syncWord 0 0 (ringSlotb b h * 64) 0))) b
    { b with ringDone := b.ringDone.filter (fun x => !(x.1 == h)) }

/-- Performs every write on its way to a block's scratchpad, in order, testing the waits after each. -/
def drainScr (s : State) (c bn : Nat) : Nat → State
  | 0 => s
  | n + 1 =>
    match blockFind s c bn with
    | none => s
    | some b =>
      match b.scrq with
      | [] => s
      | q :: rest => drainScr (testBlock (setBlock s (scrApply { b with scrq := rest } q)) c bn) c bn n

/-- All of them. -/
def drainAll (s : State) (c bn : Nat) : State :=
  match blockFind s c bn with
  | none => s
  | some b => drainScr s c bn b.scrq.length

/-- Sends a write on its way to the scratchpad of a warp's block. -/
def scrSend (s : State) (w : Warp) (q : ScrWrite) : State :=
  match blockOf s w with
  | none => s
  | some b => setBlock s { b with scrq := b.scrq ++ [q] }

/-- The Carousel slot whose word stands at an offset, among the slots that copies have claimed (R415). -/
def claimedSlot (s : State) (b : Block) (off : Nat) : Option (Nat × Nat) :=
  s.copies.findSome? (fun k =>
    match k.slot with
    | some (h, idx) =>
      if k.ctx = b.ctx ∧ k.blk = some b.num ∧ slotWord b h idx = off ∧ b.ringDone.contains (h, idx) = false then some (h, idx)
      else none
    | none => none)

/-- An arrival at a sync word, with the waits that it ends (R400, R407, R415). -/
def arriveAt (s : State) (c bn off k : Nat) : State :=
  match blockFind s c bn with
  | none => s
  | some b =>
    let (x, adv) := arrival (scrDword b off) k
    let b := scrSet b off (natLe 8 x)
    let b := if adv then (match claimedSlot s b off with | some (h, idx) => slotAdvanced b h idx | none => b) else b
    testBlock (setBlock s b) c bn

/-- A copy's fault breaks its sync word (R401, R409). -/
def breakWord (s : State) (c bn off : Nat) (addr : DWord) : State :=
  match blockFind s c bn with
  | none => s
  | some b =>
    let x := scrDword b off
    let b := scrSet b off (natLe 8 (syncWord 3 (syncGen x) (syncTarget x) (syncCount x)))
    testBlock (setBlock s { b with broken := putKey off addr b.broken }) c bn

/-- SCRATCHPAD_WRITE_DONE (R204, R404, R417): the oldest write of a block takes effect. -/
def dueScratchpadWriteDone (c bn : Nat) (s : State) : Option State :=
  match blockFind s c bn with
  | none => none
  | some b => if b.scrq.isEmpty then none else some (drainScr s c bn 1)

/-- SCRATCHPAD_WRITE_DONE, which takes place where it is due. -/
def execScratchpadWriteDone (c bn : Nat) (s : State) : Host.Outcome State Fault Refusal := takes s (dueScratchpadWriteDone c bn s)

end Sys2Proof.Machine
end

