-- ==== Sys2Proof/Machine/Memory.lean ====
section
/-! DEFINITION. The memory access instructions: loads, stores, the acquiring load, the releasing store, the forward-tagged
store, scratchpad access, atomics, and the scalar load and store (06_integer.md R172, R173; 08_access.md R198 to R209;
13_consistency.md R276). -/

namespace Sys2Proof.Machine

/-! ## Shared operations -/

/-- Addresses of the lanes of ACTIVE from a scalar base (R187). -/
def laneAddrs (i : Iss) (base : DWord) (a : Lanes) : List (Nat × Nat) :=
  (lanesOf i.act).map (fun l => (l, (base.toNat + (lane a l).toNat) % 2 ^ 64))

/-- Scratchpad offsets of the lanes of ACTIVE (R188). -/
def laneOffs (i : Iss) (a : Lanes) (off : Nat) : List (Nat × Nat) :=
  (lanesOf i.act).map (fun l => (l, ((lane a l).toNat + 4 * off) % 2 ^ 32))

/-- The format code of R46 that LD names (R198). -/
def ldFmt (major : Nat) (fmt : BitVec 2) : Nat :=
  if major = 0x1E then fmt.toNat + 3 else if fmt = 3 then 7 else fmt.toNat

/-- The format code of R46 that LDL names (R203). -/
def ldlFmt (fmt : BitVec 2) : Nat := if fmt = 0 then 0 else if fmt = 1 then 1 else if fmt = 2 then 3 else 5

/-- What an access instruction writes when no lane is active: zeros under mz = 1 (R190). -/
def emptyOut (s : State) (i : Iss) (w : Warp) (d : BitVec 6) : Out :=
  if i.mz ∧ d ≠ 60 then { s := s, w := w, v := some ⟨d.toNat, i.split, []⟩ } else { s := s, w := w }

/-- The operation of a load: its flag, destination and lanes. -/
def loadOp (i : Iss) (id : Nat) (kind : OpKind) (flag : Option Nat) (d : BitVec 6) (srcs : List LaneSrc) : POp :=
  { id := id, kind := kind, flag := flag, vdst := if d = 60 then none else some d.toNat, lanes := i.written
    vals := laneIdx.map (fun l => if laneBit i.written l && !(laneBit i.act l) then some 0 else none), srcs := srcs }

/-- A load of one lane format from memory (R198). -/
def loadMem (s : State) (i : Iss) (d a : BitVec 6) (base fmt : Nat) (flag : Nat) (acq : Option Nat) : Res :=
  let as := laneAddrs i (i.s base) (i.v a)
  let w0 := if acq.isSome then acquires i.w else i.w
  if as.isEmpty then
    if memHeld i.w [] 0 ∧ acq.isSome then .held s (retryHold i.w)
    else .ok (emptyOut s i (match acq with | some sc => addAcquire w0 sc [] none | none => w0) d)
  else if flagFull i.w (some flag) then .held s (retryHold i.w)
  else
    let n := fmtBytes fmt
    match gate s i.w { size := n, align := n, rd := true, wr := false, kind := kLoad, plain := acq.isNone } as with
    | .cause k l x code => .cause k (some l) (.ofNat 64 x) code
    | .wait s w => .held s w
    | .go s es =>
      if behindOwn s i.w es then .held s (retryHold i.w)
      else
        let (id, s) := takeFresh s
        let srcs := es.map (fun x => (⟨x.1, physOf x.2.2 x.2.1 / 4, x.2.1 % 4⟩ : LaneSrc))
        let (s, w) := beginLoad s (raiseFlag w0 (some flag)) (loadOp i id (.load fmt acq) (some flag) d srcs) es
        let w := match acq with | some sc => joinAcquire w sc [id] none | none => w
        .ok { s := s, w := w, map := if d = 60 then none else some d.toNat }

/-- The lanes of a store narrowed (R60, R61): code and flags of a lane. -/
def narrowed (s : State) (i : Iss) (fmt : Nat) (x : Lanes) (l : Nat) : Nat × BitVec 32 :=
  narrow fmt (rndAt s i l) (match i.c.grp.pfx with | some p => p.sat | none => false) (lane x l)

/-- Whether a store's format rounds, and so draws under SRK (R52, R62). -/
def roundsFmt (fmt : Nat) : Bool := 1 ≤ fmt && fmt ≤ 4

/-- What a store leaves beside memory: flags and draws (R62). -/
def storeOut (s : State) (i : Iss) (w : Warp) (fmt : Nat) (x : Lanes) : Out :=
  { s := s, w := w, flags := flagsOver i (fun l => (narrowed s i fmt x l).2), srk := if roundsFmt fmt then srkOf s i else 0 }

/-- A store to memory (R198, R202). `fwd` is the consumer cluster of an STF. -/
def storeMem (s : State) (i : Iss) (d a : BitVec 6) (base fmt : Nat) (fwd : Option Nat) : Res :=
  let as := laneAddrs i (i.s base) (i.v a)
  let x := i.v d
  if as.isEmpty then .ok (storeOut s i i.w fmt x)
  else
    let n := fmtBytes fmt
    match gate s i.w { size := n, align := n, rd := false, wr := true, stf := fwd.isSome, kind := kStore, plain := true } as with
    | .cause k l f code => .cause k (some l) (.ofNat 64 f) code
    | .wait s w => .held s w
    | .go s es =>
      if anyPending s i.w es then .held s (retryHold i.w)
      else
        let (s, w) := storeWords s i.w fwd (gatherStores n (fun l => (narrowed s i fmt x l).1) es)
        .ok (storeOut s i w fmt x)

/-! ## LD and ST (R198) -/

/-- The LD formats (R198). -/
def loadSem (s : State) (i : Iss) : Res :=
  match i.c.body with
  | .LD o => loadMem s i o.d o.a o.s.toNat (ldFmt i.c.major o.fmt) o.flag.toNat none
  | _ => .held s i.w

/-- LD (R198). -/
def execLd (g : Grp) (o : OpsLD) (s : State) : Host.Outcome State Fault Refusal := issueAs s (.ld g o) loadSem

/-- LD of byte formats (R198). -/
def execLdByte (g : Grp) (o : OpsLD) (s : State) : Host.Outcome State Fault Refusal := issueAs s (.ldByte g o) loadSem

/-- ST (R198). -/
def execSt (g : Grp) (o : OpsST) (s : State) : Host.Outcome State Fault Refusal :=
  issueAs s (.st g o) (fun s i =>
    match i.c.body with
    | .ST o => storeMem s i o.d o.a o.s.toNat o.fmt.toNat none
    | _ => .held s i.w)

/-! ## LDA, STR and STF (R199 to R202) -/

/-- LDA (R199, R200). -/
def execLda (g : Grp) (o : OpsLDA) (s : State) : Host.Outcome State Fault Refusal :=
  issueAs s (.lda g o) (fun s i =>
    match i.c.body with
    | .LDA o => loadMem s i o.d o.a o.s.toNat 0 o.flag.toNat (some o.scope.toNat)
    | _ => .held s i.w)

/-- Stores now, or once the release action of a scope is done (R201). -/
def releaseThen (s : State) (w : Warp) (scope : Nat) (ws : List (Nat × BitVec 64 × BitVec 4 × Word)) : State × Warp :=
  if releaseReady s w scope then storeWords s w none ws
  else
    let act := relActOf s w scope none (.stores (ws.map (fun x => (x.1, physOf x.2.1 x.1 / 4, x.2.1, x.2.2.1, x.2.2.2))))
    ({ s with fresh := s.fresh + 1 }, { w with relq := w.relq ++ [act] })

/-- STR (R199, R201). -/
def execStr (g : Grp) (o : OpsSTR) (s : State) : Host.Outcome State Fault Refusal :=
  issueAs s (.str g o) (fun s i =>
    match i.c.body with
    | .STR o =>
      let as := laneAddrs i (i.s o.s.toNat) (i.v o.a)
      let x := i.v o.d
      if as.isEmpty then
        if memHeld i.w [] 0 then .held s (retryHold i.w)
        else
          let (s, w) := releaseThen s i.w o.scope.toNat []
          .ok { s := s, w := w }
      else
        match gate s i.w { size := 4, align := 4, rd := false, wr := true, kind := kStore } as with
        | .cause k l f code => .cause k (some l) (.ofNat 64 f) code
        | .wait s w => .held s w
        | .go s es =>
          if anyPending s i.w es then .held s (retryHold i.w)
          else
            let (s, w) := releaseThen s i.w o.scope.toNat (gatherStores 4 (fun l => (lane x l).toNat) es)
            .ok { s := s, w := w }
    | _ => .held s i.w)

/-- STF (R202, R262). -/
def execStf (g : Grp) (o : OpsSTF) (s : State) : Host.Outcome State Fault Refusal :=
  issueAs s (.stf g o) (fun s i =>
    match i.c.body with
    | .STF o => storeMem s i o.d o.a o.s.toNat 0 (some ((i.s o.cons.toNat).toNat % 256))
    | _ => .held s i.w)

/-! ## LDL and STL (R203 to R205) -/

/-- The checks of a scratchpad access (R189 orders 3 and 4). -/
def scrCause (s : State) (w : Warp) (n align : Nat) (as : List (Nat × Nat)) : Option (Cause × Nat × Nat) :=
  match as.find? (fun p => p.2 % align != 0) with
  | some (l, a) => some (.misaligned, l, a)
  | none =>
    match as.find? (fun p => decide (scrLenOf s w < p.2 + n)) with
    | some (l, a) => some (.protection, l, a)
    | none => none

/-- The block of a warp with its scratchpad writes performed: what a later access of the warp finds (R191). (assumption 24, DEDUCED) -/
def scrReady (s : State) (w : Warp) : State × Option Block :=
  match w.blk with
  | none => (s, none)
  | some bn =>
    let s := drainAll (setWarp s w) w.ctx bn
    (s, blockFind s w.ctx bn)

/-- The largest count of bank words in one bank (R205). -/
def bankCycles (ps : List Nat) : Nat :=
  (List.range 64).foldl (fun m k => max m (ps.filter (fun p => p / 8 % 64 == k)).length) 1

/-- A warp as the machine now holds it, with what an issue has changed of its clock. -/
def refetch (s : State) (w : Warp) : Warp :=
  match warpFind s w.ctx w.num with
  | some x => { x with now := w.now }
  | none => w

/-- LDL (R203). -/
def execLdl (g : Grp) (o : OpsLDL) (s : State) : Host.Outcome State Fault Refusal :=
  issueAs s (.ldl g o) (fun s i =>
    match i.c.body with
    | .LDL o =>
      let as := laneOffs i (i.v o.a) o.off.toNat
      let fmt := ldlFmt o.fmt
      let n := fmtBytes fmt
      if as.isEmpty then .ok (emptyOut s i i.w o.d)
      else if memHeld i.w [] 0 || lanesFlying s i.w as n || flagFull i.w (some o.flag.toNat) then .held s (retryHold i.w)
      else
        match scrCause s i.w n n as with
        | some (k, l, a) => .cause k (some l) (.ofNat 64 a) 0
        | none =>
          match scrReady s i.w with
          | (s, none) => .held s i.w
          | (s, some b) =>
            if running (refetch s i.w) = false then .done s
            else
            let (id, s) := takeFresh s
            let op := loadOp i id (.scratch fmt) (some o.flag.toNat) o.d []
            let op := { op with vals := laneIdx.map (fun l =>
              match as.find? (fun p => p.1 == l) with
              | some p => some (widen fmt (leNat (scrBytes b p.2 n)))
              | none => getAt none op.vals l) }
            let w := refetch s i.w
            .ok { s := s, w := raiseFlag { w with pend := w.pend ++ [op] } (some o.flag.toNat), map := op.vdst }
    | _ => .held s i.w)

/-- STL (R203, R204). -/
def execStl (g : Grp) (o : OpsSTL) (s : State) : Host.Outcome State Fault Refusal :=
  issueAs s (.stl g o) (fun s i =>
    match i.c.body with
    | .STL o =>
      let as := laneOffs i (i.v o.a) o.off.toNat
      let x := i.v o.d
      let fmt := o.fmt.toNat
      let n := fmtBytes fmt
      if as.isEmpty then .ok (storeOut s i i.w fmt x)
      else if memHeld i.w [] 0 || lanesFlying s i.w as n then .held s (retryHold i.w)
      else
        match scrCause s i.w n n as with
        | some (k, l, a) => .cause k (some l) (.ofNat 64 a) 0
        | none =>
          let bs := as.flatMap (fun p => (List.range n).map (fun j => (p.2 + j, BitVec.ofNat 8 ((narrowed s i fmt x p.1).1 / 256 ^ j))))
          .ok (storeOut (scrSend s i.w (.bytes i.w.num bs)) i i.w fmt x)
    | _ => .held s i.w)

/-! ## Atomics (R206 to R209, R276) -/

/-- OP of R207, numbered 4 × (major − 0x25) + op. -/
def atomOp (n : Nat) (old v c : Word) : Word :=
  match n with
  | 0 => old + v
  | 1 => old &&& v
  | 2 => old ||| v
  | 3 => old ^^^ v
  | 4 => if v.slt old then v else old
  | 5 => if old.slt v then v else old
  | 6 => if v.ult old then v else old
  | 7 => if old.ult v then v else old
  | 8 => v
  | 9 => if old = c then v else old
  | 10 => (faddOp {} old v).1
  | _ => old - v

/-- The ordering and scope of an atomic (R87, R208). -/
def atomOrder (c : Code) : Nat × Nat :=
  match c.grp.pfx with
  | some p => (p.rnd.toNat, p.ext.toNat % 16)
  | none => (0, 6)

/-- Whether an ordering acquires, and whether it releases (R276). -/
def ordAcq (n : Nat) : Bool := n == 1 || n == 3 || n == 4
def ordRel (n : Nat) : Bool := n == 2 || n == 3 || n == 4

/-- The lanes of an atomic gathered by word, in lane order (R192): word address, leaf, lanes with operands. -/
def gatherAtoms (v c : Lanes) (es : List (Nat × Nat × BitVec 64)) : List (Nat × BitVec 64 × List (Nat × Word × Word)) :=
  es.foldl (fun acc x =>
    let item := (x.1, lane v x.1, lane c x.1)
    if acc.any (fun y => y.1 == x.2.1) then
      acc.map (fun y => if y.1 = x.2.1 then (y.1, y.2.1, y.2.2 ++ [item]) else y)
    else acc ++ [(x.2.1, x.2.2, [item])]) []

/-- Sends one word's atomic: to its home slice, or to the peer package of a fabric window (R208, R209). -/
def sendAtom (s : State) (w : Warp) (id aop : Nat) (x : Nat × BitVec 64 × List (Nat × Word × Word)) : State × List Nat :=
  if leafKind x.2.1 = 0 then
    (netSend s (ownerOf s w.core) (.atomic w.ctx w.num id aop (leafPa x.2.1 x.1 / 4) x.2.2), [])
  else
    x.2.2.foldl (fun (acc : State × List Nat) it =>
      let body := natLe 4 it.2.1.toNat ++ (if aop = 9 then natLe 4 it.2.2.toNat else [])
      match windowSend acc.1 w x.2.1 { ty := 4, seq := 0, addr := windowAddr x.2.1 x.1, op := .ofNat 8 aop, payload := body, len := body.length }
          (.atom w.ctx w.num id it.1 (physOf x.2.1 x.1 / 4)) with
      | some s => (s, acc.2)
      | none => (ctxFault acc.1 w.ctx .protection (some w.core) (some w.num) (.ofNat 64 x.1), acc.2 ++ [it.1])) (s, [])

/-- Performs an atomic on words of the private window at once; the old values by lane (R133, R207). -/
def privAtom (s : State) (w : Warp) (aop : Nat) (va pa : Nat) : List (Nat × Word × Word) → State × Warp × List (Nat × Word)
  | [] => (s, w, [])
  | it :: r =>
    let old := privRead s w va pa
    let (s, w) := privWrite s w va pa 15#4 (atomOp aop old it.2.1 it.2.2)
    let (s, w, rs) := privAtom s w aop va pa r
    (s, w, (it.1, old) :: rs)

/-- Performs the private words of an atomic. -/
def privAtoms (s : State) (w : Warp) (aop : Nat) : List (Nat × BitVec 64 × List (Nat × Word × Word)) → State × Warp × List (Nat × Word)
  | [] => (s, w, [])
  | x :: r =>
    let (s, w, a) := privAtom s w aop x.1 (leafPa x.2.1 x.1) x.2.2
    let (s, w, b) := privAtoms s w aop r
    (s, w, a ++ b)

/-- ATOM (R206 to R209, R276). (assumption 20, DEDUCED) -/
def atomSem (s : State) (i : Iss) : Res :=
  match i.c.body with
  | .AT o =>
    let aop := 4 * (i.c.major - 0x25) + i.c.sel
    let (ord, scope) := atomOrder i.c
    let a := i.v o.a
    let b := i.v o.b
    let v := i.v o.d
    let as := (lanesOf i.act).map (fun l => (l, (lane b l).toNat * 2 ^ 32 + (lane a l).toNat))
    let w0 := if ordAcq ord then acquires i.w else i.w
    if as.isEmpty then
      if (ordRel ord && !releaseReady s i.w scope) || memHeld i.w [] 0 then .held s (retryHold i.w)
      else .ok (emptyOut s i (if ordAcq ord then addAcquire w0 scope (i.w.pend.filter isLoad |>.map (fun p => p.id)) none else w0) o.d)
    else
      match gate s i.w { size := 4, align := 4, rd := true, wr := true, atom := true, kind := kAtomic } as with
      | .cause k l x code => .cause k (some l) (.ofNat 64 x) code
      | .wait s w => .held s w
      | .go s es =>
        if anyPending s i.w es || (ordRel ord && !releaseReady s i.w scope) then .held s (retryHold i.w)
        else
          let (id, s) := takeFresh s
          let op := loadOp i id .atom none o.d []
          let ws := gatherAtoms v i.cv es
          let mine := ws.filter (fun x => leafKind x.2.1 == 0 && inPriv i.w x.1)
          let rest := ws.filter (fun x => !(leafKind x.2.1 == 0 && inPriv i.w x.1))
          let (s, w, olds) := privAtoms s w0 aop mine
          let (s, gone) := rest.foldl (fun (acc : State × List Nat) x =>
            let (s, g) := sendAtom acc.1 w id aop x
            (s, acc.2 ++ g)) (s, [])
          let op := { op with
            lanes := i.written, pages := ws.map (fun x => x.1)
            vals := laneIdx.map (fun l =>
              match getKey l olds with
              | some x => some x
              | none => if gone.contains l then some ((Config.freeDWord s.free).setWidth 32) else getAt none op.vals l) }
          let w := { w with pend := w.pend ++ [op], holds := .op id :: w.holds }
          let w := if ordAcq ord then addAcquire w scope [id] none else w
          .ok { s := s, w := w, map := op.vdst }
  | _ => .held s i.w

/-- Applies the lanes of an ATOML in order; the scratchpad and the old values (R192, R207). -/
def scrAtom (b : Block) (aop : Nat) (v c : Lanes) : List (Nat × Nat) → Block × List (Nat × Word)
  | [] => (b, [])
  | (l, a) :: r =>
    let old : Word := .ofNat 32 (leNat (scrBytes b a 4))
    let (b, rs) := scrAtom (scrSet b a (natLe 4 (atomOp aop old (lane v l) (lane c l)).toNat)) aop v c r
    (b, (l, old) :: rs)

/-- ATOML (R206 to R208, R276); a scope wider than core acts as core. -/
def atomlSem (s : State) (i : Iss) : Res :=
  match i.c.body with
  | .AT o =>
    let aop := 4 * (i.c.major - 0x28) + i.c.sel
    let (ord, sc) := atomOrder i.c
    let scope := min sc 2
    let as := laneOffs i (i.v o.a) 0
    let v := i.v o.d
    let w0 := if ordAcq ord then acquires i.w else i.w
    let loads := (i.w.pend.filter isLoad).map (fun p => p.id)
    if memHeld i.w [] 0 || lanesFlying s i.w as 4 then .held s (retryHold i.w)
    else if as.isEmpty then
      if ordRel ord && !releaseReady s i.w scope then .held s (retryHold i.w)
      else .ok (emptyOut s i (if ordAcq ord then addAcquire w0 scope loads none else w0) o.d)
    else
      match scrCause s i.w 4 4 as with
      | some (k, l, a) => .cause k (some l) (.ofNat 64 a) 0
      | none =>
        match scrReady s i.w with
        | (s, none) => .held s i.w
        | (s, some b) =>
          let w := refetch s i.w
          if running w = false then .done s
          else if ordRel ord && !releaseReady s w scope then .held s (retryHold w)
          else
            let (b, olds) := scrAtom b aop v i.cv as
            let (id, s) := takeFresh s
            let op := loadOp i id .atom none o.d []
            let op := { op with vals := laneIdx.map (fun l =>
              match getKey l olds with | some x => some x | none => getAt none op.vals l) }
            let w := if ordAcq ord then addAcquire (acquires w) scope [id] none else w
            .ok { s := setBlock s b, w := { w with pend := w.pend ++ [op], holds := .op id :: w.holds }, map := op.vdst }
  | _ => .held s i.w

/-- ATOM ADD (R207). -/
def execAtomAdd (g : Grp) (o : OpsAT) (s : State) : Host.Outcome State Fault Refusal := issueAs s (.atomAdd g o) atomSem

/-- ATOM AND (R207). -/
def execAtomAnd (g : Grp) (o : OpsAT) (s : State) : Host.Outcome State Fault Refusal := issueAs s (.atomAnd g o) atomSem

/-- ATOM OR (R207). -/
def execAtomOr (g : Grp) (o : OpsAT) (s : State) : Host.Outcome State Fault Refusal := issueAs s (.atomOr g o) atomSem

/-- ATOM XOR (R207). -/
def execAtomXor (g : Grp) (o : OpsAT) (s : State) : Host.Outcome State Fault Refusal := issueAs s (.atomXor g o) atomSem

/-- ATOM MIN (R207). -/
def execAtomMin (g : Grp) (o : OpsAT) (s : State) : Host.Outcome State Fault Refusal := issueAs s (.atomMin g o) atomSem

/-- ATOM MAX (R207). -/
def execAtomMax (g : Grp) (o : OpsAT) (s : State) : Host.Outcome State Fault Refusal := issueAs s (.atomMax g o) atomSem

/-- ATOM UMIN (R207). -/
def execAtomUmin (g : Grp) (o : OpsAT) (s : State) : Host.Outcome State Fault Refusal := issueAs s (.atomUmin g o) atomSem

/-- ATOM UMAX (R207). -/
def execAtomUmax (g : Grp) (o : OpsAT) (s : State) : Host.Outcome State Fault Refusal := issueAs s (.atomUmax g o) atomSem

/-- ATOM XCHG (R207). -/
def execAtomXchg (g : Grp) (o : OpsAT) (s : State) : Host.Outcome State Fault Refusal := issueAs s (.atomXchg g o) atomSem

/-- ATOM CAS (R207). -/
def execAtomCas (g : Grp) (o : OpsAT) (s : State) : Host.Outcome State Fault Refusal := issueAs s (.atomCas g o) atomSem

/-- ATOM FADD (R207). -/
def execAtomFadd (g : Grp) (o : OpsAT) (s : State) : Host.Outcome State Fault Refusal := issueAs s (.atomFadd g o) atomSem

/-- ATOM SUB (R207). -/
def execAtomSub (g : Grp) (o : OpsAT) (s : State) : Host.Outcome State Fault Refusal := issueAs s (.atomSub g o) atomSem

/-- ATOML ADD (R207). -/
def execAtomlAdd (g : Grp) (o : OpsAT) (s : State) : Host.Outcome State Fault Refusal := issueAs s (.atomlAdd g o) atomlSem

/-- ATOML AND (R207). -/
def execAtomlAnd (g : Grp) (o : OpsAT) (s : State) : Host.Outcome State Fault Refusal := issueAs s (.atomlAnd g o) atomlSem

/-- ATOML OR (R207). -/
def execAtomlOr (g : Grp) (o : OpsAT) (s : State) : Host.Outcome State Fault Refusal := issueAs s (.atomlOr g o) atomlSem

/-- ATOML XOR (R207). -/
def execAtomlXor (g : Grp) (o : OpsAT) (s : State) : Host.Outcome State Fault Refusal := issueAs s (.atomlXor g o) atomlSem

/-- ATOML MIN (R207). -/
def execAtomlMin (g : Grp) (o : OpsAT) (s : State) : Host.Outcome State Fault Refusal := issueAs s (.atomlMin g o) atomlSem

/-- ATOML MAX (R207). -/
def execAtomlMax (g : Grp) (o : OpsAT) (s : State) : Host.Outcome State Fault Refusal := issueAs s (.atomlMax g o) atomlSem

/-- ATOML UMIN (R207). -/
def execAtomlUmin (g : Grp) (o : OpsAT) (s : State) : Host.Outcome State Fault Refusal := issueAs s (.atomlUmin g o) atomlSem

/-- ATOML UMAX (R207). -/
def execAtomlUmax (g : Grp) (o : OpsAT) (s : State) : Host.Outcome State Fault Refusal := issueAs s (.atomlUmax g o) atomlSem

/-- ATOML XCHG (R207). -/
def execAtomlXchg (g : Grp) (o : OpsAT) (s : State) : Host.Outcome State Fault Refusal := issueAs s (.atomlXchg g o) atomlSem

/-- ATOML CAS (R207). -/
def execAtomlCas (g : Grp) (o : OpsAT) (s : State) : Host.Outcome State Fault Refusal := issueAs s (.atomlCas g o) atomlSem

/-- ATOML FADD (R207). -/
def execAtomlFadd (g : Grp) (o : OpsAT) (s : State) : Host.Outcome State Fault Refusal := issueAs s (.atomlFadd g o) atomlSem

/-- ATOML SUB (R207). -/
def execAtomlSub (g : Grp) (o : OpsAT) (s : State) : Host.Outcome State Fault Refusal := issueAs s (.atomlSub g o) atomlSem

/-! ## SLD and SST (R172, R173) -/

/-- SLD (R172, R173). -/
def execSld (g : Grp) (o : OpsS) (s : State) : Host.Outcome State Fault Refusal :=
  issueAs s (.sld g o) (fun s i =>
    match i.c.body with
    | .S o =>
      let ea := ((i.s o.sa.toNat).toNat + o.sb.toNat * 8) % 2 ^ 64
      match gate s i.w { size := 8, align := 8, rd := true, wr := false, kind := kLoad, plain := true } [(0, ea)] with
      | .cause k _ x code => .cause k none (.ofNat 64 x) code
      | .wait s w => .held s w
      | .go s es =>
        let both := es ++ es.map (fun x => (x.1, x.2.1 + 4, x.2.2))
        if anyPending s i.w both || both.any (fun x => loadsWord i.w (physOf x.2.2 x.2.1 / 4)) then .held s (retryHold i.w)
        else
          let (id, s) := takeFresh s
          let op : POp := { id := id, kind := .sld, sdst := some o.sd.toNat
                            srcs := both.map (fun x => (⟨0, physOf x.2.2 x.2.1 / 4, 0⟩ : LaneSrc)) }
          let (s, w) := beginLoad s i.w op both
          .ok { s := s, w := { w with holds := .op id :: w.holds } }
    | _ => .held s i.w)

/-- A doubleword of a window page goes out in one WRITE (R193, R497). -/
def windowPair (s : State) (w : Warp) (va : Nat) (e : BitVec 64) (lo hi : Word) : State × Warp :=
  let k := physOf e va / 4
  windowWrite (windowCopies (windowCopies s w k 15#4 lo) w (k + 1) 15#4 hi) w va e (natLe 4 lo.toNat ++ natLe 4 hi.toNat)

/-- The two words of an SST that need a registration go out in one message, so that they are granted together (R193). -/
def storePair (s : State) (w : Warp) (va : Nat) (e : BitVec 64) (lo hi : Word) : State × Warp :=
  let k := physOf e va / 4
  let own := ownerOf s w.core
  let tag := storeTag s w
  let here (k : Nat) : Option L1Word := l1Find s.l1 own k
  let localTo (k : Nat) : Bool := match here k with | some x => x.st == .registered && x.tag == tag | none => false
  if leafKind e ≠ 0 then windowPair s w va e lo hi
  else if inPriv w va = true ∨ (leafC e = true ∧ localTo k = true ∧ localTo (k + 1) = true) then
    storeWords s w none [(va, e, 15#4, lo), (va + 4, e, 15#4, hi)]
  else
    let thru := !(leafC e)
    let ent (k va : Nat) (v : Word) : L1Word :=
      { owner := own, wa := k, st := .pending, val := v, mask := 15#4, tag := tag, ctx := w.ctx, thru := thru, keep := leafC e, va := va
        base := match here k with | some x => if x.st = .registered ∧ thru = false then some (x.val, x.mask) else none | none => none }
    let up (s : State) (k : Nat) : State := match l1Find s.l1 own k with
      | some x => if x.st = .registered ∧ thru = true then giveUp s x else s
      | none => s
    let s := up (up (dropFill (dropFill s own k) own (k + 1)) k) (k + 1)
    let w := withoutFill own (k + 1) (withoutFill own k w)
    let id := s.fresh
    let s := netSend { s with l1 := l1Put (l1Put s.l1 (ent k va lo)) (ent (k + 1) (va + 4) hi) } own
      (.register [(k, 15#4, lo), (k + 1, 15#4, hi)] tag w.ctx thru none)
    (s, { w with stores := w.stores ++ [⟨id, va, k, 0⟩] })

/-- SST (R172, R173). -/
def execSst (g : Grp) (o : OpsS) (s : State) : Host.Outcome State Fault Refusal :=
  issueAs s (.sst g o) (fun s i =>
    match i.c.body with
    | .S o =>
      let ea := ((i.s o.sa.toNat).toNat + o.sb.toNat * 8) % 2 ^ 64
      let x := i.s o.sd.toNat
      match gate s i.w { size := 8, align := 8, rd := false, wr := true, kind := kStore, plain := true } [(0, ea)] with
      | .cause k _ f code => .cause k none (.ofNat 64 f) code
      | .wait s w => .held s w
      | .go s es =>
        if anyPending s i.w (es ++ es.map (fun x => (x.1, x.2.1 + 4, x.2.2))) then .held s (retryHold i.w)
        else
          match es with
          | [(_, va, e)] =>
            let (s, w) := storePair s i.w va e (x.setWidth 32) (x.extractLsb' 32 32)
            .ok { s := s, w := w }
          | _ => .held s i.w
    | _ => .held s i.w)

end Sys2Proof.Machine
end

