-- ==== Sys2Proof/Machine/Coherence.lean ====
section
/-! DEFINITION. The coherence traffic: what a home slice does with each request, what an L1 does with each answer, the
landing of results, acquire and release actions, evictions and the loss of an owner (12_word.md R246 to R262;
13_consistency.md R267, R276; 08_access.md R195 to R201; 19_task.md R379). -/

namespace Sys2Proof.Machine

/-! ## Messages -/

/-- The words that a message concerns. -/
def netWords : NetKind → List Nat
  | .read _ _ _ ws _ => ws
  | .replica _ _ _ ws _ _ => ws
  | .register ws _ _ _ _ => ws.map (fun x => x.1)
  | .grant ws _ => ws.map (fun x => x.1)
  | .revoke wa => [wa]
  | .revokeAnswer wa _ _ => [wa]
  | .forward _ _ _ ws => ws
  | .forwardAnswer _ _ _ _ _ => []
  | .writeBack wa _ _ _ => [wa]
  | .atomic _ _ _ _ wa _ => [wa]
  | .check _ _ _ _ wa _ _ => [wa]

/-- Whether a message goes from a slice to an L1. -/
def toL1 : NetKind → Bool
  | .grant _ _ => true
  | .revoke _ => true
  | .forward _ _ _ _ => true
  | _ => false

/-- Whether a message gives a word up, which waits for nothing (R251). -/
def givesUp : NetKind → Bool
  | .revokeAnswer _ _ _ => true
  | .writeBack _ _ _ _ => true
  | _ => false

/-- Whether a message may arrive: no earlier one of its owner in its direction concerns a word of it (R191, R251). -/
def netDue (m : Net) : List Net → Bool
  | [] => true
  | x :: xs =>
    if x.id = m.id ∨ givesUp m.kind = true then true
    else !(x.owner == m.owner && toL1 x.kind == toL1 m.kind &&
      (netWords x.kind).any (fun k => (netWords m.kind).contains k)) && netDue m xs

/-- The message of an identifier, if it may arrive. -/
def netTake (s : State) (id : Nat) : Option Net :=
  match netFind s id with
  | some m => if netDue m s.net then some m else none
  | none => none

/-! ## Lines of a slice (R249, R260, R262) -/

/-- The consumer cluster of a forward-tagged line. -/
def lineFwd (s : State) (ln : Nat) : Option Nat := (s.slices.find? (fun e => e.wa / 16 == ln && e.fwd.isSome)).bind (fun e => e.fwd)

/-- Clears the forward tag of a line. -/
def clearFwd (s : State) (ln : Nat) : State :=
  { s with slices := s.slices.map (fun e => if e.wa / 16 = ln then { e with fwd := none } else e) }

/-- Drops a line that its consumer has read, without writing it (R262). (assumption 23, DEDUCED) -/
def dropLine (s : State) (ln : Nat) : State :=
  { s with slices := s.slices.filter (fun e => !(e.wa / 16 == ln && e.st == .home)) }

/-- What a read by a core leaves of a forward-tagged line (R262). (assumption 108, DEDUCED) -/
def consumeLine (s : State) (core : Option Nat) (wa : Nat) : State :=
  match core, lineFwd s (wa / 16) with
  | some c, some k => if clusterOf c = k then dropLine s (wa / 16) else s
  | _, _ => s

/-- A tag lost with a line (R260). -/
def loseTag (s : State) (e : SliceWord) : State :=
  if e.tag = 0 then s
  else
    let x := ctxOf s e.ctx
    setCtx s e.ctx { x with lostTags := x.lostTags + 1 }

/-- Whether some word of a line is in a state. -/
def lineIn (s : State) (ln : Nat) (st : SliceSt) : Bool := s.slices.any (fun e => e.wa / 16 == ln && e.st == st)

/-- A line leaves its slice once the registrations of its words are revoked (R260, R262): dirty words go to HBM, tags are lost. A line
with a word in TRANSFER stays. -/
def clearLine (s : State) (ln : Nat) : State :=
  if lineIn s ln .transfer then s
  else
    let was := (s.slices.filter (fun e => e.wa / 16 == ln)).map (fun e => e.wa)
    was.foldl (fun s wa =>
      let s := flushWord s wa
      let e := sliceGet s wa
      let s := loseTag s e
      slicePut { s with mem := memSetWord s.mem wa e.val } { wa := wa, val := e.val }) s

/-- A line leaves its slice by eviction, where none of its words is REGISTERED or in TRANSFER (R260). Which lines leave, and when, is
the part's choice. (assumption 122, DESIGN CHOICE) -/
def evictLine (s : State) (ln : Nat) : State := if lineIn s ln .registered then s else clearLine s ln

/-- The home slice of a line on its die, and its set there (R246, R260). -/
def lineSet (s : State) (ln : Nat) : Nat × Nat := (sliceOf s (64 * ln), Config.l2Set ln)

/-- The ways of a slice in service (R38). -/
def waysOf (s : State) (slice : Nat) : Nat := 12 - (s.ways.filter (fun x => x.1 == slice)).length

/-- A line has been used (R260). -/
def useLine (s : State) (ln : Nat) : State :=
  { s with lru := s.lru.filter (fun k => k != ln && s.slices.any (fun e => e.wa / 16 == k)) ++ [ln] }

/-- Makes a way free for a line in its set (R260): where lines with registered words hold every way, the registrations of the least recently
used of them are revoked and it leaves. (assumption 122, DESIGN CHOICE) -/
def makeWay (s : State) (ln : Nat) : State :=
  let busy := dedup ((s.slices.filter (fun e => e.st != .home && e.wa / 16 != ln)).map (fun e => e.wa / 16))
  let s := useLine s ln
  if busy.length < 10 then s
  else
    let here := busy.filter (fun k => lineSet s k == lineSet s ln)
    if here.length < waysOf s (lineSet s ln).1 then s
    else
      match s.lru.find? (fun k => here.contains k && !(lineIn s k .transfer)) with
      | some k => clearLine s k
      | none => s

/-- A line becomes forward-tagged (R262): where six lines of its set are, the oldest of them is written to HBM and loses its tag. -/
def markLine (s : State) (ln : Nat) : State :=
  let live := s.fwdLines.filter (fun k => (lineFwd s k).isSome)
  if live.contains ln then { s with fwdLines := live }
  else
    let here := if live.length < 6 then [] else live.filter (fun k => lineSet s k == lineSet s ln)
    match here with
    | k :: _ =>
      if here.length < 6 then { s with fwdLines := live ++ [ln] }
      else
        let s := ((s.slices.filter (fun e => e.wa / 16 == k && e.st == .home && e.dirty)).map (fun e => e.wa)).foldl sliceClean s
        { clearFwd s k with fwdLines := live.filter (fun x => x != k) ++ [ln] }
    | [] => { s with fwdLines := live ++ [ln] }

/-! ## Lines of an L1 (R250) -/

/-- A line leaves an L1: VALID copies vanish, REGISTERED words are written back, PENDING words stay. -/
def evictL1 (s : State) (owner ln : Nat) : State :=
  (s.l1.filter (fun x => x.owner == owner && x.wa / 16 == ln)).foldl (fun s x =>
    match x.st with
    | .valid => { s with l1 := l1Drop s.l1 owner x.wa }
    | .registered => giveUp s x
    | .pending => s) s

/-- Writes back every REGISTERED word of an owner and makes every word INVALID, but for PENDING ones (R257, R492). -/
def flushOwner (s : State) (owner : Nat) : State :=
  let s := (s.slices.filter (fun e => e.st != .home && e.owner == owner)).foldl (fun s e => flushWord s e.wa) s
  { s with l1 := s.l1.filter (fun x => !(x.owner == owner && x.st != .pending)) }

/-! ## Grants (R249, R251, R252, R258, R262) -/

/-- A store is granted: the warps and the host operations that wait for it go on (R267, R494). -/
def storeGranted (s : State) (id : Nat) : State :=
  { s with warps := s.warps.map (fun w =>
             { w with stores := w.stores.filter (fun x => !(x.msg == id)) })
           hostOps := s.hostOps.map (fun h => { h with msgs := h.msgs.filter (fun x => !(x == id)) }) }

/-- The race tag and mask after a store of bytes under a tag (R258). -/
def nextTag (e : SliceWord) (tag : BitVec 16) (m : BitVec 4) : SliceWord :=
  { e with tag := tag, mask := if e.tag = tag then e.mask ||| m else m }

/-- Grants one word to a registrant, or writes it through (R249 to R252, R262): the machine, and the words for the grant
with and without data. -/
def grantWord (s : State) (owner : Nat) (tag : BitVec 16) (ctx : Nat) (thru : Bool) (fwd : Option Nat)
    (x : Nat × BitVec 4 × Word) : State × List (Nat × Word × BitVec 4) × List (Nat × Word × BitVec 4) :=
  let wa := x.1
  let s := match fwd with | none => clearFwd s (wa / 16) | some _ => markLine s (wa / 16)
  let e := sliceGet s wa
  let again := e.st == .registered && e.owner == owner
  let (old, k) := match e.st, e.ans with
    | .home, _ => (e.val, (0 : BitVec 4))
    | _, some (v, k) => (v, k)
    | _, none => registrantWord s e.owner wa
  let s := if e.st == .home && e.dirty then { s with mem := memSetWord s.mem wa e.val } else s
  let e' := nextTag { e with ctx := ctx, waiting := [], ans := none, fbit := false } tag x.2.1
  if thru then
    let s := match fwd with
      | some c => { s with slices := s.slices.map (fun y => if y.wa / 16 = wa / 16 ∧ y.fwd.isSome = true then { y with fwd := some c } else y) }
      | none => s
    let v := overlay old x.2.2 x.2.1
    let s := slicePut s { e' with st := .home, val := v, dirty := true, owner := 0, fwd := fwd }
    let l1 := match l1Find s.l1 owner wa with
      | some y => if y.keep then l1Put s.l1 { y with st := .valid, val := v, mask := 0, tag := 0, thru := false, base := none, stamp := s.tick }
                  else l1Drop s.l1 owner wa
      | none => s.l1
    (learnHeld { s with l1 := l1 } owner wa v, [], [])
  else
    let s := slicePut s { e' with st := .registered, owner := owner, val := 0, dirty := false, fbit := again && e.fbit, fwd := none }
    if again then (s, [], [(wa, 0, 0)]) else (s, [(wa, old, k)], [])

/-- Grants words of a registration together; the message stays with the words `rest` that are not granted yet. -/
def grantAll (s : State) (m : Net) (ws rest : List (Nat × BitVec 4 × Word)) (tag : BitVec 16) (ctx : Nat) (thru : Bool)
    (fwd : Option Nat) : State :=
  let (s, fresh, again) := ws.foldl (fun (acc : State × List (Nat × Word × BitVec 4) × List (Nat × Word × BitVec 4)) x =>
    let (s, a, b) := grantWord acc.1 m.owner tag ctx thru fwd x
    (s, acc.2.1 ++ a, acc.2.2 ++ b)) (s, [], [])
  let s := if rest.isEmpty then storeGranted (netDrop s m.id) m.id
    else { s with net := s.net.map (fun x => if x.id = m.id then { x with kind := .register rest tag ctx thru fwd } else x) }
  let s := if fresh.isEmpty then s else netSend s m.owner (.grant fresh true)
  if again.isEmpty then s else netSend s m.owner (.grant again false)

/-- Takes the words that others have registered into TRANSFER for a message, with a revocation to each registrant
(R251). -/
def revokeFor (s : State) (id : Nat) (ws : List Nat) : State :=
  ws.foldl (fun s wa =>
    let e := sliceGet s wa
    netSend (slicePut s { e with st := .transfer, waiting := [id], ans := none }) e.owner (.revoke wa)) s

/-- Whether a message may be handled now, no word of it in TRANSFER for another (R251). -/
def slicesFree (s : State) (id : Nat) (ws : List Nat) : Bool :=
  ws.all (fun wa => let e := sliceGet s wa; !(e.st == .transfer) || e.waiting == [id])

/-- Whether every word of a message stands ready for a grant to an owner. -/
def slicesReady (s : State) (owner : Nat) (ws : List Nat) : Bool :=
  ws.all (fun wa =>
    let e := sliceGet s wa
    e.st == .home || (e.st == .registered && e.owner == owner) || (e.st == .transfer && e.ans.isSome))

/-- A registration at its slice (R251): words of other registrants are revoked first, and each word is granted when it stands ready. The
two words of an SST's registration are one access (R193) and are granted together. -/
def serveRegister (s : State) (m : Net) : State :=
  match m.kind with
  | .register ws tag ctx thru fwd =>
    let was := ws.map (fun x => x.1)
    let s := revokeFor s m.id (was.filter (fun wa => let e := sliceGet s wa; e.st == .registered && e.owner != m.owner))
    let ready := ws.filter (fun x => slicesReady s m.owner [x.1])
    let rest := ws.filter (fun x => !(slicesReady s m.owner [x.1]))
    if ready.isEmpty || (m.owner != hostOwner && !rest.isEmpty) then s else grantAll s m ready rest tag ctx thru fwd
  | _ => s

/-- The lanes of an atomic applied to a word in order: its value and the old values (R192, R207). -/
def atomLanes (aop : Nat) : Word → List (Nat × Word × Word) → Word × List (Nat × Word)
  | v, [] => (v, [])
  | v, it :: r =>
    let (v', rs) := atomLanes aop (atomOp aop v it.2.1 it.2.2) r
    (v', (it.1, v) :: rs)

/-- An atomic's old values reach its operation. -/
def atomReply (s : State) (c n op : Nat) (rs : List (Nat × Word)) : State :=
  match warpFind s c n with
  | none => s
  | some w => setWarp s { w with pend := w.pend.map (fun p => if p.id = op then
      { p with vals := laneIdx.map (fun l => match getKey l rs with | some v => some v | none => getAt none p.vals l) } else p) }

/-- An L1's copies of a word, there and on their way, go: its core has an atomic on the word performed (R191). -/
def dropCopies (s : State) (owner wa : Nat) : State :=
  dropFill { s with l1 := s.l1.filter (fun x => !(x.owner == owner && x.wa == wa && x.st == .valid)) } owner wa

/-- The copies of a window word that a warp's core finds go, as its atomic there is performed (R191, R209). -/
def dropWindow (s : State) (c n wa : Nat) : State :=
  match warpFind s c n with
  | none => s
  | some w => dropCopies (dropCopies s (ownerOf s w.core) wa) (l2Owner (dieOf w.core)) wa

/-- An atomic at its slice (R251, R207): a registered word is taken back first. -/
def serveAtomic (s : State) (m : Net) : State :=
  match m.kind with
  | .atomic c n op aop wa lanes =>
    let e := sliceGet s wa
    let go (v : Word) (s : State) : State :=
      let (v', rs) := atomLanes aop v lanes
      atomReply (netDrop (slicePut (dropCopies s m.owner wa) { e with st := .home, val := v', dirty := true, owner := 0, waiting := [], ans := none, fbit := false }) m.id) c n op rs
    match e.st, e.ans with
    | .home, _ => go e.val s
    | .transfer, some (v, _) => go v s
    | .registered, _ => revokeFor s m.id [wa]
    | .transfer, none => s
  | _ => s

/-- A word in TRANSFER whose request is gone is HOME with the registrant's answer, once that has come (R37). -/
def homeAgain (s : State) (wa : Nat) : State :=
  let e := sliceGet s wa
  match e.st, e.ans with
  | .transfer, some (v, _) => slicePut s { e with st := .home, val := v, dirty := true, owner := 0, fbit := false, ans := none, waiting := [] }
  | _, _ => s

/-- Goes on with the message that waited for a word. -/
def serveWaiting (s : State) (wa : Nat) : State :=
  match (sliceGet s wa).waiting with
  | id :: _ =>
    match netFind s id with
    | some m =>
      match m.kind with
      | .atomic _ _ _ _ _ _ => serveAtomic s m
      | _ => serveRegister s m
    | none => homeAgain s wa
  | [] => s

/-- A registrant's word comes back, as an answer or a write-back (R251, R252). -/
def wordBack (s : State) (owner wa : Nat) (v : Word) (k : BitVec 4) : State :=
  let e := sliceGet s wa
  if e.owner = owner ∧ e.st = .transfer then serveWaiting (slicePut s { e with ans := some (v, k) }) wa
  else if e.owner = owner ∧ e.st = .registered then
    slicePut s { e with st := .home, val := v, dirty := true, owner := 0, fbit := false }
  else s

/-! ## The events of the slices and L1s -/

/-- REGISTRATION_REQUEST (R249 to R252, R258, R260, R262, R494). -/
def dueRegistrationRequest (msg : Nat) (evict : List Nat) (s : State) : Option State :=
  match netTake s msg with
  | none => none
  | some m =>
    match m.kind with
    | .register ws _ _ _ _ =>
      let was := ws.map (fun x => x.1)
      let s := (dedup (was.map (fun wa => wa / 16))).foldl makeWay (evict.foldl evictLine s)
      if slicesFree s m.id was && !(was.any (fun wa => (sliceGet s wa).st == .transfer)) then some (serveRegister s m)
      else none
    | _ => none

/-- REGISTRATION_REQUEST, which takes place where it is due. -/
def execRegistrationRequest (msg : Nat) (evict : List Nat) (s : State) : Host.Outcome State Fault Refusal := takes s (dueRegistrationRequest msg evict s)

/-- GRANT (R250, R252): the word is completed under the held bytes and becomes REGISTERED. -/
def dueGrant (msg : Nat) (s : State) : Option State :=
  match netTake s msg with
  | none => none
  | some m =>
    match m.kind with
    | .grant ws fresh =>
      some (ws.foldl (fun s x =>
        match l1Find s.l1 m.owner x.1 with
        | none => s
        | some e =>
          let (b, k) := if fresh then (x.2.1, x.2.2) else e.base.getD (e.val, e.mask)
          learnHeld { s with l1 := l1Put s.l1 { e with st := .registered, val := overlay b e.val e.mask, mask := e.mask ||| k, base := none } }
            m.owner x.1 (overlay b e.val e.mask))
        (netDrop s m.id))
    | _ => none

/-- GRANT, which takes place where it is due. -/
def execGrant (msg : Nat) (s : State) : Host.Outcome State Fault Refusal := takes s (dueGrant msg s)

/-- REVOCATION (R250): the registrant gives the word up. One that waits for the grant of a re-registration answers with the word as it
was before that store. (assumption 123, DESIGN CHOICE) -/
def dueRevocation (msg : Nat) (s : State) : Option State :=
  match netTake s msg with
  | none => none
  | some m =>
    match m.kind with
    | .revoke wa =>
      let s := netDrop s m.id
      match l1Find s.l1 m.owner wa with
      | none => some s
      | some e =>
        match e.st, e.base with
        | .registered, _ => some (netSend { s with l1 := l1Drop s.l1 m.owner wa } m.owner (.revokeAnswer wa e.val e.mask))
        | .pending, some (v, k) =>
          some (netSend { s with l1 := l1Put s.l1 { e with base := none } } m.owner (.revokeAnswer wa v k))
        | _, _ => some s
    | _ => none

/-- REVOCATION, which takes place where it is due. -/
def execRevocation (msg : Nat) (s : State) : Host.Outcome State Fault Refusal := takes s (dueRevocation msg s)

/-- REVOCATION_ANSWER (R251, R252). -/
def dueRevocationAnswer (msg : Nat) (s : State) : Option State :=
  match netTake s msg with
  | none => none
  | some m =>
    match m.kind with
    | .revokeAnswer wa v k => some (wordBack (netDrop s m.id) m.owner wa v k)
    | _ => none

/-- REVOCATION_ANSWER, which takes place where it is due. -/
def execRevocationAnswer (msg : Nat) (s : State) : Host.Outcome State Fault Refusal := takes s (dueRevocationAnswer msg s)

/-- WRITE_BACK (R251). -/
def dueWriteBack (msg : Nat) (s : State) : Option State :=
  match netTake s msg with
  | none => none
  | some m =>
    match m.kind with
    | .writeBack wa v k _ => some (wordBack (netDrop s m.id) m.owner wa v k)
    | _ => none

/-- WRITE_BACK, which takes place where it is due. -/
def execWriteBack (msg : Nat) (s : State) : Host.Outcome State Fault Refusal := takes s (dueWriteBack msg s)

/-- Whether an operation of a warp is an SLD, whose two words are read together (R193). -/
def readsPair (s : State) (c n op : Nat) : Bool :=
  match warpFind s c n with
  | some w => w.pend.any (fun p => p.id == op && p.kind == .sld && p.sdst.isSome)
  | none => false

/-- Serves words that no TRANSFER holds up (R251, R253): HOME words, and the reader's own, answer at once; the others are forwarded,
those of one registrant together, those of an SLD in one message. -/
def serveRead (s : State) (c n op owner : Nat) (pair : Bool) (ws : List Nat) : State :=
  let away (wa : Nat) : Bool := (sliceGet s wa).st == .registered && (sliceGet s wa).owner != owner
  let far := ws.filter away
  let groups : List (Nat × List Nat) :=
    if pair then (match far with | [] => [] | wa :: _ => [((sliceGet s wa).owner, ws)])
    else (dedup (far.map (fun wa => (sliceGet s wa).owner))).map (fun o => (o, far.filter (fun wa => (sliceGet s wa).owner == o)))
  let s1 := (if pair && !far.isEmpty then [] else ws.filter (fun wa => !(away wa))).foldl (fun t wa => learnAt t c n op wa (cohWord s wa)) s
  let s2 := far.foldl (fun t wa => slicePut t { sliceGet t wa with fbit := true }) s1
  groups.foldl (fun t g =>
    if pair then netSend t g.1 (.forward c n op g.2)
    else g.2.foldl (fun t wa => netSend t g.1 (.forward c n op [wa])) t) s2

/-- Whether a die's L2 holds a line of a REPLICATED page. -/
def replicaHere (s : State) (die ln : Nat) : Bool := s.l1.any (fun x => x.owner == l2Owner die && x.wa / 16 == ln)

/-- A word of such a line: as the L2 holds it, or as HBM fills it (R292). -/
def replicaWord (s : State) (die wa : Nat) : Word :=
  match l1Find s.l1 (l2Owner die) wa with
  | some x => x.val
  | none => memWord s.mem wa

/-- Whether a die serves a line of a page by its own L2 (R292): the page is REPLICATED, or the die still holds the line. -/
def replicaServes (s : State) (c page die ln : Nat) : Bool :=
  replicaHere s die ln || s.pages.any (fun p => p.ctx == c && p.base == page && p.st == .replicated)

/-- The reader's die serves words of a line of a REPLICATED page, which its L2 holds from then on. -/
def serveReplica (s : State) (c n op die : Nat) (ws : List Nat) : State :=
  ws.foldl (fun s wa =>
    let v := replicaWord s die wa
    learnAt { s with l1 := l1Put s.l1 { owner := l2Owner die, wa := wa, st := .valid, val := v, ctx := c } } c n op wa v) s

/-- SLICE_READ (R193, R251, R253, R260, R262, R292): words in TRANSFER wait, and the other word of an SLD with them; a line of a
REPLICATED page that the reader's die does not serve is read at its home slice. -/
def dueSliceRead (msg : Nat) (evict : List Nat) (s : State) : Option State :=
  match netTake s msg with
  | none => none
  | some m =>
    match m.kind with
    | .read c n op ws core =>
      let s := (dedup (ws.map (fun wa => wa / 16))).foldl makeWay (evict.foldl evictLine s)
      let pair := readsPair s c n op
      let later := ws.filter (fun wa => (sliceGet s wa).st == .transfer)
      let now := ws.filter (fun wa => !((sliceGet s wa).st == .transfer))
      if now.isEmpty || (pair && !later.isEmpty) then none
      else
        let s := if later.isEmpty then netDrop s m.id
          else { s with net := s.net.map (fun x => if x.id = m.id then { x with kind := .read c n op later core } else x) }
        let here := now.filter (fun wa => !((sliceGet s wa).st == .registered && (sliceGet s wa).owner != m.owner))
        let s := serveRead s c n op m.owner pair now
        some (match here with
          | wa :: _ => consumeLine s (some core) wa
          | [] => s)
    | .replica c n op ws core page =>
      let s := evict.foldl (fun s ln => dropReplicas s (fun d => d == dieOf core) (64 * ln) 64) s
      if replicaServes s c page (dieOf core) (getAt 0 ws 0 / 16) then some (serveReplica (netDrop s m.id) c n op (dieOf core) ws)
      else some { s with net := s.net.map (fun x => if x.id = m.id then { x with kind := .read c n op ws core } else x) }
    | _ => none

/-- SLICE_READ, which takes place where it is due. -/
def execSliceRead (msg : Nat) (evict : List Nat) (s : State) : Host.Outcome State Fault Refusal := takes s (dueSliceRead msg evict s)

/-- Whether a registrant can answer for a word: it waits for no grant that it must complete the word from first (R250). -/
def canAnswer (s : State) (owner wa : Nat) : Bool :=
  match l1Find s.l1 owner wa with
  | some e => e.st != .pending || e.base.isSome
  | none => true

/-- FORWARDED_READ (R250, R253): the registrant answers the reader; the two words of an SLD are answered as they stand together. -/
def dueForwardedRead (msg : Nat) (s : State) : Option State :=
  match (netTake s msg).filter (fun m => (netWords m.kind).all (canAnswer s m.owner)) with
  | none => none
  | some m =>
    match m.kind with
    | .forward c n op ws =>
      let vals := ws.map (fun wa => (wa,
        match ws, l1Find s.l1 m.owner wa with
        | [_], some e => if e.st = .pending then (e.base.getD (e.val, 0)).1 else e.val
        | _, _ => cohWord s wa))
      let s := netDrop s m.id
      let s := ws.foldl (fun s wa =>
        let e := sliceGet s wa
        let more := s.net.any (fun x => match x.kind with | .forward _ _ _ us => us.contains wa | _ => false)
        slicePut s { e with fbit := e.fbit && more }) s
      some (netSend s m.owner (.forwardAnswer c n op vals false))
    | _ => none

/-- FORWARDED_READ, which takes place where it is due. -/
def execForwardedRead (msg : Nat) (s : State) : Host.Outcome State Fault Refusal := takes s (dueForwardedRead msg s)

/-- Whether an operation still waits for a word. -/
def awaits (s : State) (c n op wa : Nat) : Bool :=
  match warpFind s c n with
  | none => false
  | some w => w.pend.any (fun p => p.id == op && p.words.any (fun x => x.1 == wa && x.2.isNone))

/-- A deferred cause arrives for a warp (R316): it is kept with the warp, or is context-level once the warp has
completed. (assumption 21, DEDUCED) -/
def deferCause (s : State) (c n : Nat) (k : Cause) (addr : DWord) : State :=
  match warpFind s c n with
  | some w => setWarp s { w with deferred := w.deferred ++ [(k, addr)] }
  | none => ctxFault s c k none (some n) addr

/-- FORWARDED_READ_ANSWER (R253, R254): the registrant's answer, or the completion of the slice that carries the HBM
value; the reader takes the first. -/
def dueForwardedReadAnswer (msg : Nat) (s : State) : Option State :=
  match netTake s msg with
  | none => none
  | some m =>
    match m.kind with
    | .forwardAnswer c n op ws lost =>
      some (ws.foldl (fun s x =>
        if awaits s c n op x.1 then
          let s := learnAt s c n op x.1 x.2
          if lost && x.1 == (getAt (0, 0) ws 0).1 then deferCause s c n .ownerLost (.ofNat 64 (4 * x.1)) else s
        else s) (netDrop s m.id))
    | _ => none

/-- FORWARDED_READ_ANSWER, which takes place where it is due. -/
def execForwardedReadAnswer (msg : Nat) (s : State) : Host.Outcome State Fault Refusal := takes s (dueForwardedReadAnswer msg s)

/-- SLICE_ATOMIC (R207, R208, R251). -/
def dueSliceAtomic (msg : Nat) (s : State) : Option State :=
  match netTake s msg with
  | none => none
  | some m =>
    match m.kind with
    | .atomic _ _ _ _ wa _ =>
      let s := makeWay s (wa / 16)
      if (sliceGet s wa).st = .transfer then none else some (serveAtomic s m)
    | _ => none

/-- SLICE_ATOMIC, which takes place where it is due. -/
def execSliceAtomic (msg : Nat) (s : State) : Host.Outcome State Fault Refusal := takes s (dueSliceAtomic msg s)

/-! ## The race filter (R258, R379) -/

/-- An epoch and index of a pedigree entry (R362). -/
def entEpoch (e : BitVec 32) : Nat := e.toNat / 2 ^ 20
def entIndex (e : BitVec 32) : Nat := e.toNat % 2 ^ 20

/-- Whether two strand pedigrees are of logically parallel strands (R379). -/
def parallelPed : List (BitVec 32) → List (BitVec 32) → Bool
  | [], _ => false
  | _, [] => false
  | u :: us, v :: vs =>
    if u = v then parallelPed us vs
    else if entEpoch u ≠ entEpoch v then false
    else
      match us, vs with
      | [], [] => false
      | _ :: _, _ :: _ => true
      | [], _ :: _ => decide (entIndex v < entIndex u)
      | _ :: _, [] => decide (entIndex u < entIndex v)

/-- The strand pedigree of a tag's entry (R362, R368). -/
def strandPed (x : Ctx) (tag : Nat) : Option (List (BitVec 32)) :=
  (x.strands.find? (fun e => e.tag == tag && e.st == 1)).map (fun e => e.ped ++ [e.ctr])

/-- Whether the filter answers RACE to an access (R258). -/
def raceAt (s : State) (ctx wa : Nat) (bytes : BitVec 4) (tag : BitVec 16) : Bool :=
  let e := sliceGet s wa
  tag != 0 && e.tag != 0 && e.tag != tag && (bytes &&& e.mask) != 0 &&
  (match strandPed (ctxOf s ctx) tag.toNat, strandPed (ctxOf s ctx) e.tag.toNat with
   | some u, some v => parallelPed u v
   | _, _ => false)

/-- CHECK_REQUEST (R195, R258). -/
def dueCheckRequest (msg : Nat) (s : State) : Option State :=
  match netTake s msg with
  | none => none
  | some m =>
    match m.kind with
    | .check c n l va wa bytes tag =>
      let race := raceAt s c wa bytes tag
      let s := netDrop s m.id
      match warpFind s c n with
      | none => some s
      | some w =>
        let left := w.attempt.checks.filter (fun x => !(x == m.id))
        let w := { w with attempt := { w.attempt with
          checks := left, checked := w.attempt.checked || left.isEmpty
          raced := if race then w.attempt.raced ++ [(l, va)] else w.attempt.raced } }
        some (setWarp s (if left.isEmpty then { w with holds := w.holds.filter (fun h => !(h == .check)) } else w))
    | _ => none

/-- CHECK_REQUEST, which takes place where it is due. -/
def execCheckRequest (msg : Nat) (s : State) : Host.Outcome State Fault Refusal := takes s (dueCheckRequest msg s)

/-! ## Landings (R140, R183, R196, R207, R227) -/

/-- An operation of a warp. -/
def opOf (s : State) (c n id : Nat) : Option (Warp × POp) :=
  match warpFind s c n with
  | none => none
  | some w => (w.pend.find? (fun p => p.id == id)).map (fun p => (w, p))

/-- Whether a load has all its data. -/
def dataHere (p : POp) : Bool :=
  p.words.all (fun x => x.2.isSome) && laneIdx.all (fun l => !(laneBit p.lanes l) || (getAt none p.vals l).isSome)

/-- The value of an SLD (R172). -/
def sldValue (p : POp) : DWord :=
  match p.srcs with
  | [a, b] => .ofNat 64 (((getKey a.wa p.words).join.getD 0).toNat + 2 ^ 32 * ((getKey b.wa p.words).join.getD 0).toNat)
  | _ => 0

/-- Installs the words of a landing as VALID copies, where no acquire has begun since the load issued (R250). -/
def installFill (s : State) (w : Warp) (p : POp) : State :=
  if epochOf s p.owner ≠ p.epoch ∨ ownerOf s w.core ≠ p.owner then s
  else
    let vas := (p.words.map (fun x => x.1)).zip p.pages
    let put (s : State) (owner : Nat) (x : Nat × Word × Nat) : State :=
      match l1Find s.l1 owner x.1 with
      | some _ => s
      | none => { s with l1 := { owner := owner, wa := x.1, st := .valid, val := x.2.1, ctx := w.ctx, va := (getKey x.1 vas).getD 0
                                 stamp := x.2.2 } :: s.l1 }
    p.fill.foldl (fun s x =>
      let s := put s p.owner x
      if physKind (4 * x.1) = 0 then s else put s (l2Owner (dieOf w.core)) x) s

/-- LOAD_DATA_LANDS (R140, R196 to R198, R203, R250): every lane of a load in one step; `evict` are the lines that leave the
L1 for it. -/
def dueLoadDataLands (c n op : Nat) (evict : List Nat) (s : State) : Option State :=
  match opOf s c n op with
  | none => none
  | some (w, p) =>
    let due := match p.kind with
      | .load _ _ => dataHere p
      | .sld => dataHere p
      | .scratch _ => dataHere p
      | _ => false
    if due then
      let s := evict.foldl (fun s ln => evictL1 s p.owner ln) s
      let s := installFill s w p
      let sval := match p.kind with | .sld => some (sldValue p) | _ => none
      some (pumpTrap (setWarp s (landOp w p sval)) c n)
    else none

/-- LOAD_DATA_LANDS, which takes place where it is due. -/
def execLoadDataLands (c n op : Nat) (evict : List Nat) (s : State) : Host.Outcome State Fault Refusal := takes s (dueLoadDataLands c n op evict s)

/-- The landing of a result whose values stood at issue. -/
def landResult (kind : OpKind) (c n op : Nat) (s : State) : Option State :=
  match opOf s c n op with
  | none => none
  | some (w, p) => if p.kind = kind ∧ dataHere p = true ∧ landsNext w p = true then some (pumpTrap (setWarp s (landOp w p none)) c n) else none

/-- SFU_RESULT_LANDS (R183). -/
def dueSfuResultLands (c n op : Nat) (s : State) : Option State := landResult .sfu c n op s

/-- SFU_RESULT_LANDS, which takes place where it is due. -/
def execSfuResultLands (c n op : Nat) (s : State) : Host.Outcome State Fault Refusal := takes s (dueSfuResultLands c n op s)

/-- LONG_RESULT_LANDS (R227). -/
def dueLongResultLands (c n op : Nat) (s : State) : Option State := landResult .long c n op s

/-- LONG_RESULT_LANDS, which takes place where it is due. -/
def execLongResultLands (c n op : Nat) (s : State) : Host.Outcome State Fault Refusal := takes s (dueLongResultLands c n op s)

/-- ATOMIC_RESULT_LANDS (R207). -/
def dueAtomicResultLands (c n op : Nat) (s : State) : Option State := landResult .atom c n op s

/-- ATOMIC_RESULT_LANDS, which takes place where it is due. -/
def execAtomicResultLands (c n op : Nat) (s : State) : Host.Outcome State Fault Refusal := takes s (dueAtomicResultLands c n op s)

/-! ## Acquire and release actions (R200, R201, R255, R257, R267, R279) -/

/-- Whether an operation has landed. -/
def landed (w : Warp) (ids : List Nat) : Bool := ids.all (fun i => !(w.pend.any (fun p => p.id == i)))

/-- The L1 invalidation and the drop of window lines that an acquire performs (R255, R257, R267). (assumption 22, DEDUCED) -/
def acquireAction (s : State) (core scope : Nat) (r : Option Range) : State :=
  let own := ownerOf s core
  let l2 := l2Owner (dieOf core)
  let inv := decide (4 ≤ scope) || (decide (scope = 3) && !isFused s core)
  let covered (x : L1Word) : Bool := match r with | none => true | some g => inRange g x.va 4
  let gone (x : L1Word) : Bool :=
    (inv && x.owner == own && x.st == .valid && covered x) ||
    ((x.owner == own || x.owner == l2) && covered x &&
      ((decide (7 ≤ scope) && physKind (4 * x.wa) == 1) || (decide (8 ≤ scope) && physKind (4 * x.wa) == 2)))
  { s with l1 := s.l1.filter (fun x => !gone x)
           epochs := if inv then putKey own (epochOf s own + 1) s.epochs else s.epochs }

/-- ACQUIRE_ACTION_DONE (R200, R255, R267). -/
def dueAcquireActionDone (c n : Nat) (s : State) : Option State :=
  match warpFind s c n with
  | none => none
  | some w =>
    match w.acq with
    | none => none
    | some q =>
      if landed w q.ops then some (pumpTrap (setWarp (acquireAction s w.core q.scope q.range) { w with acq := none }) c n)
      else none

/-- ACQUIRE_ACTION_DONE, which takes place where it is due. -/
def execAcquireActionDone (c n : Nat) (s : State) : Host.Outcome State Fault Refusal := takes s (dueAcquireActionDone c n s)

/-- Whether a release action has nothing left to wait for. -/
def relDone (s : State) (w : Warp) (r : RelAct) : Bool :=
  landed w r.ops && r.stores.all (fun m => !(w.stores.any (fun x => x.msg == m))) &&
  r.behind.all (fun k => !(w.relq.any (fun q => q.id == k))) &&
  (decide (r.scope ≤ 1) || !scratchOut s w) &&
  (match r.cont with
   | .stores ws => ws.all (fun x => match l1Find s.l1 (ownerOf s w.core) x.2.1 with | some e => !(e.st == .pending) | none => true)
   | _ => true)

/-- What follows a release action (R201, R279, R405). -/
def relCont (s : State) (w : Warp) (r : RelAct) : State × Warp :=
  match r.cont with
  | .none => (s, match r.acq with | some sc => addAcquire w sc [] none | none => w)
  | .stores ws =>
    let (s, w') := storeWords s w none (ws.map (fun x => (x.1, x.2.2.1, x.2.2.2.1, x.2.2.2.2)))
    let sent := w'.stores.filter (fun x => !(w.stores.any (fun y => y.msg == x.msg)))
    let follow (q : RelAct) : RelAct :=
      if q.behind.contains r.id then { q with stores := q.stores ++ (sent.filter (storeDue s w q.scope)).map (fun x => x.msg) } else q
    (s, { w' with relq := w'.relq.map follow, rel := w'.rel.map follow })
  | .arrive off amount => ({ s with fresh := s.fresh + 1 }, { w with arrivals := w.arrivals ++ [⟨s.fresh, off, amount⟩] })

/-- RELEASE_ACTION_DONE (R201, R267, R276, R279): the fence's action, or else the oldest of an STR or SYNCA. -/
def dueReleaseActionDone (c n : Nat) (s : State) : Option State :=
  match warpFind s c n with
  | none => none
  | some w =>
    match w.rel.filter (relDone s w), w.relq with
    | some r, _ =>
      let (s, w) := relCont s { w with rel := none } r
      some (pumpTrap (setWarp s w) c n)
    | none, r :: rest =>
      if relDone s w r then
        let (s, w) := relCont s { w with relq := rest } r
        some (pumpTrap (setWarp s w) c n)
      else none
    | none, [] => none

/-- RELEASE_ACTION_DONE, which takes place where it is due. -/
def execReleaseActionDone (c n : Nat) (s : State) : Host.Outcome State Fault Refusal := takes s (dueReleaseActionDone c n s)

/-! ## Owner loss (R254) -/

/-- One word of a lost registrant: HOME with HBM's value, OWNER_LOST to the registrant's context, a completion to each
reader whose forwarded read is in flight, and the waiting request goes on. (assumption 107, DEDUCED) -/
def loseWord (s : State) (core : Option Nat) (wa : Nat) (addr : DWord) : State :=
  let e := sliceGet s wa
  match e.st with
  | .home => s
  | _ =>
    let v := memWord s.mem wa
    let answers := s.net.filterMap (fun m =>
      match m.kind with
      | .forward c n op ws => if ws.contains wa then
          some (m.owner, NetKind.forwardAnswer c n op ((wa, v) :: (ws.filter (fun k => k != wa)).map (fun k => (k, cohWord s k))) true) else none
      | .forwardAnswer c n op ws false => if ws.any (fun x => x.1 == wa) then some (m.owner, NetKind.forwardAnswer c n op [(wa, v)] true) else none
      | _ => none)
    let net := (s.net.filter (fun m =>
      match m.kind with
      | .forward _ _ _ ws => !(ws.contains wa)
      | .grant _ _ => true
      | _ => !(movesWord e.owner wa m))).map (trimGrant e.owner wa)
    let s := { s with net := net.filter (fun m => !emptyGrant m), l1 := l1Drop s.l1 e.owner wa }
    let s := answers.foldl (fun s a => netSend s a.1 a.2) (learnHeld s e.owner wa v)
    let s := match e.st with
      | .transfer => serveWaiting (slicePut s { e with ans := some (v, 0), fbit := false }) wa
      | _ => slicePut s { e with st := .home, val := v, owner := 0, fbit := false, ans := none, waiting := [] }
    ctxFault s e.ctx .ownerLost core none addr

/-- Whether the loss of a registrant takes a word from it: a word that it holds, or a TRANSFER that awaits its answer (R254). -/
def losesWord (owner : Nat) (e : SliceWord) : Bool := e.st != .home && e.owner == owner && e.ans.isNone

/-- Every word of a lost registrant. -/
def loseOwner (s : State) (core owner : Nat) : State :=
  (s.slices.filter (losesWord owner)).foldl (fun s e => loseWord s (some core) e.wa 0) s

end Sys2Proof.Machine
end

