-- ==== Sys2Proof/Machine/Control.lean ====
section
/-! DEFINITION. Control transfer and the rest of the T format: BRA, CALL, BRX, CALLX, RET, EXIT, FUSE, YIELD, NOP, WAIT,
TRAP, TRET, BRK, groups that are no instruction, and the refill of a descheduled warp (04_thread.md R121 to R129;
05_register.md R147; 11_issue.md R237, R244; 03_encoding.md R99, R100; 15_context.md R322, R323). -/

namespace Sys2Proof.Machine

/-! ## Control transfer (R124 to R128) -/

/-- The lowest lane of a bound group whose LIVE lanes would part (R128 order 5). -/
def divergeLane (w : Warp) (pc : List (BitVec 32)) (depth : List (BitVec 8)) : Option Nat :=
  let n := boundSize w
  if n ≤ 1 then none
  else
    laneIdx.find? (fun l => laneBit (live w) l && laneIdx.any (fun k =>
      k / n == l / n && laneBit (live w) k && !(getAt 0 pc k == getAt 0 pc l && getAt 0 depth k == getAt 0 depth l)))

/-- Ends a transfer: the binding's test, and whether it is taken (R128, R238). -/
def transfer (s : State) (i : Iss) (w : Warp) (pc : List (BitVec 32)) (depth : List (BitVec 8)) : Res :=
  match divergeLane i.w pc depth with
  | some l => .cause .boundDiverge (some l) 0 0
  | none =>
    let taken := laneIdx.any (fun l => laneBit i.split l && getAt 0 pc l != i.pc + 4)
    .ok { s := s, w := w, pcs := some (pc, depth), taken := taken }

/-- The return-stack word of a lane at a depth, modulo 2^64 (R125, R127, R128). -/
def stackAddr (w : Warp) (depth l : Nat) : Nat := (w.privbase.toNat + (depth * 32 + l) * 4) % 2 ^ 64

/-- A transfer of the lanes T of the split to targets, as a call or not (R125, R126, R128). -/
def jump (s : State) (i : Iss) (call : Bool) (t : LaneMask) (target : Nat → BitVec 32) : Res :=
  let ts := lanesOf t
  let w := i.w
  match (if call then ts.find? (fun l => depthOf w l == 255 || decide (w.stackLim.toNat ≤ depthOf w l)) else none) with
  | some l => .cause .stackLimit (some l) (.ofNat 64 (stackAddr w (depthOf w l) l)) 0
  | none =>
    let as := if call then ts.map (fun l => (l, stackAddr w (depthOf w l) l)) else []
    match (if as.isEmpty then Gate.go s [] else gate s w { size := 4, align := 4, rd := false, wr := true, kind := kStore, watch := false } as) with
    | .cause k l x code => .cause k (some l) (.ofNat 64 x) code
    | .wait s w => .held s w
    | .go s es =>
      match ts.find? (fun l => (target l).getLsbD 0) with
      | some l => .cause .misaligned (some l) ((target l).setWidth 64) 0
      | none =>
        let pc := laneIdx.map (fun l => if laneBit t l then target l else if laneBit i.split l then i.pc + 4 else getAt 0 w.pc l)
        let depth := laneIdx.map (fun l => if call && laneBit t l then getAt 0 w.depth l + 1 else getAt 0 w.depth l)
        match divergeLane w pc depth with
        | some l => .cause .boundDiverge (some l) 0 0
        | none =>
          if anyPending s w es then .held s (retryHold w)
          else
            let (s, w) := storeWords s w none (gatherStores 4 (fun _ => (i.pc + 4).toNat) es)
            transfer s i w pc depth

/-- BRA and CALL (R125). -/
def branch (call : Bool) (s : State) (i : Iss) : Res :=
  match i.c.body with
  | .B o =>
    let m := i.m o.mask.toNat
    let t : LaneMask := i.split &&& (if o.sense then m else ~~~ m)
    let target := i.pc + (o.off.signExtend 32) * 2
    jump s i call t (fun _ => target)
  | _ => .held s i.w

/-- BRX and CALLX (R126). -/
def branchX (call : Bool) (s : State) (i : Iss) : Res :=
  match i.c.body with
  | .T o =>
    let a := i.v o.a
    jump s i call i.split (fun l => lane a l)
  | _ => .held s i.w

/-- BRA (R125). -/
def execBra (g : Grp) (o : OpsB) (s : State) : Host.Outcome State Fault Refusal := issueAs s (.bra g o) (branch false)

/-- CALL (R125). -/
def execCall (g : Grp) (o : OpsB) (s : State) : Host.Outcome State Fault Refusal := issueAs s (.call g o) (branch true)

/-- BRX (R126). -/
def execBrx (g : Grp) (o : OpsT) (s : State) : Host.Outcome State Fault Refusal := issueAs s (.brx g o) (branchX false)

/-- CALLX (R126). -/
def execCallx (g : Grp) (o : OpsT) (s : State) : Host.Outcome State Fault Refusal := issueAs s (.callx g o) (branchX true)

/-- RET (R127, R128): a return-stack word that the core does not hold, on a window page, is fetched first. (assumption 19, DEDUCED) -/
def retSem (s : State) (i : Iss) : Res :=
  let ts := lanesOf i.split
  let w := i.w
  let addr (l : Nat) : Nat := stackAddr w (depthOf w l + 2 ^ 57 - 1) l
  match ts.find? (fun l => depthOf w l == 0 || decide (w.stackLim.toNat ≤ depthOf w l - 1)) with
  | some l => .cause .stackLimit (some l) (.ofNat 64 (addr l)) 0
  | none =>
    match gate s w { size := 4, align := 4, rd := true, wr := false, kind := kLoad, watch := false } (ts.map (fun l => (l, addr l))) with
    | .cause k l x code => .cause k (some l) (.ofNat 64 x) code
    | .wait s w => .held s w
    | .go s es =>
      let found (l : Nat) : Option Word :=
        match es.find? (fun x => x.1 == l) with
        | some x => (match findWord s w x.2.2 x.2.1 15#4 with
          | .val v => some v
          | _ => if leafKind x.2.2 = 0 then none else (l1Find s.l1 (ownerOf s w.core) (physOf x.2.2 x.2.1 / 4)).map (fun y => y.val))
        | none => none
      if anyPending s w es then .held s (retryHold w)
      else if ts.any (fun l => (found l).isNone) then
        let (id, s) := takeFresh s
        let (s, w) := beginLoad s w { id := id, kind := .sld } es
        let force (p : POp) : POp := if p.id = id then { p with fill := p.words.filterMap (fun x => if x.2.isNone then some (x.1, 0, 0) else none) } else p
        .held s { w with pend := w.pend.map force, holds := .op id :: w.holds }
      else
        match ts.find? (fun l => ((found l).getD 0).getLsbD 0) with
        | some l => .cause .misaligned (some l) (((found l).getD 0).setWidth 64) 0
        | none =>
          let pc := laneIdx.map (fun l => if laneBit i.split l then (found l).getD 0 else getAt 0 w.pc l)
          let depth := laneIdx.map (fun l => if laneBit i.split l then getAt 0 w.depth l - 1 else getAt 0 w.depth l)
          let own := ownerOf s w.core
          let once (x : Nat × Nat × BitVec 64) : Bool := leafKind x.2.2 != 0 && !(leafC x.2.2)
          let s := if es.any once then
              (es.filter once).foldl (fun t x => { t with l1 := l1Drop t.l1 own (physOf x.2.2 x.2.1 / 4) }) s else s
          transfer s i (es.foldl (fun w x => useRow w x.2.1) w) pc depth

/-- RET (R127). -/
def execRet (g : Grp) (o : OpsT) (s : State) : Host.Outcome State Fault Refusal := issueAs s (.ret g o) retSem

/-! ## EXIT, FUSE, YIELD, NOP, WAIT (R121, R122, R129, R237, R244) -/

/-- EXIT (R122). -/
def execExit (g : Grp) (o : OpsT) (s : State) : Host.Outcome State Fault Refusal :=
  issueAs s (.exit g o) (fun s i =>
    .ok { s := s, w := { i.w with exited := i.w.exited ||| i.split }, pcs := some (i.w.pc, i.w.depth) })

/-- Whether a LIVE lane stands below a split (R121). -/
def belowSplit (w : Warp) (split : LaneMask) : Bool :=
  let k := keyOf w (((lanesOf split).head?).getD 0)
  (lanesOf (live w)).any (fun j => decide (keyOf w j < k))

/-- FUSE (R121). -/
def execFuse (g : Grp) (o : OpsT) (s : State) : Host.Outcome State Fault Refusal :=
  issueAs s (.fuse g o) (fun s i =>
    .ok { s := s, w := i.w, park := if belowSplit i.w i.split then some .fuse else none })

/-- The yield mark set (R244). -/
def yieldSem (s : State) (i : Iss) : Res := .ok { s := s, w := { i.w with yielded := true } }

/-- YIELD (R244). -/
def execYield (g : Grp) (o : OpsT) (s : State) : Host.Outcome State Fault Refusal := issueAs s (.yield g o) yieldSem

/-- YIELD in 16 bits (R77, R244). -/
def execYieldC (s : State) : Host.Outcome State Fault Refusal := issueAs s .yieldC yieldSem

/-- NOP (R129). -/
def execNop (g : Grp) (o : OpsT) (s : State) : Host.Outcome State Fault Refusal := issueAs s (.nop g o) (fun s i => .ok { s := s, w := i.w })

/-- NOP in 16 bits (R129). -/
def execNopC (s : State) : Host.Outcome State Fault Refusal := issueAs s .nopC (fun s i => .ok { s := s, w := i.w })

/-- Whether every flag of a mask reads zero (R137, R237). -/
def flagsZero (w : Warp) (m : BitVec 12) : Bool :=
  (List.range 12).all (fun n => !(m.getLsbD n) || getAt 0 w.f n == 0)

/-- WAIT (R236, R237). -/
def execWait (fl : BitVec 12) (s : State) : Host.Outcome State Fault Refusal :=
  issueAs s (.wait fl) (fun s i =>
    if flagsZero i.w fl then .ok { s := s, w := i.w, closes := true } else .held s (retryHold i.w))

/-! ## TRAP, BRK, TRET (R322, R323) -/

/-- TRAP (R322). -/
def execTrap (g : Grp) (o : OpsT) (s : State) : Host.Outcome State Fault Refusal :=
  issueAs s (.trap g o) (fun _ i =>
    match i.c.body with
    | .T o => .cause .trap none 0 o.imm
    | _ => .held s i.w)

/-- BRK (R322). -/
def execBrk (g : Grp) (o : OpsT) (s : State) : Host.Outcome State Fault Refusal :=
  issueAs s (.brk g o) (fun _ i =>
    match i.c.body with
    | .T o => .cause .brk none 0 o.imm
    | _ => .held s i.w)

/-- What mapping a warp's registers again comes to. -/
inductive Mapped where
  | ok (s : State) (w : Warp)
  /-- the pool cannot grant them now -/
  | noRoom
  /-- a spill met a fault, context-level for the warp that it was of (R148) -/
  | failed (k : Cause) (s : State) (v : Warp)

/-- Maps the registers that a frame restores, one after another, as the pool grants them (R144, R145, R323). -/
def mapBack (s : State) (w : Warp) (full : Regs) : List Nat → Mapped
  | [] => .ok s w
  | n :: ns =>
    match poolGrant s w false with
    | .ok s w => mapBack s { w with regs := { w.regs with v := setAt {} w.regs.v n (vEntry full n), order := w.regs.order ++ [n] } } full ns
    | .held _ _ => .noRoom
    | .failed k s v => .failed k s v

/-- A warp whose registers the pool cannot grant: they stand in its backing area, and it waits for its refill (R145, R147,
R304). -/
def asSpilled (s : State) (w : Warp) : Mapped :=
  match spillRegs s w w.regs.order true with
  | .error (k, s) => .failed k s w
  | .ok (s, w) => .ok s { w with desched := true, holds := .refill :: w.holds }

/-- The registers of a reloaded warp mapped, or spilled for want of room: for its floor, which must be free to be set aside (R144),
or for one of them. (assumption 32, DEDUCED) -/
def remap (s : State) (w : Warp) : Mapped :=
  let bare := { w with regs := { w.regs with v := noRegs, order := [] } }
  if freeRegs s { bare with desched := true } < w.floor then asSpilled s w
  else
    match mapBack s bare w.regs w.regs.order with
    | .noRoom => asSpilled s w
    | r => r

/-- A context-level fault of a spill or refill (R148). -/
def poolFault (s : State) (v : Warp) (k : Cause) : State := ctxFault s v.ctx k (some v.core) (some v.num) (.ofNat 64 (backAddr s v))

/-- TRET (R323). -/
def execTret (g : Grp) (o : OpsT) (s : State) : Host.Outcome State Fault Refusal :=
  issueAs s (.tret g o) (fun s i =>
    let w := i.w
    if w.inHandler = false then .cause .illegal none 0 0
    else if i.split ≠ live w then .done (ctxFault (setWarp s w) w.ctx .doubleTrap (some w.core) (some w.num) 0)
    else if !(quiet w) || !(w.stores.isEmpty) || !(w.relq.isEmpty) then .held s (retryHold w)
    else
      match readFrame s w with
      | .error k => .done (ctxFault (setWarp s w) w.ctx k (some w.core) (some w.num) (.ofNat 64 (frameAddr s w)))
      | .ok bs =>
        if frameBad w bs then .done (ctxFault (setWarp s w) w.ctx .doubleTrap (some w.core) (some w.num) 0)
        else
          let s := setWarp s { w with regs := { w.regs with v := noRegs, order := [] } }
          match remap s (loadFrame w bs) with
          | .failed k s v => .done (poolFault (setWarp s w) v k)
          | .noRoom => .held s w
          | .ok s w =>
            let w := { w with notBefore := w.now + 3, starve := 0 }
            .done { noteIssue (setWarp s w) w with issue := none })

/-! ## Groups that are no instruction (R99, R100) -/

/-- The group of a bad encoding as a frame reports it: the units that its length and words tell. -/
def badShape (e : BadGroup) : Shape :=
  let hasPfx := e.pfxw != 0
  let p : Pfx := ⟨e.pfxw.extractLsb' 7 4, false, 0, 0, false, false, 0⟩
  let hasRpt := decide (10 ≤ e.len) || (decide (e.len = 8 ∨ e.len = 6) && !hasPfx)
  let g : Grp := ⟨e.insn.getLsbD 31 && decide (4 ≤ e.len), e.insn.extractLsb' 29 2, if hasPfx then some p else none,
    if hasRpt then some ⟨63, 0, 0, 0, 0⟩ else none⟩
  ⟨⟨0x2E, 11, g, .T ⟨0, false, 0⟩⟩, e.len, if e.len = 2 then 4 else distCc g.dist, e.insn, e.pfxw⟩

/-- A group that the decoder refuses: ILLEGAL, precisely, when it issues (R99, R100). -/
def execIllegalEncoding (e : BadGroup) (s : State) : Host.Outcome State Fault Refusal :=
  match s.issue with
  | none => .fault .noIssuer
  | some p =>
    match warpFind s p.ctx p.warp with
    | none => .fault .noIssuer
    | some w => .next (runIssue s p w (badShape e) false (fun s i => .held s i.w))

/-! ## What stops warps (R36, R325, R336, R346) -/

/-- Whether a run of a graph is being aborted (R336, R346): it would have formed a launch too many, or its queue is forced down. -/
def stopsInst (s : State) (x : Inst) : Bool :=
  x.aborted || s.queues.any (fun q => q.num == x.queue && q.ctx == x.ctx && q.kind == 0 && q.st == 3)

/-- Whether a launch is, so that its warps stop and are discarded. -/
def stopsLaunch (s : State) (id : Nat) : Bool := s.launches.any (fun l => l.id == id && s.insts.any (fun x => x.id == l.inst && stopsInst s x))

/-- Whether a pre-emption saves a warp: one of its context, or that of its core for a spare (R36, R325). -/
def saves (s : State) (w : Warp) : Bool := (ctxOf s w.ctx).preempt.isSome || s.sparing.contains w.core

end Sys2Proof.Machine
end

