-- ==== Sys2Proof/Machine/Fetch.lean ====
section
/-! DEFINITION. Choosing and fetching: splits, a warp's primary, the group at a PC, unfinished chains and stop sites
(03_encoding.md R72, R75; 04_thread.md R112 to R116; 05_register.md R153, R154; 14_page.md R287; 15_context.md R325). -/

namespace Sys2Proof.Machine

/-! ## Splits (R114 to R116) -/

/-- The lanes of a warp's parked splits. -/
def parkedLanes (w : Warp) : LaneMask := w.parked.foldl (fun m p => m ||| parkSplit w p) 0

/-- The lanes of a warp that are LIVE and in no parked split. -/
def readyLanes (w : Warp) : LaneMask := live w &&& ~~~ parkedLanes w

/-- The lane of a list with the lowest key, the first among equals. -/
def lowestLane (w : Warp) : List Nat → Option Nat
  | [] => none
  | l :: ls =>
    match lowestLane w ls with
    | none => some l
    | some k => if keyOf w k < keyOf w l then some k else some l

/-- The ready split of a lane (R114). -/
def splitOf (w : Warp) (l : Nat) : LaneMask := readyLanes w &&& mkMask (fun k => keyOf w k == keyOf w l)

/-- The primary split: the ready one with the lowest key (R116). -/
def primary (w : Warp) : Option LaneMask := (lowestLane w (lanesOf (readyLanes w))).map (splitOf w)

/-- The ready split with the next key above a split (R117). -/
def nextSplit (w : Warp) (split : LaneMask) : Option LaneMask :=
  let k := keyOf w (((lanesOf split).head?).getD 0)
  (lowestLane w ((lanesOf (readyLanes w)).filter (fun l => decide (k < keyOf w l)))).map (splitOf w)

/-! ## Fetching a group (R72, R112, R287) -/

/-- What a fetch finds. -/
inductive Fetched where
  | group (r : Except BadGroup Instr)
  /-- a page whose translation the core has not -/
  | miss (page : Nat)
  /-- a page that is not present: level and address -/
  | absent (level va : Nat)
  | cause (k : Cause)

/-- A byte of code under a leaf (R287, R292): at its home slice, or as the die's L2 serves a REPLICATED page. -/
def codeByte (s : State) (w : Warp) (e : BitVec 64) (va : Nat) : Byte :=
  let pa := leafPa e va
  if leafRepl e && replicaServes s w.ctx (leafBase e va) (dieOf w.core) (pa / 64) then wordByte (replicaWord s (dieOf w.core) (pa / 4)) (pa % 4)
  else cohByte s pa

/-- One parcel of the stream (R72), or why it cannot be read: its page is asked for as an access's is (R289). -/
def fetchParcel (s : State) (w : Warp) (va : Nat) : Except Fetched (List Byte) :=
  if 2 ^ 57 ≤ va then .error (.cause .translation)
  else
    match xlateOf s w va with
    | none => .error (.miss (pageOf va))
    | some .unresolvable => .error (.cause .translation)
    | some .refused => .error (.cause .protection)
    | some (.notPresent l) => .error (.absent l va)
    | some (.leaf e) =>
      if leafKind e = 2 ∧ accepted s 1 = false then .error (.cause .translation)
      else if leafX e = false ∨ leafKind e ≠ 0 ∨ isMemory (leafPa e va) = false then .error (.cause .protection)
      else .ok [codeByte s w e va, codeByte s w e (va + 1)]

/-- The header words that a unit may still stand behind: at the start of a group, after a REPEAT, after a PREFIX (R93). -/
inductive Behind where
  | start | rpt | pfx
  deriving DecidableEq, Repr

/-- Where the next unit of a group stands after a word, if there is one: a base word, or a header that its place does not allow,
ends the group (R93, R100). -/
def unitAfter (b : Behind) (major : Nat) : Option Behind :=
  match b with
  | .start => if major = 0x3F then some .rpt else if major = 0x3E then some .pfx else none
  | .rpt => if major = 0x3E then some .pfx else none
  | .pfx => none

/-- The bytes of the group at an address: units are taken until a base instruction, or up to the first unit that is not allowed at
its place (R72, R93, R100). -/
def fetchBytes (s : State) (w : Warp) : Nat → Behind → Nat → Except Fetched (List Byte)
  | 0, _, _ => .ok []
  | n + 1, b, va =>
    match fetchParcel s w va with
    | .error e => .error e
    | .ok p =>
      if (getAt 0 p 0).toNat % 2 = 0 then .ok p
      else
        match fetchParcel s w (va + 2) with
        | .error e => .error e
        | .ok q =>
          match unitAfter b ((getAt 0 p 0).toNat / 2 % 64) with
          | none => .ok (p ++ q)
          | some b =>
            match fetchBytes s w n b (va + 4) with
            | .error e => .error e
            | .ok r => .ok (p ++ q ++ r)

/-- The group at a code offset (R112). -/
def fetchAt (s : State) (w : Warp) (pc : BitVec 32) : Fetched :=
  match fetchBytes s w 3 .start (((ctxOf s w.ctx).codebase.toNat / 16 * 16 + pc.toNat) % 2 ^ 64) with
  | .error e => e
  | .ok bs => .group (decode bs)

/-- The code offset of a split. -/
def pcOf (w : Warp) (split : LaneMask) : BitVec 32 := getAt 0 w.pc ((lanesOf split).head?.getD 0)

/-- The group that a split issues next. -/
def groupNext (s : State) (w : Warp) (split : LaneMask) : Fetched := fetchAt s w (pcOf w split)

/-- The shape of a fetched group. -/
def shapeNext : Fetched → Option Shape
  | .group (.ok i) => shapeOf i
  | .group (.error e) => some (badShape e)
  | _ => none

/-! ## Unfinished chains (R153, R154) -/

/-- The split that must issue next to go on with a warp's unfinished chain (R154 rule 4): the chain's, until its next group is decoded
and reads no latch. -/
def chainNext (s : State) (w : Warp) : Option LaneMask :=
  match w.chain with
  | none => none
  | some ch =>
    if ch.closed then none
    else
      match (lanesOf (ch.split &&& readyLanes w)).head? with
      | none => none
      | some l =>
        let split := splitOf w l
        match groupNext s w split with
        | .group (.ok i) =>
          (match codeOf i with
           | some c => if (latchReads c).isEmpty then none else some split
           | none => none)
        | .group (.error _) => none
        | _ => some split

/-! ## Where a warp stops (R75, R325) -/

/-- Whether a warp waits where it stands: held, descheduled, or with every split parked (R325). -/
def standing (w : Warp) : Bool := !w.holds.isEmpty || w.desched || readyLanes w == 0

/-- Whether a warp's next group carries a stop bit (R75). -/
def atStopSite (s : State) (w : Warp) : Bool :=
  match primary w with
  | none => false
  | some p =>
    match shapeNext (groupNext s w p) with
    | some sh => sh.code.grp.stop
    | none => false

/-- Whether a pre-emption in progress, of its context or of its core (R36), or the end of its launch (R336, R346), keeps a warp from
issuing (R325, R326). In FAULTED a warp stops where it stands (R306). -/
def mustStop (s : State) (w : Warp) : Bool :=
  (saves s w || stopsLaunch s w.launch) && !w.inHandler && w.trapping.isNone && (chainNext s w).isNone &&
  ((ctxOf s w.ctx).st == .faulted || w.noPrev || w.forced || w.halted.isSome || standing w || atStopSite s w)

/-! ## Refill (R147) -/

/-- Reads a descheduled warp's registers back. -/
def refillList (s : State) (w : Warp) : List Nat → Except Cause Warp
  | [] => .ok w
  | n :: ns =>
    if (vEntry w.regs n).st = .spilled then
      match refillOne s w n with
      | .error k => .error k
      | .ok w => refillList s w ns
    else refillList s w ns

/-- Whether the group at which a descheduled warp is held makes a first write (R147). (assumption 121, DEDUCED) -/
def firstWrite (s : State) (w : Warp) : Bool :=
  match primary w with
  | none => false
  | some p =>
    match shapeNext (groupNext s w p) with
    | some sh => (destOf (stepCode sh.code (getAt 0 w.rep (headLane p)).toNat)).any (fun d => (vEntry w.regs d).st == .unmapped)
    | none => false

/-- REGISTER_REFILL (R147, R233): a warp that has been refilled has no previous issue, and reads what has been written. -/
def dueRegisterRefill (c n : Nat) (s : State) : Option State :=
  match warpFind s c n with
  | none => none
  | some w =>
    let waiting := (residents s w.core).any (fun x => x.desched && older x w && !(x.ctx == w.ctx && x.num == w.num))
    let need := max (spilledCount w.regs + bit (firstWrite s w)) w.floor
    if !w.desched || waiting || !(onCore w.core w) || decide (freeRegs s w < need) then none
    else
      match refillList s w (List.range 56) with
      | .error k => some (poolFault s w k)
      | .ok w =>
        match writeMap s w false with
        | .error (k, s) => some (poolFault s w k)
        | .ok s =>
          some (setWarp s { w with desched := false, noPrev := true, earlyV := [], earlyS := [], earlyM := [],
                                    holds := w.holds.filter (fun h => !(h == .refill)) })

/-- REGISTER_REFILL, which takes place where it is due. -/
def execRegisterRefill (c n : Nat) (s : State) : Host.Outcome State Fault Refusal := takes s (dueRegisterRefill c n s)

end Sys2Proof.Machine
end

