-- ==== Sys2Proof/Machine/Sync.lean ====
section
/-! DEFINITION. The sync and Carousel instructions and copy batches: SYNCI, SYNCA, SYNCW, SYNCT, RINGI, RAWAIT, RREL, CSEAL
and CWAITB (21_barrier.md R403 to R420). -/

namespace Sys2Proof.Machine

/-! ## What they share (R403, R416) -/

/-- The offset that a sync instruction names. -/
def syncOff (i : Iss) (sa : BitVec 6) : Nat := (i.s sa.toNat).toNat % 2 ^ 32

/-- The tests of R403 (align 8, length 8) and R416 (16, 16). -/
def syncCause (s : State) (w : Warp) (off n : Nat) : Option Res :=
  if off % n ≠ 0 then some (.cause .misaligned none (.ofNat 64 off) 0)
  else if scrLenOf s w < off + n then some (.cause .protection none (.ofNat 64 off) 0)
  else none

/-- A sync instruction at an offset: its tests, the wait for fences in force, then what it does on a scratchpad that has
performed the warp's earlier writes (R191). -/
def syncAs (n : Nat) (f : State → Iss → OpsS → Block → Warp → Nat → Res) (s : State) (i : Iss) : Res :=
  match i.c.body with
  | .S o =>
    let off := syncOff i o.sa
    match syncCause s i.w off n with
    | some r => r
    | none =>
      if memHeld i.w [] 0 then .held s (retryHold i.w)
      else
        match scrReady s i.w with
        | (s, none) => .held s i.w
        | (s, some b) =>
          let w := refetch s i.w
          if running w then f s i o b w off else .done s
  | _ => .held s i.w

/-! ## SYNCI, SYNCA, SYNCT, SYNCW (R404 to R409) -/

/-- SYNCI (R404). -/
def execSynci (g : Grp) (o : OpsS) (s : State) : Host.Outcome State Fault Refusal :=
  issueAs s (.synci g o) (syncAs 8 (fun s i o _ w off =>
    .ok { s := scrSend s w (.synci w.num off ((i.s o.sb.toNat).toNat % 2 ^ 20)), w := w }))

/-- SYNCA (R405): the arrival follows the release action of its scope, if it names one. -/
def execSynca (g : Grp) (o : OpsS) (s : State) : Host.Outcome State Fault Refusal :=
  issueAs s (.synca g o) (syncAs 8 (fun s i o _ w off =>
    let amount := (i.s o.sb.toNat).toNat % 2 ^ 20
    let scope := o.sd.toNat % 16
    if o.sd.getLsbD 4 && !releaseReady s w scope then
      .ok { s := s, w := { w with relq := w.relq ++ [relActOf s w scope none (.arrive off amount)] } }
    else
      let (id, s) := takeFresh s
      .ok { s := s, w := { w with arrivals := w.arrivals ++ [⟨id, off, amount⟩] } }))

/-- SYNCA_ARRIVAL (R400, R405). -/
def dueSyncaArrival (c n op : Nat) (s : State) : Option State :=
  match warpFind s c n with
  | none => none
  | some w =>
    match w.arrivals.find? (fun a => a.id == op), w.blk with
    | some a, some b =>
      some (arriveAt (setWarp s { w with arrivals := w.arrivals.filter (fun x => !(x == a)) }) c b a.off a.amount)
    | _, _ => none

/-- SYNCA_ARRIVAL, which takes place where it is due. -/
def execSyncaArrival (c n op : Nat) (s : State) : Host.Outcome State Fault Refusal := takes s (dueSyncaArrival c n op s)

/-- SYNCT (R406). -/
def execSynct (g : Grp) (o : OpsS) (s : State) : Host.Outcome State Fault Refusal :=
  issueAs s (.synct g o) (syncAs 8 (fun s _ o b w off =>
    .ok { s := s, w := w, sc := [(o.sd.toNat, .ofNat 64 (scrDword b off))], lat := 0 }))

/-- SYNCW (R407 to R409). -/
def execSyncw (g : Grp) (o : OpsS) (s : State) : Host.Outcome State Fault Refusal :=
  issueAs s (.syncw g o) (syncAs 8 (fun s i o b w off =>
    let phase := (i.s o.sb.toNat).toNat % 2
    let scope := o.sd.toNat % 16
    match testSyncw b off phase scope with
    | .fault k a => .cause k none a 0
    | .pass _ scope _ => .ok { s := s, w := addAcquire (acquires w) scope [] none }
    | .stay => .ok { s := s, w := w, park := some (.syncw off phase scope) }))

/-! ## RINGI, RAWAIT, RREL (R416 to R419) -/

/-- RINGI (R417). (assumption 106, DEDUCED) -/
def execRingi (g : Grp) (o : OpsS) (s : State) : Host.Outcome State Fault Refusal :=
  issueAs s (.ringi g o) (syncAs 16 (fun s i o _ w off =>
    let c := i.s o.sb.toNat
    let data := field c 63 32
    let slotb := field c 31 16
    let n := field c 3 0 + 1
    if data % 64 ≠ 0 then .cause .misaligned none (.ofNat 64 data) 0
    else if slotb = 0 then .cause .protection none (.ofNat 64 off) 0
    else if scrLenOf s w < off + 16 + 8 * n then .cause .protection none (.ofNat 64 off) 0
    else if scrLenOf s w < data + n * slotb * 64 then .cause .protection none (.ofNat 64 data) 0
    else .ok { s := scrSend s w (.ringi w.num off c), w := w }))

/-- RAWAIT (R418). -/
def execRawait (g : Grp) (o : OpsS) (s : State) : Host.Outcome State Fault Refusal :=
  issueAs s (.rawait g o) (syncAs 16 (fun s _ o b w off =>
    match testRawait b off o.sd.toNat with
    | .fault k a => .cause k none a 0
    | .stay => .ok { s := s, w := w, park := some (.rawait off o.sd.toNat) }
    | .pass b scope sd => .ok { s := setBlock s b, w := addAcquire (acquires w) scope [] none, sc := sd.toList, lat := 0 }))

/-- RREL (R419). -/
def execRrel (g : Grp) (o : OpsS) (s : State) : Host.Outcome State Fault Refusal :=
  issueAs s (.rrel g o) (syncAs 16 (fun s _ _ b w off =>
    if w.pend.any (fun p => match p.kind with | .scratch _ => true | _ => false) then .held s (retryHold w)
    else if ringRd b off = ringTake b off then .cause .barrierOverrun none 0 0
    else .ok { s := setBlock s (ringPut b off (ringRd b off + 1) (ringTake b off) (ringWr b off) (ringClaim b off)), w := w }))

/-! ## Batches (R410 to R413) -/

/-- CSEAL (R411). -/
def execCseal (g : Grp) (o : OpsS) (s : State) : Host.Outcome State Fault Refusal :=
  issueAs s (.cseal g o) (fun s i =>
    match i.c.body with
    | .S o =>
      let n := i.w.openb + 1
      .ok { s := s, w := { i.w with openb := if n = 0 then 1 else n }, sc := [(o.sd.toNat, i.w.openb.setWidth 64)], lat := 0 }
    | _ => .held s i.w)

/-- Whether a batch is at or below another (R410). -/
def atOrBelow (b n : BitVec 32) : Bool := decide ((n - b).toNat < 2 ^ 31)

/-- The lowest batch covered whose fault is not delivered (R413). -/
def lowestFault (n : BitVec 32) : List Batch → Option Batch
  | [] => none
  | b :: r =>
    let rest := lowestFault n r
    if atOrBelow b.num n && b.fault.isSome && !b.delivered then
      match rest with
      | some x => if (n - x.num).toNat < (n - b.num).toNat then some b else some x
      | none => some b
    else rest

/-- What CWAITB's test finds (R412, R413). -/
inductive BatchTest where
  | stay
  | pass
  | fault (b : Batch)
  deriving DecidableEq, Repr

def testCwaitb (w : Warp) (n : BitVec 32) : BatchTest :=
  if w.batches.any (fun b => atOrBelow b.num n && decide (0 < b.live)) then .stay
  else match lowestFault n w.batches with
    | some b => .fault b
    | none => .pass

/-- COPY_FAULT at a CWAITB whose lanes stand past it (R413, R526). -/
def batchFault (s : State) (w : Warp) (b : Batch) : State :=
  let w := { w with batches := w.batches.map (fun x => if x.num = b.num then { x with delivered := true } else x), chain := none }
  raiseAt (setWarp s w) w { cause := .copyFault, deferred := true, faddr := b.fault.getD 0 } 0

/-- CWAITB (R412, R413). -/
def execCwaitb (g : Grp) (o : OpsS) (s : State) : Host.Outcome State Fault Refusal :=
  issueAs s (.cwaitb g o) (fun s i =>
    match i.c.body with
    | .S o =>
      let n : BitVec 32 := (i.s o.sa.toNat).setWidth 32
      match testCwaitb i.w n with
      | .pass => .ok { s := s, w := i.w }
      | .stay => .ok { s := s, w := i.w, park := some (.cwaitb n) }
      | .fault b =>
        let w := { i.w with
          pc := laneIdx.map (fun l => if laneBit i.split l then getAt 0 i.w.pc l + 4 else getAt 0 i.w.pc l)
          regs := if o.la && i.split == live i.w then putS i.w.regs o.sa.toNat 0 else i.w.regs }
        .done { batchFault (noteIssue s w) w b with issue := none }
    | _ => .held s i.w)

end Sys2Proof.Machine
end

