-- ==== Sys2Proof/Machine/Tensor.lean ====
section
/-! DEFINITION. Tensor identifiers: the identifier store, entry images, addresses and boxes, TIDSET and CBLOAD
(23_tensor.md R439 to R449). -/

namespace Sys2Proof.Machine

/-! ## Entries (R440 to R445) -/

/-- A field of n bytes of an image. -/
def img (im : List Byte) (off n : Nat) : Nat := leNat ((im.drop off).take n)

def tBase (im : List Byte) : Nat := img im 0 8
def tCtl (im : List Byte) : Nat := img im 8 4
def tValid (im : List Byte) : Bool := decide (tCtl im / 2 ^ 31 % 2 = 1)
def tKdim (im : List Byte) : Nat := tCtl im / 128 % 2
def tScl (im : List Byte) : Bool := decide (tCtl im / 64 % 2 = 1)
def tRank (im : List Byte) : Nat := tCtl im / 16 % 4 + 1
def tFmt (im : List Byte) : Nat := tCtl im % 16
def tDim (im : List Byte) (i : Nat) : Nat := img im (16 + 4 * i) 4

/-- STRIDE1 to STRIDE3; dimension 0 has none. -/
def tStride (im : List Byte) (i : Nat) : Nat := if i = 0 then 0 else img im (32 + 8 * (i - 1)) 8
def tBox (im : List Byte) (i : Nat) : Nat := img im (56 + 2 * i) 2
def tScaleBase (im : List Byte) : Nat := img im 64 8
def tSrow (im : List Byte) : Nat := img im 72 4
def tSplane (im : List Byte) : Nat := img im 76 4

/-- Codebook entry c (R440). -/
def tCode (im : List Byte) (c : Nat) : Nat := img im (96 + 2 * c) 2

/-- The element size in bits (R442). -/
def elemBits (fmt : Nat) : Nat :=
  if fmt = 0 then 32 else if fmt = 1 ∨ fmt = 2 ∨ fmt = 7 ∨ fmt = 8 then 16 else if fmt = 9 then 4 else 8

/-- Whether an image is invalid (R443). -/
def imageBad (s : State) (im : List Byte) : Bool :=
  let fmt := tFmt im
  decide (10 ≤ fmt) || (fmt == 9 && !(accepted s 8)) ||
  tCtl im / 2 ^ 8 % 2 ^ 23 != 0 || img im 12 4 != 0 || img im 80 16 != 0 ||
  decide (2 ^ 57 ≤ tBase im) || decide (2 ^ 57 ≤ tScaleBase im) ||
  [0, 1, 2, 3].any (fun i => tDim im i == 0 || tBox im i == 0 || tStride im i % 16 != 0 ||
    (decide (tRank im ≤ i) && (tDim im i != 1 || tBox im i != 1 || tStride im i != 0))) ||
  tBase im % 16 != 0 || tBox im 0 * elemBits fmt % 128 != 0 ||
  (tScl im && (!(fmt == 3 || fmt == 4 || fmt == 9) || tRank im == 4))

/-- The bytes of a box (R424, R445). -/
def boxBytes (im : List Byte) : Nat := tBox im 0 * tBox im 1 * tBox im 2 * tBox im 3 * elemBits (tFmt im) / 8

/-- Whether coordinates are inside the tensor (R444). -/
def insideT (im : List Byte) (c : List Int) : Bool :=
  [0, 1, 2, 3].all (fun i => decide (0 ≤ getAt 0 c i) && decide (getAt 0 c i < (tDim im i : Int)))

/-- The address of an element, modulo 2^64 (R444). -/
def elemAddr (im : List Byte) (c : List Int) : Nat :=
  ((tBase im : Int) + getAt 0 c 0 * elemBits (tFmt im) / 8 + getAt 0 c 1 * tStride im 1 + getAt 0 c 2 * tStride im 2 +
    getAt 0 c 3 * tStride im 3) % 2 ^ 64 |>.toNat

/-! ## The store (R439, R448, R449) -/

/-- Bytes laid over a list from an offset on. -/
def layBytes (im : List Byte) (off : Nat) (bs : List Byte) : List Byte :=
  im.take off ++ bs ++ im.drop (off + bs.length)

/-- An entry as the store holds it; one never written is zero. -/
def tidStored (s : State) (c id : Nat) : List Byte := (getKey id (ctxOf s c).tids).getD (List.replicate 128 0)

/-- An entry as a core of a die reads it: a write on its way counts once it has reached the die. -/
def tidRead (s : State) (die c id : Nat) : List Byte :=
  s.casts.foldl (fun im k =>
    match k.kind with
    | .tid c' _ id' off bs => if c' = c ∧ id' = id ∧ k.done.contains die = true then layBytes im off bs else im
    | _ => im) (tidStored s c id)

/-- Writes bytes of an entry into the store. -/
def tidWrite (s : State) (c id off : Nat) (bs : List Byte) : State :=
  setCtx s c { ctxOf s c with tids := putKey id (layBytes (tidStored s c id) off bs) (ctxOf s c).tids }

/-- Whether a write to a context's store is on its way. -/
def tidBusy (s : State) (c : Nat) : Bool :=
  s.casts.any (fun k => match k.kind with | .tid c' _ _ _ _ => c' == c | _ => false)

/-- Begins a write of an entry and holds the warp until it has reached the eight dies (R448). -/
def tidSend (s : State) (i : Iss) (id off : Nat) (bs : List Byte) : Res :=
  if tidBusy s i.w.ctx then .held s (retryHold i.w)
  else .ok { s := startCast s (.tid i.w.ctx i.w.num id off bs), w := { i.w with holds := .tid s.fresh :: i.w.holds }, lat := 0 }

/-- Scalars as bytes, s[a] first (R447). -/
def scalarBytes (i : Iss) (a n : Nat) : List Byte := (List.range n).flatMap (fun k => natLe 8 (i.s (a + k)).toNat)

/-- TIDSET (R446, R447). -/
def execTidset (g : Grp) (o : OpsS) (s : State) : Host.Outcome State Fault Refusal :=
  issueAs s (.tidset g o) (fun s i =>
    match i.c.body with
    | .S o =>
      let im := scalarBytes i o.sa.toNat 12
      if imageBad s im then .cause .tensorId none 0 0
      else tidSend s i ((i.s o.sd.toNat).toNat % 256) 0 (layBytes im 11 [BitVec.ofNat 8 (img im 11 1 % 128 + 128)])
    | _ => .held s i.w)

/-- CBLOAD (R446, R447). -/
def execCbload (g : Grp) (o : OpsS) (s : State) : Host.Outcome State Fault Refusal :=
  issueAs s (.cbload g o) (fun s i =>
    match i.c.body with
    | .S o => tidSend s i ((i.s o.sd.toNat).toNat % 256) 96 (scalarBytes i o.sa.toNat 4)
    | _ => .held s i.w)

end Sys2Proof.Machine
end

