-- ==== Sys2Proof/Machine/Engine.lean ====
section
/-! DEFINITION. What the copy and matrix engines share: accesses to context memory and to windows with their page waits and
deferred faults, batches, and the record rings (22_copy.md R428, R435; 21_barrier.md R410, R413; 26_link.md R497;
27_debug.md R519). -/

namespace Sys2Proof.Machine

/-! ## Accesses of an engine (R428, R435, R497) -/

/-- What an engine's access to a byte meets: a physical address with the leaf of a page that a write must wait for (R292), a window, an absent
page, or a deferred fault. -/
inductive EngX where
  | mem (pa : Nat) (stall : Option (BitVec 64))
  | win (e : BitVec 64)
  | absent (level : Nat)
  | bad
  deriving DecidableEq, Repr

/-- Translates one byte of an engine's access; `bads` are granules answered UNRESOLVABLE (R298). -/
def engXlate (s : State) (c : Nat) (bads : List (Nat × Nat)) (va : Nat) (write : Bool) : EngX :=
  if 2 ^ 57 ≤ va ∨ bads.any (fun b => va / 2 ^ b.2 == b.1 / 2 ^ b.2) = true then .bad
  else
    match walk s c va with
    | (.leaf e, _, _) =>
      if (if write then leafW e else leafR e) = false then .bad
      else if leafKind e = 0 then
        (if isMemory (leafPa e va) then .mem (leafPa e va) (if write && mustCollapse s c va e then some e else none) else .bad)
      else if (windowConn s c e).isNone || (leafKind e == 2 && !(accepted s 1)) then .bad
      else .win e
    | (.notPresent level, _, _) => .absent level
    | _ => .bad

/-- What an engine's accesses to some bytes come to: the bytes read, absent granules by their keys, window words to ask
for, and addresses that meet a deferred fault. -/
structure Scan where
  vals : List Byte := []
  absent : List (Nat × Nat × Nat) := []
  ask : List (Nat × BitVec 64) := []
  bad : List Nat := []
  /-- pages that must collapse before they are written (R292) -/
  stall : List (Nat × BitVec 64) := []
  deriving DecidableEq, Repr

/-- Adds an element to a list that does not have it. -/
def addNew {α : Type} [BEq α] (x : α) (xs : List α) : List α := if xs.contains x then xs else xs ++ [x]

/-- Reads bytes at addresses for an engine; `got` holds window words that have come, by address. -/
def scanRead (s : State) (c : Nat) (bads : List (Nat × Nat)) (got : List (Nat × Word)) (vas : List Nat) : Scan :=
  vas.foldl (fun r va =>
    match engXlate s c bads va false with
    | .mem pa _ => { r with vals := r.vals ++ [cohByte s pa] }
    | .absent lv => { r with vals := r.vals ++ [0], absent := addNew (faultKey lv va) r.absent }
    | .bad => { r with vals := r.vals ++ [0], bad := r.bad ++ [va] }
    | .win e =>
      match getKey (va / 4 * 4) got with
      | some v => { r with vals := r.vals ++ [wordByte v (va % 4)] }
      | none => { r with vals := r.vals ++ [0], ask := addNew (va / 4 * 4, e) r.ask }) {}

/-- What writes to addresses would meet. -/
def scanWrite (s : State) (c : Nat) (bads : List (Nat × Nat)) (vas : List Nat) : Scan :=
  vas.foldl (fun r va =>
    match engXlate s c bads va true with
    | .absent lv => { r with absent := addNew (faultKey lv va) r.absent }
    | .bad => { r with bad := r.bad ++ [va] }
    | .mem _ (some e) => { r with stall := addNew (leafBase e va, e) r.stall }
    | _ => r) {}

/-- The first of a line's words that a core of the consumer cluster reads frees the line (R262). -/
def consumed (s : State) (c core : Nat) (vas : List Nat) : State :=
  vas.foldl (fun s va =>
    match engXlate s c [] va false with
    | .mem pa _ => consumeLine s (some core) (pa / 4)
    | _ => s) s

/-- Posts the absent granules of a scan (R297). -/
def postAbsent (s : State) (c : Nat) (kind : BitVec 7) (who : Waiter) (xs : List (Nat × Nat × Nat)) : State :=
  xs.foldl (fun s y => postKey s c y kind who) s

/-- Asks for window words that are not asked for yet (R497); those whose connection is gone are returned with a free value,
the context having faulted. -/
def askWindow (s : State) (c core : Nat) (who : Waiter) (asked : List Nat) (xs : List (Nat × BitVec 64)) :
    State × List Nat × List (Nat × Word) :=
  xs.foldl (fun (acc : State × List Nat × List (Nat × Word)) x =>
    if acc.2.1.contains x.1 then acc
    else
      match windowSendAt acc.1 c x.2 { ty := 1, seq := 0, addr := windowAddr x.2 x.1, len := 4 } (.engine who x.1 false) with
      | some s => (s, acc.2.1 ++ [x.1], acc.2.2)
      | none =>
        (ctxFault { acc.1 with free := acc.1.free + 1 } c .protection (some core) none (.ofNat 64 x.1), acc.2.1,
         acc.2.2 ++ [(x.1, (Config.freeDWord acc.1.free).setWidth 32)])) (s, asked, [])

/-- Whether a window word that has been asked for has not come. -/
def awaitsWindow (asked : List Nat) (got : List (Nat × Word)) : Bool := asked.any (fun a => (getKey a got).isNone)

/-- Writes bytes at addresses for an engine (R428), none of them in a page that must collapse first: at the home slice, or as WRITE messages to a window, whose number is
returned. -/
def engWrite (s : State) (c core : Nat) (who : Waiter) (bs : List (Nat × Byte)) : State × Nat :=
  bs.foldl (fun (acc : State × Nat) p =>
    match engXlate acc.1 c [] p.1 true with
    | .mem pa _ => (cohPutByte acc.1 pa p.2, acc.2)
    | .win e =>
      (match windowSendAt acc.1 c e { ty := 2, seq := 0, addr := windowAddr e p.1, len := 1, payload := [p.2] } (.engine who p.1 true) with
       | some s => (s, acc.2 + 1)
       | none => (ctxFault acc.1 c .protection (some core) none (.ofNat 64 p.1), acc.2))
    | _ => acc) (s, 0)

/-! ## Batches (R410, R413) -/

/-- Adds copies to a warp's open batch. -/
def joinBatch (w : Warp) (n : Nat) : Warp :=
  if n = 0 then w
  else if w.batches.any (fun b => b.num == w.openb) then
    { w with batches := w.batches.map (fun b => if b.num = w.openb then { b with live := b.live + n } else b) }
  else { w with batches := w.batches ++ [{ num := w.openb, live := n }] }

/-- A copy of a batch is complete, or has taken a deferred fault; a batch with nothing left to say is forgotten. -/
def leaveBatch (s : State) (c n : Nat) (num : BitVec 32) (fault : Option DWord) : State :=
  match warpFind s c n with
  | none => s
  | some w =>
    let bs := w.batches.map (fun b => if b.num = num then
      { b with live := b.live - 1, fault := if b.fault.isSome then b.fault else fault } else b)
    setWarp s { w with batches := bs.filter (fun b => decide (0 < b.live) || b.fault.isSome) }

/-! ## Record rings (R519) -/

/-- Counts a dropped record, at base − 24. -/
def ringDrop (s : State) (c base : Nat) : State :=
  match devNat s c (base - 24) 8 with
  | .ok n =>
    (match devWrite s c (base - 24) (natLe 8 (n + 1)) with
     | .ok s => s
     | .error (_, s) => s)
  | .error _ => s

/-- Writes a record into a ring, then the new write index at base − 8; a full ring or a fault drops it (R519). -/
def ringRecord (s : State) (c : Nat) (r : Option Ring) (bytes : List Byte) : State × Option Ring :=
  match r with
  | none => (s, r)
  | some g =>
    let base := g.base.toNat
    match devNat s c (base - 16) 8 with
    | .error _ => (ringDrop s c base, r)
    | .ok rd =>
      if 2 ^ g.k ≤ (g.wr.toNat + 2 ^ 64 - rd) % 2 ^ 64 then (ringDrop s c base, r)
      else
        match devWrite s c (base + bytes.length * (g.wr.toNat % 2 ^ g.k)) bytes with
        | .error (_, s) => (ringDrop s c base, r)
        | .ok s =>
          match devWrite s c (base - 8) (natLe 8 (g.wr.toNat + 1)) with
          | .error (_, s) => (ringDrop s c base, r)
          | .ok s => (s, some { g with wr := g.wr + 1 })

/-- Writes a stamp record of a context (R468, R519). -/
def stampRecord (s : State) (c : Nat) (bytes : List Byte) : State :=
  let (s, r) := ringRecord s c (ctxOf s c).stampRing bytes
  setCtx s c { ctxOf s c with stampRing := r }

end Sys2Proof.Machine
end

