-- ==== Sys2Proof/Machine/Matrix.lean ====
section
/-! DEFINITION. The matrix engine: the command queue and its checks, the matrix instructions, the arithmetic of planes and
tiles, stamp records and pre-emption points (24_tile.md R453 to R472; 02_formats.md R47, R48, R63 to R66). -/

namespace Sys2Proof.Machine

/-! ## Arithmetic (R47, R48, R63 to R66) -/

/-- A value times the factor of a scale code (R48). -/
def scaleVal (code : Nat) (v : FVal) : FVal :=
  if code = 0xFF then .nan
  else
    match v with
    | .fin neg m e => if m = 0 then .fin neg m e else .fin neg m (e + (code : Int) - 127)
    | v => v

/-- The product of two values, NaN where it is ±∞ × ±0 (R66). -/
def prodVal (a b : FVal) : FVal := (mulVal a b).getD .nan

/-- The exact sum, NaN where it is +∞ + (−∞) (R66). -/
def sumVal (a b : FVal) : FVal := (addVal 0 a b).getD .nan

/-- One step of a sum rounded to FP32 in RNE: the partial sum, and whether a finite value has become infinite (R63 to
R65). -/
def sumStep (acc : FVal × Bool) (x : FVal) : FVal × Bool :=
  let r := round32 {} (sumVal acc.1 x)
  (fv r.1, acc.2 || (r.2 &&& fOF) != 0)

/-- The terms of an output element taken two by two (R64). -/
def pairTerms : List FVal → List FVal
  | a :: b :: r => sumVal a b :: pairTerms r
  | xs => xs

/-- The sum of R63 (K = 64) or R64 (K = 128) over the products. -/
def sumTerms (ps : List FVal) : FVal × Bool :=
  (if ps.length = 128 then pairTerms ps else ps).foldl sumStep (.fin false 0 0, false)

/-- An element of a tile. -/
def tileEl (t : Tile) (m n : Nat) : Word := (getKey (64 * m + n) t.el).getD 0

/-- Sets an element of a tile; zero elements are not listed. -/
def setEl (t : Tile) (m n : Nat) (v : Word) : Tile :=
  { t with el := if v = 0 then t.el.filter (fun x => !(x.1 == 64 * m + n)) else putKey (64 * m + n) v t.el }

/-- UPDATE of a floating-point tile (R65, R66). -/
def updateF (t : Tile) (m n : Nat) (s : FVal × Bool) : Tile :=
  match t.fmt with
  | .f16 =>
    let v := sumVal (fval f16 (tileEl t m n).toNat) s.1
    let (code, clamp) := match v with
      | .nan => (f16.nan, false)
      | .inf neg => (fsign f16 neg + f16.max, true)
      | .fin neg mm e =>
        if mm = 0 then (fsign f16 neg, false)
        else
          let r := roundTo f16 {} neg mm e
          if r.ovf then (fsign f16 neg + f16.max, true) else (r.code, false)
    { setEl t m n (.ofNat 32 code) with flags := if clamp then t.flags ||| 2 else t.flags }
  | _ =>
    let r := round32 {} (sumVal (fv (tileEl t m n)) s.1)
    { setEl t m n r.1 with flags := if s.2 || (r.2 &&& fOF) != 0 then t.flags ||| 1 else t.flags }

/-- UPDATE of an I32 tile (R65). -/
def updateI (t : Tile) (m n : Nat) (x : Int) : Tile :=
  let v := (tileEl t m n).toInt + x
  let c := if v < -(2 ^ 31) then -(2 ^ 31) else if 2 ^ 31 - 1 < v then 2 ^ 31 - 1 else v
  { setEl t m n (.ofInt 32 c) with flags := if c = v then t.flags else t.flags ||| 4 }

/-- The K of a plane's mode (R455). -/
def planeK (mode : Nat) : Nat := if mode = 1 ∨ mode = 5 then 64 else 128

/-- A weight of a plane as a value (R47, R48, R59); I8 weights are integers. -/
def weightVal (mode : Nat) (w : BitVec 16 × BitVec 8) : FVal :=
  let f := if mode = 2 then e4m3 else if mode = 3 then e5m2 else bf16
  if mode = 4 then
    let i := ((w.1.setWidth 8).toInt)
    .fin (decide (i < 0)) i.natAbs 0
  else scaleVal w.2.toNat (fval f w.1.toNat)

/-- The mode of R455 for an identifier's FMT. -/
def planeMode (fmt : Nat) : Option Nat :=
  if fmt = 1 then some 1 else if fmt = 3 then some 2 else if fmt = 4 then some 3
  else if fmt = 5 then some 4 else if fmt = 9 then some 5 else none

/-- The integer of a value that is one. -/
def intOf : FVal → Int
  | .fin neg m e => let n : Int := m * 2 ^ e.toNat; if neg then -n else n
  | _ => 0

/-- The activation elements of a row, widened and scaled (R462, R463). -/
def actRow (b : Block) (act afmt asc k : Nat) (hasAsc : Bool) (r : Nat) : List FVal :=
  (List.range k).map (fun j =>
    let off := act + 128 * r + (if afmt = 0 then 2 * j else j)
    let raw := leNat (scrBytes b off (if afmt = 0 then 2 else 1))
    if afmt = 3 then
      let i := (BitVec.ofNat 8 raw).toInt
      .fin (decide (i < 0)) i.natAbs 0
    else
      let v := fval (if afmt = 0 then bf16 else if afmt = 1 then e4m3 else e5m2) raw
      if hasAsc then scaleVal (leNat (scrBytes b (8 * asc + 4 * r + j / 32) 1)) v else v)

/-- Column n of a plane. -/
def planeCol (p : Plane) (n : Nat) : List FVal :=
  (List.range (planeK p.mode)).map (fun k => weightVal p.mode (getAt (0, 0) p.w (64 * k + n)))

/-- The rows of MXSTR applied to a tile in order (R463). (assumption 37, DEDUCED) -/
def streamRows (b : Block) (act afmt trow : Nat) (asc : Option Nat) (cols : List (List FVal)) (t : Tile) (rows : Nat) : Tile :=
  (List.range (rows + 1)).foldl (fun t r =>
    let a := actRow b act afmt (asc.getD 0) (planeK b.active.mode) asc.isSome r
    ((List.range 64).zip cols).foldl (fun t c =>
      let ps := (a.zip c.2).map (fun x => prodVal x.1 x.2)
      if b.active.mode = 4 then updateI t (trow + r) c.1 ((ps.map intOf).foldl (fun x y => x + y) 0)
      else updateF t (trow + r) c.1 (sumTerms ps)) t) t

/-! ## The queue (R456, R457) -/

/-- Tile formats a plane's mode takes (R455). -/
def tileOk (mode : Nat) (f : TileFmt) : Bool := if mode = 4 then f == .i32 else f != .i32

/-- Activation formats a plane's mode takes (R455). -/
def actOk (mode afmt : Nat) : Bool :=
  if mode = 1 then afmt == 0 else if mode = 2 ∨ mode = 3 then afmt == 1 || afmt == 2
  else if mode = 4 then afmt == 3 else if mode = 5 then decide (afmt ≤ 2) else false

/-- The tail state (R456): modes of the active and shadow plane and the tiles' formats once the queue has completed. -/
def tailState (b : Block) : Nat × Nat × List TileFmt :=
  b.queue.foldl (fun t q =>
    match q.op with
    | .mxls _ _ _ _ im => (t.1, (planeMode (tFmt im)).getD 0, t.2.2)
    | .mxswap => (t.2.1, t.1, t.2.2)
    | .mxzero n f => (t.1, t.2.1, setAt .fp32 t.2.2 n f)
    | _ => t) (b.active.mode, b.shadow.mode, b.tile.map (fun t => t.fmt))

/-- What a command's checks come to (R456 orders 3 to 7). -/
inductive MxEntry where
  | ok (op : MxOp) (sync : Option Nat)
  | bad (k : Cause) (addr : Nat)
  deriving DecidableEq, Repr

/-- A sync word offset from its field (R460, R462, R466). -/
def mxSync (n : Nat) : Option Nat := if n = 0xFFFF then none else some (8 * n)

/-- The first scratchpad range that exceeds a length, by its offset. -/
def rangeOver (len : Nat) (rs : List (Nat × Nat)) : Option Nat :=
  (rs.find? (fun r => decide (len < r.1 + r.2))).map (fun r => r.1)

/-- The range of a sync word. -/
def syncRange (y : Option Nat) : List (Nat × Nat) := match y with | some o => [(o, 8)] | none => []

/-- MXLS's checks (R460); `base` is the slot's offset for a follow-on of route 1. -/
def checkMxls (s : State) (b : Block) (d0 d1 : DWord) (base : Nat) : MxEntry :=
  let im := tidRead s (dieOf b.core) b.ctx (field d1 7 0)
  let woff := base + field d0 18 0
  let y := mxSync (field d1 23 8)
  match planeMode (tFmt im) with
  | none => .bad .tensorId 0
  | some mode =>
    if tValid im = false ∨ (tScl im = true ∧ tKdim im = 0) ∨ (tFmt im = 9 ∧ accepted s 8 = false) then .bad .tensorId 0
    else if woff % 16 ≠ 0 then .bad .misaligned woff
    else
      match rangeOver b.scrLen ((woff, planeK mode * 8 * elemBits (tFmt im)) :: syncRange y) with
      | some o => .bad .protection o
      | none => .ok (.mxls woff (field d0 31 19) (field d1 39 24) (field d1 63 40) im) y

/-- MXSTR's checks (R462). -/
def checkMxstr (b : Block) (d0 d1 : DWord) (base : Nat) : MxEntry :=
  let act := base + field d0 18 0
  let tile := field d0 22 19
  let rows := field d0 28 23
  let afmt := field d0 31 29
  let y := mxSync (field d1 15 0)
  let asc := field d1 47 32
  let trow := field d1 53 48
  let (mode, _, fmts) := tailState b
  if b.tiles ≤ tile ∨ actOk mode afmt = false ∨ tileOk mode (getAt .fp32 fmts tile) = false ∨
      (asc ≠ 0xFFFF ∧ (afmt = 0 ∨ afmt = 3)) ∨ 64 < trow + rows + 1 then .bad .tileState 0
  else if act % 16 ≠ 0 then .bad .misaligned act
  else
    match rangeOver b.scrLen ([(act, 128 * (rows + 1))] ++ (if asc = 0xFFFF then [] else [(8 * asc, 4 * (rows + 1))]) ++ syncRange y) with
    | some o => .bad .protection o
    | none => .ok (.mxstr act tile rows afmt trow (if asc = 0xFFFF then none else some asc)) y

/-- MXST's checks (R466). -/
def checkMxst (b : Block) (d0 d1 : DWord) (rnd : Nat) (sat : Bool) (key : BitVec 64) (ctr : Word) : MxEntry :=
  let tile := field d1 3 0
  let fmt := field d1 7 4
  let mem := d1.getLsbD 8
  let pitch := field d1 31 16
  let y := mxSync (field d1 47 32)
  let tf := getAt .fp32 (tailState b).2.2 tile
  let dest := if mem then d0.toNat else field d0 18 0
  let row := 64 * fmtBytes fmt
  if b.tiles ≤ tile ∨ 9 ≤ fmt ∨ (tf = .i32 ∧ 1 ≤ fmt ∧ fmt ≤ 4) ∨ (tf ≠ .i32 ∧ 5 ≤ fmt) ∨ pitch < row then .bad .tileState 0
  else if dest % 16 ≠ 0 then .bad .misaligned dest
  else if pitch % 16 ≠ 0 then .bad .misaligned pitch
  else
    match rangeOver b.scrLen ((if mem then [] else [(dest, 63 * pitch + row)]) ++ syncRange y) with
    | some o => .bad .protection o
    | none =>
      if mem ∧ 2 ^ 57 ≤ dest then .bad .translation dest
      else .ok (.mxst (.ofNat 64 dest) tile fmt mem pitch rnd sat key ctr) y

/-- Whether a held instruction or a follow-on may enter the queue: there is room, and nobody found it full before (R456). A
warp that is not running is passed over. -/
def mayEnter (s : State) (b : Block) (who : Bool × Nat) : Bool :=
  decide (b.queue.length < Config.matrixQueue) &&
  (match b.mxWait.find? (fun x => !x.1 || (match warpFind s b.ctx x.2 with | some w => running w | none => false)) with
   | some x => x == who
   | none => true)

/-- A command enters the queue: the tail of R456, T_WAIT of an open record (R468), the end of a mask (R470). -/
def enterCmd (s : State) (b : Block) (w : Nat) (op : MxOp) (y : Option Nat) : State :=
  let id := s.fresh
  let note (t : Tile) : Tile :=
    match t.stamp, op with
    | some r, .mxstr _ _ _ _ _ _ => if r.str.isNone && r.wait.isNone then { t with stamp := some { r with str := some id, wait := some s.tb } } else t
    | some r, .mxst _ _ _ _ _ _ _ _ _ => if r.st.isNone then { t with stamp := some { r with st := some id } } else t
    | _, _ => t
  let n := match op with
    | .mxstr _ n _ _ _ _ => some n
    | .mxst _ n _ _ _ _ _ _ _ => some n
    | _ => none
  let tile := match n with
    | some n => setAt {} b.tile n (note (getAt {} b.tile n))
    | none => b.tile
  setBlock { s with fresh := s.fresh + 1 }
    { b with queue := b.queue ++ [{ id := id, warp := w, op := op, sync := y }], tile := tile, ppIn := false }

/-- The tile of a tile-port command, and of MXSTR. -/
def cmdTile : MxOp → Option Nat
  | .mxstr _ n _ _ _ _ => some n
  | .mxzero n _ => some n
  | .mxrd n _ _ _ => some n
  | .mxwr n _ _ _ => some n
  | .mxst _ n _ _ _ _ _ _ _ => some n
  | .mxflags n _ _ => some n
  | _ => none

/-- Whether a command uses the tile port (R457). -/
def tilePort : MxOp → Bool
  | .mxls _ _ _ _ _ => false
  | .mxswap => false
  | .mxstr _ _ _ _ _ _ => false
  | _ => true

/-- Whether a command conflicts with an earlier one that has not completed, or needs its unit (R457). -/
def conflicts (a b : MxOp) : Bool :=
  match a, b with
  | .mxls _ _ _ _ _, .mxls _ _ _ _ _ => true
  | .mxls _ _ _ _ _, .mxswap => true
  | .mxswap, .mxls _ _ _ _ _ => true
  | .mxswap, .mxstr _ _ _ _ _ _ => true
  | .mxstr _ _ _ _ _ _, .mxswap => true
  | .mxstr _ _ _ _ _ _, .mxstr _ _ _ _ _ _ => false
  | a, b => (tilePort a && tilePort b) || ((tilePort a || tilePort b) && cmdTile a == cmdTile b && (cmdTile a).isSome)

/-- The first command that has not started, with those before it. -/
def nextCmd : List MxCmd → List MxCmd → Option (List MxCmd × MxCmd)
  | _, [] => none
  | pre, q :: r => if q.running then nextCmd (pre ++ [q]) r else some (pre, q)

/-- MATRIX_COMMAND_START (R457, R468). -/
def dueMatrixCommandStart (c bn : Nat) (s : State) : Option State :=
  match blockFind s c bn with
  | none => none
  | some b =>
    match nextCmd [] b.queue with
    | none => none
    | some (pre, q) =>
      if pre.any (fun x => conflicts q.op x.op) then none
      else
        let note (t : Tile) : Tile :=
          match t.stamp with
          | some r =>
            if r.str = some q.id then { t with stamp := some { r with compute := some s.tb } }
            else if r.st = some q.id then { t with stamp := some { r with copyout := some s.tb } }
            else t
          | none => t
        some (setBlock s { b with
          queue := b.queue.map (fun x => if x.id = q.id then { x with running := true } else x), tile := b.tile.map note })

/-- MATRIX_COMMAND_START, which takes place where it is due. -/
def execMatrixCommandStart (c bn : Nat) (s : State) : Host.Outcome State Fault Refusal := takes s (dueMatrixCommandStart c bn s)

/-! ## Completion (R458, R466, R468) -/

/-- A stamp record (R469). -/
def stampBytes (r : Stamp) (tile : Nat) (superseded : Bool) (out retire : DWord) : List Byte :=
  natLe 2 r.tag.toNat ++ natLe 1 tile ++ natLe 1 (bit superseded + 2 * bit r.preempted) ++ natLe 4 r.warp ++
  natLe 8 r.copyin.toNat ++ natLe 8 (r.wait.getD 0).toNat ++ natLe 8 (r.compute.getD 0).toNat ++
  natLe 8 out.toNat ++ natLe 8 retire.toNat ++ List.replicate 16 0

/-- Takes a command off its queue with its arrival, or breaks its sync word (R401, R458, R466). (assumption 39, DEDUCED) -/
def finishCmd (s : State) (c bn : Nat) (q : MxCmd) (fault : Option DWord) : State :=
  match blockFind s c bn with
  | none => s
  | some b =>
    let s := setBlock s { b with queue := b.queue.filter (fun x => !(x.id == q.id)) }
    match q.sync, fault with
    | some off, some a => breakWord s c bn off a
    | some off, none => arriveAt s c bn off 1
    | none, _ => s

/-- Answers an MXRD or MXFLAGS: the operation of its warp lands. -/
def mxReply (s : State) (c n op : Nat) (vals : List (Option Word)) (sval : Option DWord) : State :=
  match warpFind s c n with
  | none => s
  | some w =>
    match w.pend.find? (fun p => p.id == op) with
    | none => s
    | some p => pumpTrap (setWarp s (landOp w { p with vals := vals } sval)) c n

/-- FLAGS gained by an MXST at its completion (R466): the warp's, or those of its frame while it is in handler. -/
def mxFlags (s : State) (c n : Nat) (fl : BitVec 32) : State :=
  match warpFind s c n with
  | none => s
  | some w =>
    if fl = 0 then s
    else if w.inHandler then
      let a := frameAddr s w + 188
      match devNat s c a 4 with
      | .error k => ctxFault s c k (some w.core) (some n) (.ofNat 64 a)
      | .ok old =>
        match devWrite s c a (natLe 4 ((BitVec.ofNat 32 old ||| fl).toNat)) with
        | .ok s => s
        | .error (k, s) => ctxFault s c k (some w.core) (some n) (.ofNat 64 a)
    else setWarp s (orFlags w fl)

/-- An element of a tile as a lane holds it (R465, R466). -/
def tileWord (t : Tile) (m n : Nat) : Word :=
  match t.fmt with
  | .f16 => widen 2 (tileEl t m n).toNat
  | _ => tileEl t m n

/-- An element as MXST stores it (R466): its code and flags. -/
def storeEl (t : Tile) (fmt rnd : Nat) (sat : Bool) (key : BitVec 64) (ctr : Word) (m n : Nat) : Nat × BitVec 32 :=
  let rb := if rnd = 5 then
      (drawBits key (0x40000000#32 ||| ((ctr + .ofNat 32 (2 * m + n / 32)) &&& 0x3FFFFFFF#32)) (n % 32)).toNat else 0
  narrow fmt ⟨rnd, rb⟩ sat (tileWord t m n)

/-- The rows and columns of a tile in order. -/
def tileIdx : List (Nat × Nat) := (List.range 64).flatMap (fun m => (List.range 64).map (fun n => (m, n)))

/-- What MXST ends with: its record, FLAGS, arrival. -/
def mxstDone (s : State) (c bn : Nat) (q : MxCmd) (tile : Nat) (fl : BitVec 32) (fault : Option DWord) : State :=
  let s := mxFlags s c q.warp fl
  match blockFind s c bn with
  | none => s
  | some b =>
    let t := getAt {} b.tile tile
    let s := match t.stamp with
      | some r =>
        if r.st = some q.id then
          stampRecord (setBlock s { b with tile := setAt {} b.tile tile { t with stamp := none } }) c
            (stampBytes r tile false (r.copyout.getD 0) s.tb)
        else s
      | none => s
    finishCmd s c bn q fault

/-- Replaces a command of a block's queue. -/
def setCmd (s : State) (b : Block) (q : MxCmd) : State :=
  setBlock s { b with queue := b.queue.map (fun x => if x.id = q.id then q else x) }

/-- MXLS at its completion (R460): the shadow plane, from the weight rows and the scale bytes. -/
def doneMxls (s : State) (b : Block) (q : MxCmd) (woff c2 k0 o0 : Nat) (im : List Byte) : State :=
  let mode := (planeMode (tFmt im)).getD 0
  let kk := planeK mode
  let z := elemBits (tFmt im)
  let addr (k n : Nat) : Nat := (tScaleBase im + k0 + k / 32 + (o0 + n) * tSrow im + c2 * tSplane im) % 2 ^ 64
  let vas := if tScl im then
      (List.range (kk / 32)).flatMap (fun j => (List.range 64).map (fun n => addr (32 * j) n)) else []
  let sc := scanRead s b.ctx q.bad q.got vas
  let who : Waiter := .cmd b.ctx b.num q.id
  if !sc.absent.isEmpty then
    setCmd (postAbsent s b.ctx kCopy who sc.absent) b { q with waits := sc.absent }
  else if !sc.ask.isEmpty then
    let (s, asked, got) := askWindow s b.ctx b.core who q.asked sc.ask
    setCmd s b { q with asked := asked, got := q.got ++ got }
  else
    let s := consumed s b.ctx b.core vas
    let code (j n : Nat) : Nat :=
      if tScl im then
        (if sc.bad.contains (addr (32 * j) n) then 0xFF else (getAt 0 sc.vals (64 * j + n)).toNat)
      else 0x7F
    let weight (k n : Nat) : Nat :=
      let raw := leNat (scrBytes b (woff + k * (8 * z) + n * z / 8) (if z = 16 then 2 else 1))
      if z = 4 then tCode im (if n % 2 = 0 then raw % 16 else raw / 16) else raw
    let w := (List.range kk).flatMap (fun k => (List.range 64).map (fun n => (BitVec.ofNat 16 (weight k n), BitVec.ofNat 8 (code (k / 32) n))))
    finishCmd (setBlock s { b with shadow := ⟨mode, w⟩ }) b.ctx b.num q (sc.bad.head?.map (fun a => .ofNat 64 a))

/-- MXST to memory (R466, R435): every page present, then every write; the first address that faults breaks the word. (assumption 38, DEDUCED; assumption 40, DEDUCED) -/
def doneMxst (s : State) (b : Block) (q : MxCmd) (dest : BitVec 64) (tile fmt : Nat) (mem : Bool) (pitch rnd : Nat) (sat : Bool)
    (key : BitVec 64) (ctr : Word) : State :=
  let t := getAt {} b.tile tile
  let z := fmtBytes fmt
  let els := tileIdx.map (fun p => (dest.toNat + p.1 * pitch + p.2 * z, storeEl t fmt rnd sat key ctr p.1 p.2))
  let fl := els.foldl (fun f e => f ||| e.2.2) 0
  if mem = false then
    let b := els.foldl (fun b e => scrSet b e.1 (natLe z e.2.1)) b
    mxstDone (setBlock s b) b.ctx b.num q tile fl none
  else if q.wrote then mxstDone s b.ctx b.num q tile fl none
  else
    let bs := els.flatMap (fun e => ((List.range z).zip (natLe z e.2.1)).map (fun p => ((e.1 + p.1) % 2 ^ 64, p.2)))
    let sc := scanWrite s b.ctx q.bad (bs.map (fun p => p.1))
    let who : Waiter := .cmd b.ctx b.num q.id
    if !sc.absent.isEmpty then
      setCmd (postAbsent s b.ctx kCopy who sc.absent) b { q with waits := sc.absent }
    else if !sc.stall.isEmpty then beginCollapses s b.ctx sc.stall
    else
      match sc.bad with
      | a :: _ =>
        let (s, _) := engWrite s b.ctx b.core who (bs.takeWhile (fun p => !(p.1 == a)))
        let first := ((els.find? (fun e => decide (e.1 ≤ a ∧ a < e.1 + z))).map (fun e => e.1)).getD a
        mxstDone s b.ctx b.num q tile fl (some (.ofNat 64 first))
      | [] =>
        let (s, n) := engWrite s b.ctx b.core who bs
        if n = 0 then mxstDone s b.ctx b.num q tile fl none
        else setCmd s b { q with wout := n, wrote := true }

/-- MATRIX_COMMAND_DONE (R458, R472). MXSTRs complete in their order. -/
def dueMatrixCommandDone (c bn cmd : Nat) (s : State) : Option State :=
  let s := drainAll s c bn
  match blockFind s c bn with
  | none => none
  | some b =>
    match b.queue.find? (fun q => q.id == cmd) with
    | none => none
    | some q =>
      let before := b.queue.takeWhile (fun x => !(x.id == cmd))
      let isStr (o : MxOp) : Bool := match o with | .mxstr _ _ _ _ _ _ => true | _ => false
      if !q.running || !q.waits.isEmpty || awaitsWindow q.asked q.got || decide (0 < q.wout) || (isStr q.op && before.any (fun x => isStr x.op)) then
        none
      else
        match q.op with
        | .mxls woff c2 k0 o0 im => some (doneMxls s b q woff c2 k0 o0 im)
        | .mxswap => some (finishCmd (setBlock s { b with active := b.shadow, shadow := b.active }) c bn q none)
        | .mxstr act tile rows afmt trow asc =>
          let cols := (List.range 64).map (planeCol b.active)
          let t := streamRows b act afmt trow asc cols (getAt {} b.tile tile) rows
          some (finishCmd (setBlock s { b with tile := setAt {} b.tile tile t }) c bn q none)
        | .mxzero tile f =>
          let t := getAt {} b.tile tile
          some (finishCmd (setBlock s { b with tile := setAt {} b.tile tile { t with fmt := f, el := [], flags := 0 } }) c bn q none)
        | .mxrd tile row half op =>
          let t := getAt {} b.tile tile
          some (mxReply (finishCmd s c bn q none) c q.warp op (laneIdx.map (fun l => some (tileWord t row (32 * half + l)))) none)
        | .mxwr tile row half vals =>
          let t := laneIdx.foldl (fun t l =>
            let x := lane vals l
            match t.fmt with
            | .fp32 => setEl t row (32 * half + l) (if isNan (fv x) then qnan else x)
            | .i32 => setEl t row (32 * half + l) x
            | .f16 =>
              let (code, fl) := narrowF f16 {} true (fv x)
              { setEl t row (32 * half + l) (.ofNat 32 code) with flags := if fl &&& fSAT = 0 then t.flags else t.flags ||| 2 })
            (getAt {} b.tile tile)
          some (finishCmd (setBlock s { b with tile := setAt {} b.tile tile t }) c bn q none)
        | .mxst dest tile fmt mem pitch rnd sat key ctr => some (doneMxst s b q dest tile fmt mem pitch rnd sat key ctr)
        | .mxflags tile clr op =>
          let t := getAt {} b.tile tile
          let f := match t.fmt with | .fp32 => 0 | .f16 => 1 | .i32 => 2
          let v : DWord := .ofNat 64 (t.flags.toNat + 16 * f + 64 * bit t.stamp.isSome)
          let s := setBlock s { b with tile := setAt {} b.tile tile { t with flags := if clr then 0 else t.flags } }
          some (mxReply (finishCmd s c bn q none) c q.warp op [] (some v))

/-- MATRIX_COMMAND_DONE, which takes place where it is due. -/
def execMatrixCommandDone (c bn cmd : Nat) (s : State) : Host.Outcome State Fault Refusal := takes s (dueMatrixCommandDone c bn cmd s)

/-! ## The matrix instructions (R456, R459 to R467) -/

/-- A matrix instruction in an engine block; elsewhere it raises TILE_STATE (R453). -/
def mxBlock (s : State) (i : Iss) (f : Block → Res) : Res :=
  match blockOf s i.w with
  | none => .cause .tileState none 0 0
  | some b => if b.tiles = 0 then .cause .tileState none 0 0 else f b

/-- A command of an instruction: the hold for a full queue, the checks, the entry. `use` finishes the entered command. -/
def mxIssue (s : State) (i : Iss) (check : Block → MxEntry) (use : State → Warp → MxOp → State × Warp × MxOp × Option Nat) : Res :=
  mxBlock s i (fun b =>
    let me := (true, i.w.num)
    if mayEnter s b me = false then
      .held (setBlock s { b with mxWait := addNew me b.mxWait }) (retryHold i.w)
    else
      let b := { b with mxWait := b.mxWait.filter (fun x => !(x == me)) }
      match check b with
      | .bad k a => .cause k none (.ofNat 64 a) 0
      | .ok op y =>
        let (s, w, op, map) := use s i.w op
        .ok { s := enterCmd s b w.num op y, w := w, map := map })

/-- A command without a result. -/
def noReply (s : State) (w : Warp) (op : MxOp) : State × Warp × MxOp × Option Nat := (s, w, op, none)

/-- The tile test of the one-word commands (R456 order 3). -/
def tileCheck (b : Block) (n : Nat) (op : MxOp) : MxEntry := if b.tiles ≤ n then .bad .tileState 0 else .ok op none

/-- MXLS (R460). -/
def execMxls (g : Grp) (o : OpsS) (s : State) : Host.Outcome State Fault Refusal :=
  issueAs s (.mxls g o) (fun s i =>
    match i.c.body with
    | .S o => mxIssue s i (fun b => checkMxls s b (i.s o.sa.toNat) (i.s (o.sa.toNat + 1)) 0) noReply
    | _ => .held s i.w)

/-- MXSWAP (R461). -/
def execMxswap (g : Grp) (o : OpsS) (s : State) : Host.Outcome State Fault Refusal :=
  issueAs s (.mxswap g o) (fun s i => mxIssue s i (fun _ => .ok .mxswap none) noReply)

/-- MXSTR (R462, R463). -/
def execMxstr (g : Grp) (o : OpsS) (s : State) : Host.Outcome State Fault Refusal :=
  issueAs s (.mxstr g o) (fun s i =>
    match i.c.body with
    | .S o => mxIssue s i (fun b => checkMxstr b (i.s o.sa.toNat) (i.s (o.sa.toNat + 1)) 0) noReply
    | _ => .held s i.w)

/-- MXZERO (R464). -/
def execMxzero (g : Grp) (o : OpsS) (s : State) : Host.Outcome State Fault Refusal :=
  issueAs s (.mxzero g o) (fun s i =>
    match i.c.body with
    | .S o =>
      let a := i.s o.sa.toNat
      let f := field a 5 4
      mxIssue s i (fun b =>
        if f = 3 then .bad .tileState 0
        else tileCheck b (field a 3 0) (.mxzero (field a 3 0) (if f = 0 then .fp32 else if f = 1 then .f16 else .i32))) noReply
    | _ => .held s i.w)

/-- MXRD (R465): vd is mapped at issue, the warp held until the command completes. -/
def execMxrd (g : Grp) (o : OpsS) (s : State) : Host.Outcome State Fault Refusal :=
  issueAs s (.mxrd g o) (fun s i =>
    match i.c.body with
    | .S o =>
      let a := i.s o.sa.toNat
      mxIssue s i (fun b => tileCheck b (field a 3 0) (.mxrd (field a 3 0) (field a 9 4) (field a 10 10) s.fresh))
        (fun s w op =>
          let (id, s) := takeFresh s
          let p : POp := { id := id, kind := .mxrd, vdst := some o.sd.toNat, lanes := 0xFFFFFFFF#32, vals := laneIdx.map (fun _ => none) }
          (s, { w with pend := w.pend ++ [p], holds := .op id :: w.holds }, op, some o.sd.toNat))
    | _ => .held s i.w)

/-- MXWR (R465): vb is read in every lane at issue. -/
def execMxwr (g : Grp) (o : OpsS) (s : State) : Host.Outcome State Fault Refusal :=
  issueAs s (.mxwr g o) (fun s i =>
    match i.c.body with
    | .S o =>
      let a := i.s o.sa.toNat
      let x := i.v o.sb
      mxIssue s i (fun b => tileCheck b (field a 3 0) (.mxwr (field a 3 0) (field a 9 4) (field a 10 10) (mkLanes (fun l => lane x l)))) noReply
    | _ => .held s i.w)

/-- MXST (R466): the mode and the draw counter are taken at issue. -/
def execMxst (g : Grp) (o : OpsS) (s : State) : Host.Outcome State Fault Refusal :=
  issueAs s (.mxst g o) (fun s i =>
    match i.c.body with
    | .S o =>
      let sat := match i.c.grp.pfx with | some p => p.sat | none => false
      let d1 := i.s (o.sa.toNat + 1)
      match mxIssue s i (fun b => checkMxst b (i.s o.sa.toNat) d1 (modeOf s i) sat
        (strandKey (strandOf s i.w)) i.w.regs.q) noReply with
      | .ok out => .ok { out with srk := if roundsFmt (field d1 7 4) then 128 * srkOf s i else 0 }
      | r => r
    | _ => .held s i.w)

/-- MXFLAGS (R467): the warp is held until sd is written. -/
def execMxflags (g : Grp) (o : OpsS) (s : State) : Host.Outcome State Fault Refusal :=
  issueAs s (.mxflags g o) (fun s i =>
    match i.c.body with
    | .S o =>
      let a := i.s o.sa.toNat
      mxIssue s i (fun b => tileCheck b (field a 3 0) (.mxflags (field a 3 0) (a.getLsbD 4) s.fresh))
        (fun s w op =>
          let (id, s) := takeFresh s
          let p : POp := { id := id, kind := .mxrd, sdst := some o.sd.toNat }
          (s, { w with pend := w.pend ++ [p], holds := .op id :: w.holds }, op, none))
    | _ => .held s i.w)

/-- TSTAMP (R468): it acts at issue. -/
def execTstamp (g : Grp) (o : OpsS) (s : State) : Host.Outcome State Fault Refusal :=
  issueAs s (.tstamp g o) (fun s i =>
    match i.c.body with
    | .S o =>
      mxBlock s i (fun b =>
        let a := i.s o.sa.toNat
        let n := field a 3 0
        if b.tiles ≤ n then .cause .tileState none 0 0
        else if accepted s 6 = false then .ok { s := setBlock s { b with ppIn := false }, w := i.w }
        else
          let t := getAt {} b.tile n
          let r : Stamp := { tag := .ofNat 16 (field a 31 16), warp := i.w.num, copyin := s.tb }
          let s1 := setBlock s { b with ppIn := false, tile := setAt {} b.tile n { t with stamp := some r } }
          let s1 := match t.stamp with
            | some old => stampRecord s1 i.w.ctx (stampBytes old n true 0 0)
            | none => s1
          .ok { s := s1, w := i.w })
    | _ => .held s i.w)

/-- PPOINT (R470). -/
def execPpoint (g : Grp) (o : OpsS) (s : State) : Host.Outcome State Fault Refusal :=
  issueAs s (.ppoint g o) (fun s i =>
    match i.c.body with
    | .S o =>
      mxBlock s i (fun b =>
        if !b.queue.isEmpty || b.mxWait.any (fun x => !x.1) then .held s (retryHold i.w)
        else
          let m := (i.s o.sa.toNat).toNat
          let tiles := m % 2 ^ 16 % 2 ^ b.tiles
          .ok { s := setBlock s { b with ppIn := true, ppMask := .ofNat 18 (tiles + m / 2 ^ 16 % 4 * 2 ^ 16) }, w := i.w })
    | _ => .held s i.w)

/-! ## Follow-on commands (R431, R432, R456) -/

/-- The sync word that a follow-on names. -/
def followSync (f : Follow) : Option Nat := if f.cmd = 0 then mxSync (field f.opb 23 8) else mxSync (field f.opb 15 0)

/-- The oldest follow-on whose copy has landed enters the queue, or waits in the engine (R432, R456). -/
def pumpFollow (s : State) (b : Block) : State :=
  match b.follows with
  | [] => s
  | f :: rest =>
    if f.landed = false then s
    else
      let me := (false, f.copy)
      if mayEnter s b me = false then setBlock s { b with mxWait := addNew me b.mxWait }
      else
        let b := { b with follows := rest, mxWait := b.mxWait.filter (fun x => !(x == me)) }
        let s := setBlock s b
        let r := if b.tiles = 0 then MxEntry.bad .tileState 0
          else if f.cmd = 0 then checkMxls s b (f.opa.setWidth 64) f.opb f.base
          else checkMxstr b (f.opa.setWidth 64) f.opb f.base
        match r with
        | .ok op y => enterCmd s b f.warp op y
        | .bad k a => deferCause s b.ctx f.warp k (.ofNat 64 a)

end Sys2Proof.Machine
end

