-- ==== Sys2Proof/Machine/Copies.lean ====
section
/-! DEFINITION. The copy engine: CPY, CPYMX, CPYNB and CPY16, their chunks, Carousel claims, deferred faults and follow-on
commands (22_copy.md R423 to R438; 08_access.md R210; 18_group.md R356; 21_barrier.md R415). -/

namespace Sys2Proof.Machine

/-! ## Streamer rights (R356, R374) -/

/-- Whether a warp holds streamer rights: a task warp, a warp of the producer role, or warp 0 where no role produces. -/
def streamRights (s : State) (w : Warp) : Bool :=
  match blockOf s w with
  | none => true
  | some b =>
    if b.producer ≠ 0 ∧ 0 < getAt 0 b.roles (b.producer - 1) then w.role.toNat == b.producer else w.k == 0

/-! ## Bytes and chunks (R424, R428, R445) -/

/-- Whether a copy is a tensor box. -/
def isBox (k : Copy) : Bool := !k.image.isEmpty && (match k.kind with | .cpy => true | .cpymx => true | _ => false)

/-- Byte b of a box in its dense layout: the address and the bits that lie inside the tensor (R424, R444, R445). -/
def boxByte (im : List Byte) (org : List Int) (b : Nat) : Nat × Nat :=
  let z := elemBits (tFmt im)
  let rb := tBox im 0 * z / 8
  let x := b % rb
  let r := b / rb
  let c (i : Int) : List Int :=
    [getAt 0 org 0 + i, getAt 0 org 1 + ((r % tBox im 1 : Nat) : Int), getAt 0 org 2 + ((r / tBox im 1 % tBox im 2 : Nat) : Int),
     getAt 0 org 3 + ((r / (tBox im 1 * tBox im 2) : Nat) : Int)]
  if z = 4 then
    (elemAddr im (c (2 * x)), (if insideT im (c (2 * x)) then 0x0F else 0) + (if insideT im (c (2 * x + 1)) then 0xF0 else 0))
  else
    let n := z / 8
    ((elemAddr im (c ((x / n : Nat) : Int)) + x % n) % 2 ^ 64, if insideT im (c ((x / n : Nat) : Int)) then 0xFF else 0)

/-- Byte b of a copy on its memory side: address and bits; past its bytes a Carousel slot is filled with zero (R430). -/
def memByte (k : Copy) (b : Nat) : Nat × Nat :=
  if k.len ≤ b then (0, 0)
  else if isBox k then boxByte k.image k.org b
  else ((if k.route = 2 then k.dst.toNat + b else k.src.toNat + b), 0xFF)

/-- Whether a copy's destination is a scratchpad. -/
def toScratch (k : Copy) : Bool := k.route != 2 && k.route != 3

/-- The 64-byte block of the destination that byte b belongs to (R428). -/
def chunkOf (k : Copy) (b : Nat) : Nat :=
  if toScratch k then (k.scr + b) / 64
  else if k.route = 3 then (k.dst.toNat + b) / 64
  else (memByte k b).1 / 64

/-- Where a destination that is one run of bytes starts. -/
def runStart (k : Copy) : Nat := if toScratch k then k.scr else k.dst.toNat

/-- The chunks of a copy. -/
def chunksOf (k : Copy) : List Nat :=
  if k.total = 0 then []
  else if isBox k && k.route == 2 then
    (List.range k.total).foldl (fun acc b => addNew (chunkOf k b) acc) []
  else
    let lo := runStart k / 64
    (List.range ((runStart k + k.total - 1) / 64 + 1 - lo)).map (fun i => lo + i)

/-- The bytes of a chunk. -/
def chunkBytes (k : Copy) (n : Nat) : List Nat :=
  if isBox k && k.route == 2 then (List.range k.total).filter (fun b => chunkOf k b == n)
  else
    let a := max (runStart k) (64 * n)
    let z := min (runStart k + k.total) (64 * n + 64)
    (List.range (z - a)).map (fun i => a - runStart k + i)

/-- The FADDR of a copy's deferred fault (R434, R435). -/
def copyFaddr (k : Copy) : DWord :=
  if isBox k then .ofNat 64 (elemAddr k.image k.org)
  else
    match k.kind with
    | .cpynb => .ofNat 64 k.src.toNat
    | .cpy16 _ => k.lanesrc
    | _ => if k.route = 2 then k.dst else k.src

/-! ## Completion and faults (R429, R432, R435, R437) -/

/-- Replaces a copy. -/
def setCopy (s : State) (k : Copy) : State := { s with copies := s.copies.map (fun x => if x.id = k.id then k else x) }

/-- Takes a copy out of the engine. -/
def dropCopy (s : State) (id : Nat) : State := { s with copies := s.copies.filter (fun x => !(x.id == id)) }

/-- The resident block of the same launch with a linear identifier (R434). -/
def launchBlock (s : State) (c launch linear : Nat) : Option Block :=
  s.blocks.find? (fun b => b.ctx == c && b.launch == launch && b.linear == linear && !b.saved)

/-- The block whose scratchpad a copy writes and counts in: its own, or the target of a CPYNB. -/
def syncBlock (s : State) (k : Copy) : Option Block :=
  match k.blk with
  | none => none
  | some bn =>
    match k.target, blockFind s k.ctx bn with
    | some l, some b => launchBlock s k.ctx b.launch l
    | some _, none => none
    | none, r => r

/-- A copy has landed whole: its batch, its entry, its follow-on (R432, R437). -/
def copyDone (s : State) (k : Copy) : State :=
  let s := leaveBatch (dropCopy s k.id) k.ctx k.warp k.batch none
  match k.blk.bind (blockFind s k.ctx) with
  | some b => setBlock s { b with follows := b.follows.map (fun f => if f.copy = k.id then { f with landed := true } else f) }
  | none => s

/-- A copy's deferred fault (R432, R435): its word breaks, its batch is marked, its command is dropped and its word breaks
too. -/
def copyFail (s : State) (k : Copy) : State :=
  let a := copyFaddr k
  let tb := syncBlock s k
  let s := leaveBatch (dropCopy s k.id) k.ctx k.warp k.batch (some a)
  let s := match k.sync, tb with
    | some off, some b => breakWord s k.ctx b.num off a
    | _, _ => s
  match k.blk.bind (blockFind s k.ctx) with
  | none => s
  | some b =>
    match b.follows.find? (fun f => f.copy == k.id) with
    | none => s
    | some f =>
      let s := setBlock s { b with follows := b.follows.filter (fun x => !(x.copy == k.id)) }
      match followSync f with
      | some off => if off + 8 ≤ b.scrLen then breakWord s k.ctx b.num off a else s
      | none => s

/-- A chunk's writes are done: it arrives at the copy's word with its bytes (R429), and the copy ends with its last. -/
def chunkDone (s : State) (k : Copy) (n : Nat) : State :=
  let k := { k with chunks := k.chunks.filter (fun x => !(x == n)) }
  let s := setCopy s k
  let s := match k.sync, syncBlock s k with
    | some off, some b => arriveAt s k.ctx b.num off (chunkBytes k n).length
    | _, _ => s
  if k.chunks.isEmpty then copyDone s k else s

/-- Merges the inside bits of a byte over an old one (R424). -/
def mergeByte (bits : Nat) (new old : Byte) : Byte :=
  let m : Byte := .ofNat 8 bits
  (new &&& m) ||| (old &&& ~~~ m)

/-- Marks a copy, and the earlier ones of its core, as started (R436, R437). -/
def markStarted (s : State) (k : Copy) : State :=
  { s with copies := s.copies.map (fun x => if x.core = k.core ∧ x.id ≤ k.id then { x with started := true } else x) }

/-- The numbers from a to b, both ways. -/
def between (a b : Nat) : List Nat :=
  if a ≤ b then (List.range (b - a + 1)).map (fun k => a + k) else (List.range (a - b + 1)).map (fun k => a - k)

/-- The Piste links from a cluster of a die to another: along the row, then along the column (R434, R482). -/
def pisteHops (a b : Nat) : List (Nat × Nat) :=
  let row := (between (a % 8) (b % 8)).map (fun x => a / 8 * 8 + x)
  let col := ((between (a / 8) (b / 8)).map (fun y => y * 8 + b % 8)).drop 1
  let path := row ++ col
  path.zip (path.drop 1)

/-- Whether a state of a Piste link belongs to the route of a CPYNB from a core to a block. -/
def onRoute (k : Copy) (core : Nat) (x : Nat × Nat × Nat × Nat × Bool) : Bool :=
  x.1 == dieOf k.core && (pisteHops (clusterOf k.core % 32) (clusterOf core % 32)).contains (x.2.1, x.2.2.1)

/-- Whether a fenced link stands on the way of a CPYNB to its target (R482). -/
def pisteFenced (s : State) (k : Copy) (tgt : Option Block) : Bool :=
  match tgt with
  | some b => s.piste.any (fun x => x.2.2.2.2 && onRoute k b.core x)
  | none => false

/-- A chunk of a CPYNB has crossed its links: no beat of it is replayed any more (R482). -/
def pisteCrossed (s : State) (k : Copy) (core : Nat) : State :=
  { s with piste := s.piste.filter (fun x => x.2.2.2.2 || !(onRoute k core x)) }

/-- Moves one chunk of a copy (R424, R428, R430, R435): its reads, then its writes and its arrival, or its wait for pages or
window words, or the copy's fault. -/
def moveChunk (s : State) (k : Copy) (n : Nat) : State :=
  let s := markStarted s k
  let k := { k with started := true }
  let idx := chunkBytes k n
  let mem := idx.map (fun b => (b, memByte k b))
  let blk := k.blk.bind (blockFind s k.ctx)
  let half := mem.filter (fun p => p.2.2 != 0xFF && p.2.2 != 0)
  let rds := if k.route = 2 then half.map (fun p => p.2.1)
    else if k.kind = .cpynb then [] else (mem.filter (fun p => p.2.2 != 0)).map (fun p => p.2.1)
  let wrs := if k.route = 2 then (mem.filter (fun p => p.2.2 != 0)).map (fun p => p.2.1)
    else if k.route = 3 then idx.map (fun b => k.dst.toNat + b) else []
  let r := scanRead s k.ctx [] k.got rds
  let w := scanWrite s k.ctx [] wrs
  let who : Waiter := .copy k.id n
  let tgt := syncBlock s k
  let absent := w.absent.foldl (fun acc y => addNew y acc) r.absent
  if k.refused || !r.bad.isEmpty || !w.bad.isEmpty || (k.kind == .cpynb && (tgt.isNone || pisteFenced s k tgt)) then copyFail s k
  else if !absent.isEmpty then
    let s := postAbsent s k.ctx kCopy who absent
    setCopy s { k with waits := k.waits ++ absent.map (fun y => (n, y)) }
  else if !r.ask.isEmpty then
    let (s, asked, got) := askWindow s k.ctx k.core who k.asked r.ask
    setCopy s { k with asked := asked, got := k.got ++ got }
  else if !w.stall.isEmpty then setCopy (beginCollapses s k.ctx w.stall) k
  else
    let s := consumed s k.ctx k.core rds
    let read := rds.zip r.vals
    let fromMem (p : Nat × Nat × Nat) : Byte :=
      if p.2.2 = 0 then 0 else mergeByte p.2.2 ((read.find? (fun q => q.1 == p.2.1)).map (fun q => q.2) |>.getD 0) 0
    let fromScr (off : Nat) : Byte := match blk with | some b => memGet b.scr off | none => 0
    if k.route = 2 ∨ k.route = 3 then
      let bs := if k.route = 3 then mem.map (fun p => (k.dst.toNat + p.1, fromMem p))
        else (mem.filter (fun p => p.2.2 != 0)).map (fun p =>
          (p.2.1, mergeByte p.2.2 (fromScr (k.scr + p.1)) ((read.find? (fun q => q.1 == p.2.1)).map (fun q => q.2) |>.getD 0)))
      let (s, out) := engWrite s k.ctx k.core who bs
      if out = 0 then chunkDone s k n else setCopy s { k with wout := putKey n out k.wout }
    else
      match tgt with
      | none => chunkDone s k n
      | some b =>
        let s := if k.kind = .cpynb then pisteCrossed s k b.core else s
        let bs := mem.map (fun p => (k.scr + p.1, if k.kind = .cpynb then fromScr (k.src.toNat + p.1) else fromMem p))
        chunkDone (setBlock s (bs.foldl (fun b p => scrSet b p.1 [p.2]) b)) k n

/-- COPY_CHUNK_LANDS (R428 to R435). -/
def dueCopyChunkLands (id n : Nat) (s : State) : Option State :=
  match s.copies.find? (fun k => k.id == id) with
  | none => none
  | some k =>
    let lane := match k.kind with | .cpy16 _ => true | _ => false
    if lane || k.saved then none
    else if k.refused then some (copyFail s k)
    else if !(k.chunks.contains n) || k.waits.any (fun x => x.1 == n) || (getKey n k.wout).isSome || awaitsWindow k.asked k.got then
      none
    else some (moveChunk s k n)

/-- COPY_CHUNK_LANDS, which takes place where it is due. -/
def execCopyChunkLands (id n : Nat) (s : State) : Host.Outcome State Fault Refusal := takes s (dueCopyChunkLands id n s)

/-- A window WRITE of a copy's chunk is acknowledged (R429, R497). -/
def copyWriteAck (s : State) (id n : Nat) : State :=
  match s.copies.find? (fun k => k.id == id) with
  | none => s
  | some k =>
    match getKey n k.wout with
    | some m =>
      if m ≤ 1 then chunkDone s { k with wout := k.wout.filter (fun x => !(x.1 == n)) } n
      else setCopy s { k with wout := putKey n (m - 1) k.wout }
    | none => s

/-! ## CPY and CPYMX (R423 to R432) -/

/-- The origin of a box (R423). -/
def boxOrigin (d : List DWord) : List Int :=
  let a := getAt 0 d 1
  let b := getAt 0 d 3
  [(a.setWidth 32).toInt, ((a >>> 32).setWidth 32).toInt, ((b >>> 32).setWidth 16).toInt, ((b >>> 48).setWidth 16).toInt]

/-- A descriptor's fields. -/
def dRoute (d : List DWord) : Nat := field (getAt 0 d 0) 63 62
def dTns (d : List DWord) : Bool := (getAt 0 d 0).getLsbD 61
def dTid (d : List DWord) : Nat := field (getAt 0 d 0) 39 32
def dSync (d : List DWord) : Nat := field (getAt 0 d 3) 31 0

/-- The scratchpad offset that a descriptor names, or the header H. -/
def dScr (d : List DWord) : Nat :=
  if dRoute d = 2 ∧ dTns d = false then field (getAt 0 d 1) 31 0 else field (getAt 0 d 2) 31 0

/-- The byte count of a descriptor (R424). -/
def dBytes (d : List DWord) (im : List Byte) : Nat := if dTns d then boxBytes im else field (getAt 0 d 0) 31 0

/-- The first value of a list that is no multiple of its alignment. -/
def firstOff (xs : List (Nat × Nat)) : Option Nat := (xs.find? (fun x => x.1 % x.2 != 0)).map (fun x => x.1)

/-- The causes of R426 from order 3 on, for CPY and CPYMX (R431): cause and FADDR (R526). (assumption 36, DEDUCED) -/
def copyCause (s : State) (w : Warp) (mx : Bool) (d cmd : List DWord) (im : List Byte) : Option (Cause × Nat) :=
  let r := dRoute d
  let tns := dTns d
  let n := dBytes d im
  let mems := if tns then [] else (if r = 2 then [] else [(getAt 0 d 1).toNat]) ++ (if 2 ≤ r then [(getAt 0 d 2).toNat] else [])
  let scrs := if r = 0 ∨ r = 2 then [dScr d] else []
  let y := dSync d
  let syncs := if y = 0xFFFFFFFF then [] else [y]
  let hdrs := if r = 1 then [dScr d] else []
  if !(streamRights s w) then some (.streamRights, 0)
  else if tns && (r == 3 || !(tValid im) || (tFmt im == 9 && decide (getAt 0 (boxOrigin d) 0 % 2 ≠ 0))) then some (.tensorId, 0)
  else if mx && decide (2 ≤ field (getAt 0 cmd 0) 63 62) then some (.tileState, 0)
  else
    match mems.find? (fun a => decide (2 ^ 57 ≤ a)) with
    | some a => some (.translation, a)
    | none =>
      match firstOff ((mems ++ scrs).map (fun a => (a, 16)) ++ (if tns then [] else [(n, 16)]) ++ syncs.map (fun a => (a, 8)) ++
          hdrs.map (fun a => (a, 16))) with
      | some a => some (.misaligned, a)
      | none =>
        match rangeOver (scrLenOf s w) (scrs.map (fun a => (a, n)) ++ syncs.map (fun a => (a, 8)) ++ hdrs.map (fun a => (a, 16))) with
        | some a => some (.protection, a)
        | none => if mx && decide (2 ≤ r) then some (.protection, 0) else none

/-- The bulk copies that hold an entry of a core (R436). -/
def bulkUsed (s : State) (core : Nat) : Nat :=
  (s.copies.filter (fun k => k.core == core && !k.saved && (match k.kind with | .cpy16 _ => false | _ => true))).length

/-- The lane entries in use on a core (R436). -/
def lanesUsed (s : State) (core : Nat) : Nat :=
  (s.copies.filter (fun k => k.core == core && !k.saved && (match k.kind with | .cpy16 _ => true | _ => false))).length

/-- Starts a bulk copy that has passed its tests: its entry, its batch, its chunks, its follow-on's place. With nothing to
move it is complete at once (R424). -/
def startCopy (s : State) (w : Warp) (k : Copy) : State × Warp :=
  let k := { k with chunks := chunksOf k }
  if k.chunks.isEmpty then
    (match k.kind, k.blk.bind (blockFind s k.ctx) with
     | .cpymx, some b => setBlock s { b with follows := b.follows ++ [⟨k.id, w.num, field (getAt 0 k.cmd 0) 63 62, (getAt 0 k.cmd 0).setWidth 32, getAt 0 k.cmd 1, 0, true⟩] }
     | _, _ => s, w)
  else
    let w := joinBatch w 1
    let s := { s with copies := s.copies ++ [k] }
    (match k.kind, k.blk.bind (blockFind s k.ctx) with
     | .cpymx, some b => setBlock s { b with follows := b.follows ++ [⟨k.id, w.num, field (getAt 0 k.cmd 0) 63 62,
         (getAt 0 k.cmd 0).setWidth 32, getAt 0 k.cmd 1, if k.route = 1 then k.scr else 0, false⟩] }
     | _, _ => s, w)

/-- The copy of a descriptor, its scratchpad side and sync word as given. -/
def makeCopy (s : State) (w : Warp) (mx : Bool) (d cmd : List DWord) (im : List Byte) (scr total : Nat) (sync : Option Nat)
    (slot : Option (Nat × Nat)) : Copy :=
  { id := s.fresh, ctx := w.ctx, warp := w.num, blk := w.blk, core := w.core, kind := if mx then .cpymx else .cpy
    batch := w.openb, desc := d, cmd := cmd, route := dRoute d, scr := scr, src := getAt 0 d 1, dst := getAt 0 d 2
    len := dBytes d im, total := total, sync := sync, image := if dTns d then im else [], org := boxOrigin d, slot := slot
    issue := s.fresh }

/-- What a Carousel claim comes to (R415, R430). -/
inductive Claim where
  | full
  | tooLong
  | ok (b : Block) (scr total sync idx : Nat)
  deriving DecidableEq, Repr

/-- Claims a slot of the ring at H for a copy of n bytes. -/
def ringClaimFor (b : Block) (h n : Nat) : Claim :=
  let claim := ringClaim b h
  if ringN b h ≤ (claim + 65536 - ringRd b h) % 65536 then .full
  else if ringSlotb b h * 64 < n then .tooLong
  else .ok (ringPut b h (ringRd b h) (ringTake b h) (ringWr b h) (claim + 1)) (slotData b h claim) (ringSlotb b h * 64)
    (slotWord b h claim) claim

/-- Whether a copy waits for an acquire or a fence in force (R200, R276, R279): one of a range holds a linear copy where it touches
it, and every tensor copy. -/
def copyHeld (w : Warp) (d : List DWord) (im : List Byte) : Bool :=
  if dTns d then w.acq.isSome || w.rel.any (fun q => q.holds.isSome)
  else memHeld w [(getAt 0 d 1).toNat] (dBytes d im) || memHeld w [(getAt 0 d 2).toNat] (dBytes d im)

/-- CPY and CPYMX (R425 to R431). -/
def copySem (mx : Bool) (s : State) (i : Iss) : Res :=
  match i.c.body with
  | .S o =>
    let d := (List.range 4).map (fun j => i.s (o.sa.toNat + j))
    let cmd := if mx then [i.s o.sb.toNat, i.s (o.sb.toNat + 1)] else []
    let im := tidRead s (dieOf i.w.core) i.w.ctx (dTid d)
    let sd := o.sd.toNat
    if copyHeld i.w d im then .held s (retryHold i.w)
    else
    match copyCause s i.w mx d cmd im with
    | some (k, a) => .cause k none (.ofNat 64 a) 0
    | none =>
      let sync := if dSync d = 0xFFFFFFFF then none else some (dSync d)
      if dRoute d = 1 then
        match scrReady s i.w with
        | (s, none) => .held s i.w
        | (s, some b) =>
          let w := refetch s i.w
          let h := dScr d
          if running w = false then .done s
          else
            match ringClaimFor b h (dBytes d im) with
            | .full => .ok { s := s, w := w, park := some (.ring h sd mx d cmd im) }
            | .tooLong => .cause .protection none (.ofNat 64 h) 0
            | .ok b scr total word idx =>
              if Config.bulkEntries ≤ bulkUsed s w.core then .held s (retryHold w)
              else
                let k := makeCopy s w mx d cmd im scr total (some word) (some (h, idx))
                let (s, w) := startCopy (setBlock { s with fresh := s.fresh + 1 } b) w k
                .ok { s := s, w := w, sc := [(sd, w.openb.setWidth 64)], lat := 0 }
      else if Config.bulkEntries ≤ bulkUsed s i.w.core then .held s (retryHold i.w)
      else
        let k := makeCopy s i.w mx d cmd im (dScr d) (dBytes d im) sync none
        let (s, w) := startCopy { s with fresh := s.fresh + 1 } i.w k
        .ok { s := s, w := w, sc := [(sd, w.openb.setWidth 64)], lat := 0 }
  | _ => .held s i.w

/-- CPY (R425). -/
def execCpy (g : Grp) (o : OpsS) (s : State) : Host.Outcome State Fault Refusal := issueAs s (.cpy g o) (copySem false)

/-- CPYMX (R431, R432). -/
def execCpymx (g : Grp) (o : OpsS) (s : State) : Host.Outcome State Fault Refusal := issueAs s (.cpymx g o) (copySem true)

/-- Tests a split parked on a full ring (R415, R430): it claims, and goes on with its sd. -/
def testRing (s : State) (c n : Nat) (p : Park) : State :=
  match warpFind s c n, p.wait with
  | some w, .ring h sd mx d cmd im =>
    if running w = false ∨ w.parked.contains p = false then s
    else
      match blockOf s w with
      | none => s
      | some b =>
        match ringClaimFor b h (dBytes d im) with
        | .full => s
        | .tooLong => parkedFault s w p .protection (.ofNat 64 h)
        | .ok b scr total word idx =>
          if Config.bulkEntries ≤ bulkUsed s w.core then s
          else
            let k := makeCopy s w mx d cmd im scr total (some word) (some (h, idx))
            let w := unpark w p
            let v : DWord := w.openb.setWidth 64
            let (s, w) := startCopy (setBlock { s with fresh := s.fresh + 1 } b) w k
            setWarp s { w with regs := putS w.regs sd v, earlyS := w.earlyS.filter (fun e => !(e.reg == sd)) }
  | _, _ => s

/-! ## CPYNB (R433, R434) -/

/-- The launch of a block. -/
def launchOf (s : State) (id : Nat) : Option Launch := s.launches.find? (fun l => l.id == id)

/-- A node of a launch's graph. -/
def nodeOf (s : State) (l : Launch) : Option Node :=
  match s.insts.find? (fun x => x.id == l.inst) with
  | none => none
  | some x =>
    match s.graphs.find? (fun g => g.ctx == l.ctx && g.num == x.graph) with
    | some g => (g.nodes.drop l.node).head?
    | none => none

/-- The shape DCLUST, CBLOCKS of a block's launch. -/
def shapeAt (s : State) (b : Block) : Nat × Nat :=
  match (launchOf s b.launch).bind (nodeOf s) with
  | some n => (n.dclust, n.cblocks)
  | none => (0, 0)

/-- CPYNB (R433). -/
def execCpynb (g : Grp) (o : OpsS) (s : State) : Host.Outcome State Fault Refusal :=
  issueAs s (.cpynb g o) (fun s i =>
    match i.c.body with
    | .S o =>
      let d := (List.range 4).map (fun j => i.s (o.sa.toNat + j))
      let len := field (getAt 0 d 0) 31 0
      let src := field (getAt 0 d 1) 31 0
      let dst := field (getAt 0 d 2) 31 0
      let y := dSync d
      let syncs := if y = 0xFFFFFFFF then [] else [y]
      if memHeld i.w [] 0 then .held s (retryHold i.w)
      else if !(streamRights s i.w) then .cause .streamRights none 0 0
      else
        match firstOff ([(src, 16), (dst, 16), (len, 16)] ++ syncs.map (fun a => (a, 8))) with
        | some a => .cause .misaligned none (.ofNat 64 a) 0
        | none =>
          match blockOf s i.w with
          | none => .cause .protection none 0 0
          | some b =>
            let (dclust, cblocks) := shapeAt s b
            let tc := field (getAt 0 d 3) 39 32
            let tb := field (getAt 0 d 3) 41 40
            let size := dclust * cblocks
            let t := b.linear / size * size + tc * cblocks + tb
            match rangeOver b.scrLen ([(src, len), (dst, len)] ++ syncs.map (fun a => (a, 8))) with
            | some a => .cause .protection none (.ofNat 64 a) 0
            | none =>
              if dclust ≤ tc ∨ cblocks ≤ tb ∨ t = b.linear then .cause .protection none 0 0
              else if Config.bulkEntries ≤ bulkUsed s i.w.core then .held s (retryHold i.w)
              else
                let k : Copy :=
                  { id := s.fresh, ctx := i.w.ctx, warp := i.w.num, blk := i.w.blk, core := i.w.core, kind := .cpynb
                    batch := i.w.openb, desc := d, route := 4, scr := dst, src := .ofNat 64 src, len := len, total := len
                    sync := if y = 0xFFFFFFFF then none else some y, target := some t, issue := s.fresh }
                let (s, w) := startCopy { s with fresh := s.fresh + 1 } i.w k
                .ok { s := s, w := w, sc := [(o.sd.toNat, w.openb.setWidth 64)], lat := 0 }
    | _ => .held s i.w)

/-! ## CPY16 (R210, R438) -/

/-- The bytes of a lane's source where they can be read at issue: its page is present and readable (R191, R428). (assumption 34, DEDUCED) -/
def laneBytesNow (s : State) (w : Warp) (ea : Nat) : List Byte :=
  let sc := scanRead s w.ctx [] [] ((List.range 16).map (fun j => ea + j))
  if sc.absent.isEmpty && sc.ask.isEmpty && sc.bad.isEmpty then
    (List.range 16).map (fun j =>
      match getKey ((ea + j) / 4 * 4) w.stack with
      | some v => wordByte v ((ea + j) % 4)
      | none => getAt 0 sc.vals j)
  else []

/-- Whether a word of a lane's source awaits its grant in the core's L1. -/
def lanePending (s : State) (w : Warp) (ea : Nat) : Bool :=
  (List.range 4).any (fun j =>
    match engXlate s w.ctx [] (ea + 4 * j) false with
    | .mem pa _ => (match l1Find s.l1 (ownerOf s w.core) (pa / 4) with | some y => y.st == .pending | none => false)
    | _ => false)

/-- The causes of CPY16 (R189 orders 2 to 5, R438): cause, lane, address. -/
def cpy16Cause (s : State) (w : Warp) (as : List (Nat × Nat × Nat)) (y : Nat) : Option (Cause × Option Nat × Nat) :=
  match as.find? (fun p => decide (2 ^ 57 ≤ p.2.1)) with
  | some p => some (.translation, some p.1, p.2.1)
  | none =>
    match as.find? (fun p => p.2.1 % 16 != 0 || p.2.2 % 16 != 0) with
    | some p => some (.misaligned, some p.1, if p.2.1 % 16 ≠ 0 then p.2.1 else p.2.2)
    | none =>
      if y % 8 ≠ 0 then some (.misaligned, none, y)
      else
        match as.find? (fun p => decide (scrLenOf s w < p.2.2 + 16)) with
        | some p => some (.protection, some p.1, p.2.2)
        | none =>
          if scrLenOf s w < y + 8 then some (.protection, none, y)
          else (as.find? (fun p => overStack w p.2.1 16)).map (fun p => (.stackLimit, some p.1, p.2.1))

/-- CPY16 (R210, R438). -/
def execCpy16 (g : Grp) (o : OpsP16) (s : State) : Host.Outcome State Fault Refusal :=
  issueAs s (.cpy16 g o) (fun s i =>
    match i.c.body with
    | .P16 o =>
      let a := i.v o.a
      let d := i.v o.d
      let base := i.s o.s.toNat
      let y := (i.s o.sync.toNat).toNat % 2 ^ 32
      let as := (lanesOf i.act).map (fun l => (l, (base + (lane a l).setWidth 64).toNat, (lane d l).toNat))
      if as.isEmpty then .ok { s := s, w := i.w }
      else if memHeld i.w (as.map (fun p => p.2.1)) 16 then .held s (retryHold i.w)
      else
        match cpy16Cause s i.w as y with
        | some (k, l, x) => .cause k l (.ofNat 64 x) 0
        | none =>
          if Config.laneEntries < lanesUsed s i.w.core + as.length ∨ as.any (fun p => lanePending s i.w p.2.1) = true then
            .held s (retryHold i.w)
          else
            let id := s.fresh
            let ks : List Copy := (as.zip (List.range as.length)).map (fun p =>
              { id := id + p.2, ctx := i.w.ctx, warp := i.w.num, blk := i.w.blk, core := i.w.core, kind := .cpy16 p.1.1
                batch := i.w.openb, scr := p.1.2.2, len := 16, total := 16, sync := some y
                image := laneBytesNow s i.w p.1.2.1, chunks := [0], lanesrc := .ofNat 64 p.1.2.1, issue := id })
            .ok { s := { s with fresh := id + as.length, copies := s.copies ++ ks }, w := joinBatch i.w as.length }
    | _ => .held s i.w)

/-- A lane's bytes land (R438). -/
def landLane (s : State) (k : Copy) (bs : List Byte) : State :=
  match k.blk.bind (blockFind s k.ctx) with
  | none => copyDone s k
  | some b =>
    let s := setBlock s (scrSet b k.scr bs)
    copyDone (match k.sync with | some off => arriveAt s k.ctx b.num off 16 | none => s) k

/-- CPY16_LANE_LANDS (R191, R435, R438): after the warp's earlier writes and lanes to the same bytes. -/
def dueCpy16LaneLands (id : Nat) (s : State) : Option State :=
  match s.copies.find? (fun k => k.id == id) with
  | none => none
  | some k =>
    let lane := match k.kind with | .cpy16 _ => true | _ => false
    let earlier := s.copies.any (fun x => x.ctx == k.ctx && x.warp == k.warp && decide (x.issue < k.issue) && spansMeet x.scr 16 k.scr 16 &&
      (match x.kind with | .cpy16 _ => true | _ => false))
    if !lane || k.saved || earlier then none
    else if k.refused then some (copyFail s k)
    else if !k.waits.isEmpty || awaitsWindow k.asked k.got then none
    else
      let s := match k.blk with | some b => drainAll s k.ctx b | none => s
      let s := markStarted s k
      let k := { k with started := true }
      if !k.image.isEmpty then some (landLane s k k.image)
      else
        let vas := (List.range 16).map (fun j => k.lanesrc.toNat + j)
        let r := scanRead s k.ctx [] k.got vas
        let who : Waiter := .copy k.id 0
        if !r.bad.isEmpty then some (copyFail s k)
        else if !r.absent.isEmpty then
          some (setCopy (postAbsent s k.ctx kCopy who r.absent) { k with waits := r.absent.map (fun y => (0, y)) })
        else if !r.ask.isEmpty then
          let (s, asked, got) := askWindow s k.ctx k.core who k.asked r.ask
          some (setCopy s { k with asked := asked, got := k.got ++ got })
        else some (landLane (consumed s k.ctx k.core vas) k r.vals)

/-- CPY16_LANE_LANDS, which takes place where it is due. -/
def execCpy16LaneLands (id : Nat) (s : State) : Host.Outcome State Fault Refusal := takes s (dueCpy16LaneLands id s)

end Sys2Proof.Machine
end

