-- ==== Sys2Proof/Machine/Tasks.lean ====
section
/-! DEFINITION. Tasks: the strand table and its place in memory, the deques, TSPAWN, TSYNC and leapfrogging, PGRD, PGKEY,
PALLOC, TLOG, the start and the completion of tasks, horizons, and the context-level STRAND_TABLE (19_task.md R362 to
R386; 12_word.md R259). -/

namespace Sys2Proof.Machine

/-! ## The task area (R367, R368, R376) -/

/-- SAVEBASE.BASE, CTXLIM.WARPS and CTXLIM.BLOCKS (R311). -/
def saveBase (x : Ctx) : Nat := field x.savebase 56 20
def limWarps (x : Ctx) : Nat := field x.ctxlim 17 0
def limBlocks (x : Ctx) : Nat := field x.ctxlim 47 32

/-- The private window of a warp number (R354). -/
def privOf (x : Ctx) (n : Nat) : Nat := (saveBase x + limBlocks x) * 2 ^ 20 + n * 2 ^ 23

/-- The address of a context's task area (R367). -/
def taskArea (x : Ctx) : Nat := (saveBase x + limBlocks x) * 2 ^ 20 + limWarps x * 2 ^ 23

/-- The bytes of a strand table entry (R368). -/
def strandBytes (e : Strand) : List Byte :=
  ((List.range 32).map (fun n => natLe 4 (getAt 0 e.ped n).toNat)).flatten ++
  natLe 4 e.ctr.toNat ++ natLe 1 e.ped.length ++ natLe 1 e.st ++ natLe 2 e.top ++ natLe 8 e.key.toNat ++
  natLe 4 e.alloc.toNat ++ natLe 4 e.logs.toNat ++ natLe 4 e.kids ++ natLe 4 0

/-- A write of the Ringmaster to the task area; a fault is context-level (R367). -/
def areaWrite (s : State) (c : Nat) (va : Nat) (bs : List Byte) : State :=
  match devWrite s c va bs with
  | .ok s => s
  | .error (k, s) => ctxFault s c k none none (.ofNat 64 va)

/-- Writes a strand's record: its table entry, in the Ringmaster and in memory (R368). -/
def putEntry (s : State) (c : Nat) (e : Strand) : State :=
  let x := ctxOf s c
  let s := setCtx s c { x with strands := e :: x.strands.filter (fun y => !(y.tag == e.tag)) }
  areaWrite s c (taskArea x + 160 * e.tag) (strandBytes e)

/-- Frees a strand table entry (R369). -/
def freeEntry (s : State) (c tag : Nat) : State :=
  let x := ctxOf s c
  let s := setCtx s c { x with strands := x.strands.filter (fun y => !(y.tag == tag)) }
  areaWrite s c (taskArea x + 160 * tag + 133) [0]

/-- The number of FREE entries (R368, R370). -/
def freeEntries (x : Ctx) : Nat := 65535 - x.strands.length

/-- The lowest number from `n` on that is not in a list, within a bound. -/
def lowestFree (used : List Nat) : Nat → Nat → Nat
  | 0, n => n
  | f + 1, n => if used.contains n then lowestFree used f (n + 1) else n

/-- A FREE tag: the model hands out the lowest (R368). (assumption 42, DESIGN CHOICE) -/
def freeTag (x : Ctx) : Nat := lowestFree (x.strands.map (fun e => e.tag)) 65535 1

/-- The lowest free warp number of a context, if there is one (R312). -/
def freeWarp (s : State) (c : Nat) : Option Nat :=
  let used := (s.warps.filter (fun w => w.ctx == c)).map (fun w => w.num)
  if used.length < limWarps (ctxOf s c) then some (lowestFree used used.length 0) else none

/-! ## Tasks -/

def taskFind (s : State) (id : Nat) : Option Task := s.tasks.find? (fun t => t.id == id)

def setTask (s : State) (t : Task) : State := { s with tasks := s.tasks.map (fun x => if x.id = t.id then t else x) }

/-- The record of the strand that a task runs (R368). -/
def taskStrand (s : State) (t : Task) : Strand :=
  let x := ctxOf s t.ctx
  if t.tag = 0 then (getKey t.id x.roots).getD {}
  else ((x.strands.find? (fun e => e.tag == t.tag)).getD {})

/-- Replaces it. -/
def putTaskStrand (s : State) (t : Task) (e : Strand) : State :=
  if t.tag = 0 then
    let x := ctxOf s t.ctx
    setCtx s t.ctx { x with roots := putKey t.id e x.roots }
  else putEntry s t.ctx e

/-- The epoch of a task's counter (R362). -/
def epochOfTask (s : State) (t : Task) : Nat := entEpoch (taskStrand s t).ctr

/-! ## Deques (R376) -/

/-- The deque of a core, the bottom first. -/
def dequeOf (s : State) (core : Nat) : List Nat := (getKey core s.deques).getD []

def setDeque (s : State) (core : Nat) (q : List Nat) : State := { s with deques := putKey core q s.deques }

/-- The bytes of a spilled entry (R376). -/
def dequeBytes (s : State) (t : Task) : List Byte :=
  natLe 4 t.entry.toNat ++ natLe 2 t.tag ++ natLe 2 0 ++
  ((List.range 4).map (fun n => natLe 8 (getAt 0 t.args n).toNat)).flatten ++
  natLe 8 (match launchOf s t.launch with | some l => l.seq.toNat | none => 0) ++ List.replicate 16 0

/-- Writes an entry of a core's deque to a free slot of its spill area. -/
def spillTask (s : State) (core : Nat) (t : Task) : State :=
  let used := s.tasks.filterMap (fun x => if x.ctx = t.ctx ∧ (dequeOf s core).contains x.id then x.spill else none)
  let slot := lowestFree used 1024 0
  let s := setTask s { t with spill := some slot }
  areaWrite s t.ctx (taskArea (ctxOf s t.ctx) + 2 ^ 24 + core * 65536 + 64 * slot) (dequeBytes s t)

/-- Keeps the 256 entries nearest the bottom in the Ringmaster and the others spilled. -/
def balanceDeque (s : State) (core : Nat) : State :=
  let q := dequeOf s core
  let s := { s with tasks := s.tasks.map (fun t => if (q.take 256).contains t.id then { t with spill := none } else t) }
  (q.drop 256).foldl (fun s id =>
    match taskFind s id with
    | some t => if t.spill.isNone then spillTask s core t else s
    | none => s) s

/-- Takes a task out of a core's deque. -/
def dequeTake (s : State) (core id : Nat) : State :=
  balanceDeque (setDeque s core ((dequeOf s core).filter (fun x => !(x == id)))) core

/-! ## Views that a task holds (R389, R390) -/

/-- The identity of a reducer's operation (R388). -/
def viewIdentity (op : Nat) : ViewVal :=
  { word := match op with
      | 2 => 0x7F800000#32
      | 3 => 0xFF800000#32
      | 4 => 0x7FFFFFFF#32
      | 5 => 0x80000000#32
      | 6 => 0xFFFFFFFF#32
      | _ => 0 }

/-- The 64 bytes of a view (R388, R71). -/
def viewBytes (v : View) : List Byte :=
  if v.op = 0 then accImage v.val.acc v.val.sticky else natLe 4 v.val.word.toNat ++ List.replicate 60 0

/-- The address of a slot of a context's view spill area (R390). -/
def viewSlot (x : Ctx) (slot : Nat) : Nat := taskArea x + 96 * 2 ^ 20 + 64 * slot

/-- Replaces a view; one in the spill area is written where it lies. -/
def putView (s : State) (v : View) : State :=
  let v := { v with used := s.fresh }
  let s := { s with views := s.views.map (fun x => if x.id = v.id then v else x), fresh := s.fresh + 1 }
  match v.core with
  | some _ => s
  | none => areaWrite s v.ctx (viewSlot (ctxOf s v.ctx) v.slot) (viewBytes v)

/-- Writes a view of a pool to the spill area (R390). -/
def spillView (s : State) (v : View) : State :=
  let used := (s.views.filter (fun x => x.ctx == v.ctx && x.core.isNone)).map (fun x => x.slot)
  let v := { v with core := none, slot := lowestFree used used.length 0 }
  let s := { s with views := s.views.map (fun x => if x.id = v.id then v else x) }
  areaWrite s v.ctx (viewSlot (ctxOf s v.ctx) v.slot) (viewBytes v)

/-- Makes room in a core's full pool (R390): its least recently used view leaves. -/
def makeRoom (s : State) (core : Nat) : State :=
  let mine := s.views.filter (fun v => v.core == some core)
  if mine.length < 128 then s
  else
    match mine with
    | [] => s
    | v :: vs => spillView s (vs.foldl (fun a b => if b.used < a.used then b else a) v)

/-- A new view at the identity of an operation, in a core's pool (R389, R390). -/
def newView (s : State) (c task core r op : Nat) : Nat × State :=
  let s := makeRoom s core
  let id := s.fresh
  (id, { s with fresh := s.fresh + 1
                views := s.views ++ [{ id := id, ctx := c, task := task, r := r, op := op, val := viewIdentity op, core := some core, used := id }] })

/-! ## The start of a task (R312, R374, R377, R389) -/

/-- The reducer set of a task that starts with fresh views (R389). -/
def freshViews (s : State) (t : Task) (core : Nat) : List Reducer → State × List Reducer
  | [] => (s, [])
  | r :: rs =>
    let (id, s) := newView s t.ctx t.id core r.r r.op
    let (s, more) := freshViews s t core rs
    (s, { r with holder := id } :: more)

/-- A warp with nothing in it, at an entry (R374). -/
def newWarp (x : Ctx) (c n core slot : Nat) : Warp :=
  { ctx := c, num := n, core := core, slot := slot
    pc := List.replicate 32 0, depth := List.replicate 32 0, rep := List.replicate 32 0
    regs := { v := noRegs, s := List.replicate 64 0, m := List.replicate 16 0 }
    halted := if x.st = .halted then some 0 else none
    f := List.replicate 12 0, carryx := List.replicate 32 0
    privbase := .ofNat 64 (privOf x n), stackMax := 65535, stackLim := 65535 }

/-- Starts a task in a warp slot under a warp number (R374, R377). -/
def startTask (s : State) (t : Task) (core slot n : Nat) (stolen : Bool) : State :=
  let x := ctxOf s t.ctx
  let fresh := (stolen || core != t.home) && !t.reducers.isEmpty
  let (s, rs) := if fresh then freshViews s t core t.reducers else (s, t.reducers)
  let seq := match launchOf s t.launch with | some l => l.seq | none => 0
  let w := { newWarp x t.ctx n core slot with
    task := some t.id, launch := t.launch, tag := .ofNat 16 t.tag, stream := true
    regs := { v := noRegs, s := t.args ++ List.replicate 60 0, m := List.replicate 16 0 }
    pc := List.replicate 32 t.entry, age := ⟨seq, true, s.tb⟩ }
  let s := setTask s { t with st := .running, warp := some n, fresh := fresh, reducers := rs, spill := none }
  let s := if (ctxOf s t.ctx).st = .runnable then setCtx s t.ctx { ctxOf s t.ctx with st := .running } else s
  acquireAction { s with warps := s.warps ++ [w] } core 6 none

/-- Whether a general warp slot of a core is free (R230, R377). -/
def slotFree (s : State) (core slot : Nat) : Bool :=
  decide (slot < 96) && !(s.warps.any (fun w => w.core == core && w.slot == slot &&
    onCore core w))

/-- Whether a context's work may be dispatched (R306, R324). -/
def dispatching (x : Ctx) : Bool := (x.st == .runnable || x.st == .running || x.st == .halted) && x.preempt.isNone

/-- Whether a debugger has halted a die (R377). -/
def haltedDie (s : State) (c die : Nat) : Bool := (ctxOf s c).haltDies.contains die

/-- How far a core is for a steal (R377). (assumption 117, DESIGN CHOICE) -/
def stealRank (a b : Nat) : Nat :=
  if clusterOf a = clusterOf b then 0 else if quadOf a = quadOf b then 1 else if dieOf a = dieOf b then 2 else 3

/-- The priority of a launch (R354). -/
def prioOf (x : Ctx) : Nat := field x.ctxcfg 2 0

/-- Whether the 100 µs rule of R354 keeps a slot of a die from a task of a context. -/
def barredFor (s : State) (die c : Nat) : Bool :=
  s.launches.any (fun l => l.barred && !(stopsLaunch s l.id) && (match nodeOf s l with
    | some n => decide (getAt 0 l.dies (l.next / (n.cblocks * n.dclust)) = die)
    | none => false) && decide (prioOf (ctxOf s c) ≤ prioOf (ctxOf s l.ctx)))

/-! ## TSPAWN (R372, R373) -/

/-- Marks a warp as held for strand table entries (R370). -/
def holdEntries (w : Warp) (n : Nat) : Warp := retryHold { w with entryWait := n }

/-- TSPAWN (R364, R368, R370, R373). (assumption 41, DEDUCED) -/
def execTspawn (g : Grp) (o : OpsS) (s : State) : Host.Outcome State Fault Refusal :=
  issueAs s (.tspawn g o) (fun s i =>
    match i.c.body with
    | .S o =>
      let w := i.w
      let a := o.sa.toNat
      let e := strandOf s w
      let x := ctxOf s w.ctx
      match w.task.bind (taskFind s) with
      | none => .held s w
      | some t =>
        if (i.s a).toNat % 16 ≠ 0 then .cause .misaligned none 0 0
        else if 32 ≤ e.ped.length then .cause .pedigreeDepth none 0 0
        else if entIndex e.ctr = 2 ^ 20 - 1 then .cause .pedigreeRank none 0 0
        else if freeEntries x < (if w.tag = 0 then 1 else 2) then .held s (holdEntries w (if w.tag = 0 then 1 else 2))
        else if 1280 ≤ (dequeOf s w.core).length ∨ releaseReady s w 6 = false then .held s (retryHold { w with entryWait := 0 })
        else
          let ent := e.ctr
          let (id, s) := takeFresh s
          let tag := freeTag x
          let root := if w.tag = 0 then t.id else e.root
          let child : Strand := { tag := tag, root := root, ped := e.ped ++ [ent], st := 1, launch := t.launch, top := if w.tag = 0 then tag else e.top
                                  key := extendKey e.key ent }
          let s := putEntry s w.ctx child
          let next := { e with ctr := ent + 1, alloc := 0, logs := 0, kids := e.kids + 1 }
          let tag2 := if w.tag = 0 then 0 else freeTag (ctxOf s w.ctx)
          let s := if w.tag = 0 then setStrand s w next else putEntry s w.ctx { next with tag := tag2 }
          let s := setTask s { t with tag := tag2 }
          let kid : Task := { id := id, ctx := w.ctx, launch := t.launch, parent := some t.id, ent := some ent
                              entry := (i.s a).setWidth 32, args := (List.range 4).map (fun n => i.s (a + 1 + n))
                              tag := tag, home := w.core
                              reducers := t.reducers.map (fun r => { r with mine := false }) }
          let s := { s with tasks := s.tasks ++ [kid] }
          let s := balanceDeque (setDeque s w.core (id :: dequeOf s w.core)) w.core
          let w := { boundary w with tag := .ofNat 16 tag2, regs := { w.regs with q := 0, draw := 0 } }
          .ok { s := s, w := w, sc := [(o.sd.toNat, ent.setWidth 64)], lat := 0 }
    | _ => .held s i.w)

/-! ## Horizons (R259, R369, R380) -/

/-- The slices that hold tagged words of a context. -/
def slicesOf (s : State) (c : Nat) : List Nat := dedup ((s.slices.filter (fun e => e.ctx == c && e.tag != 0)).map (fun e => sliceOf s (4 * e.wa)))

/-- An entry becomes RETIRING, and FREE at once when no slice has to answer. -/
def retireEntry (s : State) (c : Nat) (e : Strand) : State :=
  match slicesOf s c with
  | [] => freeEntry s c e.tag
  | sl => putEntry s c { e with st := 2, acks := sl }

/-- The horizon of the tasks that a root spawned in an epoch, or of all that are left (R380). -/
def horizon (s : State) (c root : Nat) (epoch : Option Nat) : State :=
  ((ctxOf s c).strands.filter (fun e => e.st == 1 && e.root == root &&
    (match epoch with | some n => decide (entEpoch (getAt 0 e.ped 1) = n) | none => true))).foldl (fun s e => retireEntry s c e) s

/-- TAG_CLEAR_ACK (R259). -/
def dueTagClearAck (c tag slice : Nat) (s : State) : Option State :=
  match (ctxOf s c).strands.find? (fun e => e.tag == tag && e.st == 2 && e.acks.contains slice) with
  | none => none
  | some e =>
    let s := (s.slices.filter (fun x => x.ctx == c && x.tag.toNat == tag && sliceOf s (4 * x.wa) == slice)).foldl
      (fun s x => slicePut s { x with tag := 0, mask := 0 }) s
    let left := e.acks.filter (fun x => !(x == slice))
    some (if left.isEmpty then freeEntry s c tag
      else setCtx s c { ctxOf s c with strands := (ctxOf s c).strands.map (fun y => if y.tag = tag then { y with acks := left } else y) })

/-- TAG_CLEAR_ACK, which takes place where it is due. -/
def execTagClearAck (c tag slice : Nat) (s : State) : Host.Outcome State Fault Refusal := takes s (dueTagClearAck c tag slice s)

/-! ## TSYNC (R375) -/

/-- The children of a task that are not COMPLETE and merged. -/
def childrenOf (s : State) (id : Nat) : List Task := s.tasks.filter (fun t => t.parent == some id)

/-- The child that a TSYNC runs inline: the most recently spawned of those unstarted in the core's deque (R375 step 1). -/
def inlineChild (s : State) (w : Warp) (t : Task) : Option Task :=
  let ep := epochOfTask s t
  (dequeOf s w.core).findSome? (fun id => (childrenOf s t.id).find? (fun k => k.id == id && k.st == .queued &&
    (match k.ent with | some e => decide (entEpoch e = ep) | none => false)))

/-- The end of a TSYNC (R375 step 3): the acquire, the counter, the new strand, sd, and at a root the horizon. -/
def syncEnd (s : State) (w : Warp) (t : Task) : State × Warp × DWord :=
  let e := strandOf s w
  let ep := entEpoch e.ctr
  let next : BitVec 32 := .ofNat 32 ((ep + 1) * 2 ^ 20)
  let tag2 := if w.tag = 0 then 0 else freeTag (ctxOf s w.ctx)
  let fresh := { e with tag := tag2, ctr := next, alloc := 0, logs := 0, kids := 0 }
  let s := if w.tag = 0 then horizon (setStrand s w fresh) w.ctx t.id (some ep) else putEntry s w.ctx fresh
  let s := setTask s { t with tag := tag2, mergeEpoch := none }
  let w := { boundary w with tag := .ofNat 16 tag2, entryWait := 0, regs := { w.regs with q := 0, draw := 0 } }
  (s, addAcquire w 6 [] none, next.setWidth 64)

/-- Whether the entry that a TSYNC needs is FREE (R370). -/
def syncRoom (s : State) (w : Warp) : Bool := w.tag == 0 || decide (0 < freeEntries (ctxOf s w.ctx))

/-- A parent saves itself and runs a child in its slot (R375 step 1). -/
def leapfrog (s : State) (w : Warp) (k : Task) (n : Nat) : State :=
  match writeFrame s w none with
  | .error (c, s) => ctxFault (setWarp s w) w.ctx c (some w.core) (some w.num) (.ofNat 64 (frameAddr s w))
  | .ok s =>
    let w := { w with place := .leapSaved n, stack := [], chain := none, x := [], attempt := {}, entryWait := 0, yielded := false
                      earlyV := [], earlyS := [], earlyM := [], holds := []
                      regs := { w.regs with v := noRegs, order := [] } }
    startTask (dequeTake (noteIssue (setWarp s w) w) w.core k.id) { k with spill := none } w.core w.slot n false

/-- TSYNC (R364, R370, R375, R395). -/
def execTsync (g : Grp) (o : OpsS) (s : State) : Host.Outcome State Fault Refusal :=
  issueAs s (.tsync g o) (fun s i =>
    match i.c.body with
    | .S o =>
      let w := i.w
      let e := strandOf s w
      match w.task.bind (taskFind s) with
      | none => .held s w
      | some t =>
        if entEpoch e.ctr = 4095 then .cause .pedigreeRank none 0 0
        else
          let t := { t with mergeEpoch := some (entEpoch e.ctr) }
          let s := setTask s t
          match (if i.split == live w then inlineChild s w t else none), freeWarp s w.ctx with
          | some k, some n =>
            if quiet w && w.rupds.isEmpty && w.relq.isEmpty && w.arrivals.isEmpty then .done { leapfrog s w k n with issue := none }
            else .held s (retryHold w)
          | _, _ =>
            if !(childrenOf s t.id).isEmpty then .ok { s := s, w := w, park := some (.tsync o.sd.toNat) }
            else if !(syncRoom s w) then .held s (holdEntries w 1)
            else
              let (s, w, x) := syncEnd s w t
              .ok { s := s, w := w, sc := [(o.sd.toNat, x)], lat := 0 }
    | _ => .held s i.w)

/-- The test of a split parked in TSYNC (R375 steps 2 and 3). -/
def testTsync (s : State) (c n : Nat) (p : Park) : State :=
  match warpFind s c n, p.wait with
  | some w, .tsync sd =>
    match w.task.bind (taskFind s) with
    | none => s
    | some t =>
      if !(running w) || !(w.parked.contains p) || !(childrenOf s t.id).isEmpty then s
      else if !(syncRoom s w) then setWarp s { w with entryWait := 1, holds := if w.holds.contains .entry then w.holds else .entry :: w.holds }
      else
        let (s, w, x) := syncEnd s (unpark { w with holds := w.holds.filter (fun h => !(h == .entry)) } p) t
        setWarp s { w with regs := putS w.regs sd x, earlyS := w.earlyS.filter (fun e => !(e.reg == sd)) }
  | _, _ => s

/-! ## PGRD and PGKEY (R378) -/

/-- PGRD (R378). -/
def execPgrd (g : Grp) (o : OpsS) (s : State) : Host.Outcome State Fault Refusal :=
  issueAs s (.pgrd g o) (fun s i =>
    match i.c.body with
    | .S o =>
      let e := strandOf s i.w
      let l := (i.s o.sa.toNat).toNat
      let d := e.ped.length + 1
      let v := (if l < d then (getAt 0 (e.ped ++ [e.ctr]) l).toNat else 0) + d * 2 ^ 32 + (if l < d then 2 ^ 40 else 0)
      .ok { s := s, w := i.w, sc := [(o.sd.toNat, .ofNat 64 v)], lat := 0 }
    | _ => .held s i.w)

/-- PGKEY (R366, R378). -/
def execPgkey (g : Grp) (o : OpsS) (s : State) : Host.Outcome State Fault Refusal :=
  issueAs s (.pgkey g o) (fun s i =>
    match i.c.body with
    | .S o =>
      let e := strandOf s i.w
      let v := if i.s o.sa.toNat = 0 then strandKey e else if i.s o.sa.toNat = 1 then e.key else 0
      .ok { s := s, w := i.w, sc := [(o.sd.toNat, v)], lat := 0 }
    | _ => .held s i.w)

/-! ## PALLOC and TLOG (R384, R385) -/

/-- The claim of a draw (R384). (assumption 48, DEDUCED) -/
def claimOf (sk : BitVec 64) (c : Word) : BitVec 64 :=
  let x := (sk.extractLsb' 32 32) ++ ((sk.setWidth 32) ^^^ c)
  if x = 0 then 1 else x

/-- Claims a slot at p and goes on with what follows; `size` is the length of the slot's access. -/
def claimSlot (s : State) (i : Iss) (p size : Nat) (claim : BitVec 64) (f : State → BitVec 64 → Res) : Res :=
  match gate s i.w { size := size, align := 16, rd := true, wr := true, atom := true, kind := kAtomic, watch := false } [(0, p)] with
  | .cause k _ a code => .cause k none (.ofNat 64 a) code
  | .wait s w => .held s w
  | .go s es =>
    match es with
    | [(_, va, e)] =>
      if leafKind e ≠ 0 then .cause .protection none (.ofNat 64 p) 0
      else if anyPending s i.w ((List.range (size / 4)).map (fun k => (0, va + 4 * k, e))) then .held s (retryHold i.w)
      else
        let wa := leafPa e va / 4
        let old := (cohWord s (wa + 1)).toNat * 2 ^ 32 + (cohWord s wa).toNat
        if old ≠ 0 ∧ old ≠ claim.toNat then
          .done { ctxFault (setWarp s i.w) i.w.ctx .pallocCollide (some i.w.core) (some i.w.num) (.ofNat 64 p) with issue := none }
        else f (cohStore (cohStore s wa 15#4 (claim.setWidth 32)) (wa + 1) 15#4 (claim.extractLsb' 32 32)) e
    | _ => .held s i.w

/-- Counts an allocation or a log record of the strand (R368). -/
def countStrand (s : State) (w : Warp) (e : Strand) : State := if w.tag = 0 then setStrand s w e else putEntry s w.ctx e

/-- PALLOC (R384). (assumption 49, DEDUCED) -/
def execPalloc (g : Grp) (o : OpsS) (s : State) : Host.Outcome State Fault Refusal :=
  issueAs s (.palloc g o) (fun s i =>
    match i.c.body with
    | .S o =>
      let z := i.s o.sa.toNat
      let e := strandOf s i.w
      if z = 0 ∨ 65520 < z.toNat then .ok { s := s, w := i.w, sc := [(o.sd.toNat, 0)], lat := 0 }
      else if e.alloc.toNat = 2 ^ 30 then .cause .pedigreeRank none 0 0
      else
        let c : Word := 0x80000000#32 ||| e.alloc
        let sk := strandKey e
        let h := drawBits sk c 0
        let p := (field (ctxOf s i.w.ctx).arena 56 48) * 2 ^ 48 + (h.toNat % 2 ^ 31) * 65536
        claimSlot s i p 16 (claimOf sk c) (fun s leaf =>
          let (s, w) := storePair s i.w (p + 8) leaf (z.setWidth 32) (z.extractLsb' 32 32)
          .ok { s := countStrand s w { e with alloc := e.alloc + 1 }, w := w, sc := [(o.sd.toNat, .ofNat 64 (p + 16))], lat := 0 })
    | _ => .held s i.w)

/-- TLOG (R385). -/
def execTlog (g : Grp) (o : OpsS) (s : State) : Host.Outcome State Fault Refusal :=
  issueAs s (.tlog g o) (fun s i =>
    match i.c.body with
    | .S o =>
      let e := strandOf s i.w
      if e.logs.toNat = 2 ^ 30 then .cause .pedigreeRank none 0 0
      else
        let c : Word := 0xC0000000#32 ||| e.logs
        let sk := strandKey e
        let h := drawBits sk c 0
        let p := (field (ctxOf s i.w.ctx).arena 56 48) * 2 ^ 48 + 2 ^ 47 + (h.toNat % 2 ^ 28) * 64
        claimSlot s i p 64 (claimOf sk c) (fun s leaf =>
          let (s, w) := (List.range 7).foldl (fun (a : State × Warp) k =>
            let v := i.s (o.sa.toNat + k)
            storePair a.1 a.2 (p + 8 + 8 * k) leaf (v.setWidth 32) (v.extractLsb' 32 32)) (s, i.w)
          .ok { s := countStrand s w { e with logs := e.logs + 1 }, w := w, sc := [(o.sd.toNat, .ofNat 64 p)], lat := 0 })
    | _ => .held s i.w)

/-! ## The completion of a task (R371, R380, R395) -/

/-- Views of a task leave with it: its own ones (R387, R395). -/
def dropViews (s : State) (ids : List Nat) : State := { s with views := s.views.filter (fun v => !(ids.contains v.id)) }

/-- TASK_COMPLETE (R371, R380, R387, R395). -/
def dueTaskComplete (c id : Nat) (s : State) : Option State :=
  match taskFind s id with
  | none => none
  | some t =>
    let e := taskStrand s t
    if t.ctx = c ∧ t.warpDone = true ∧ t.st ≠ .complete ∧ e.kids = 0 ∧ (childrenOf s id).isEmpty = true then
      let s := dropViews s ((t.reducers.filter (fun r => r.mine)).map (fun r => r.holder))
      match t.parent with
      | some pid =>
        let s := match taskFind s pid with
          | some p =>
            let pe := taskStrand s p
            putTaskStrand s p { pe with kids := pe.kids - 1 }
          | none => s
        some (if t.fresh then setTask s { t with st := .complete, reducers := t.reducers.filter (fun r => !r.mine) }
          else { s with tasks := s.tasks.filter (fun x => !(x.id == id)) })
      | none =>
        let s := horizon s c id none
        let x := ctxOf s c
        let s := setCtx s c { x with roots := x.roots.filter (fun r => !(r.1 == id)) }
        some { s with tasks := s.tasks.filter (fun x => !(x.id == id)),
                       launches := s.launches.map (fun l => if l.id = t.launch then { l with rootsOpen := l.rootsOpen - 1 } else l) }
    else none

/-- TASK_COMPLETE, which takes place where it is due. -/
def execTaskComplete (c id : Nat) (s : State) : Host.Outcome State Fault Refusal := takes s (dueTaskComplete c id s)

/-! ## STRAND_TABLE (R370) -/

/-- Whether every LIVE lane of a warp is parked, one of its splits in TSYNC. -/
def parkedInTsync (w : Warp) : Bool :=
  w.parked.any (fun p => match p.wait with | .tsync _ => true | _ => false) &&
  (live w &&& ~~~ (w.parked.foldl (fun m p => m ||| parkSplit w p) 0)) == 0

/-- STRAND_TABLE (R370). -/
def execStrandTable (c : Nat) (s : State) : Host.Outcome State Fault Refusal :=
  let x := ctxOf s c
  let ws := s.warps.filter (fun w => w.ctx == c)
  let queued := s.tasks.any (fun t => t.ctx == c && t.st == .queued)
  let held := ws.filter (fun w => decide (0 < w.entryWait))
  let tooFew := !queued && !held.isEmpty && held.all (fun w => decide (freeEntries x < w.entryWait))
  let noNumber := queued && (freeWarp s c).isNone
  if dispatching x && x.strands.all (fun e => e.st != 2) && (tooFew || noNumber) && !ws.isEmpty &&
      ws.all (fun w => w.halted.isNone && (decide (0 < w.entryWait) || parkedInTsync w || (match w.place with | .leapSaved _ => true | _ => false))) then
    .next (ctxFault s c .strandTable none none 0)
  else .next s

end Sys2Proof.Machine
end

