-- ==== Sys2Proof/Machine/Views.lean ====
section
/-! DEFINITION. Reducer views: RDECL, RUPD, RGET, the background application of updates and the merge engine (20_view.md
R387 to R397). -/

namespace Sys2Proof.Machine

/-! ## Contributions (R388) -/

/-- COMBINE (R388). -/
def combine (op : Nat) (v : ViewVal) (x : Word) : ViewVal :=
  let w := v.word
  match op with
  | 0 => let r := accAdd v.acc v.sticky x; { v with acc := r.1, sticky := r.2 }
  | 1 => { v with word := w + x }
  | 2 => { v with word := fminOp w x }
  | 3 => { v with word := fmaxOp w x }
  | 4 => { v with word := if x.toInt < w.toInt then x else w }
  | 5 => { v with word := if w.toInt < x.toInt then x else w }
  | 6 => { v with word := w &&& x }
  | 7 => { v with word := w ||| x }
  | _ => { v with word := w ^^^ x }

/-- Merging a view's value into another (R69, R388). -/
def mergeVal (op : Nat) (v b : ViewVal) : ViewVal :=
  if op = 0 then
    let r := accMerge v.acc v.sticky b.acc b.sticky
    { v with acc := r.1, sticky := r.2 }
  else combine op v b.word

def viewFind (s : State) (id : Nat) : Option View := s.views.find? (fun v => v.id == id)

/-- The reducer r of a task's set. -/
def reducerOf (t : Task) (r : Nat) : Option Reducer := t.reducers.find? (fun x => x.r == r)

/-- A read or update of a view through the pools (R390): a use of it. -/
def useView (s : State) (id : Nat) (f : ViewVal → ViewVal) : State :=
  match viewFind s id with
  | some v => putView s { v with val := f v.val }
  | none => s

/-! ## RDECL, RUPD, RGET (R391 to R394) -/

/-- Whether a view instruction's split holds every LIVE lane and its task has spawned nothing in the epoch (R392, R394). -/
def viewAlone (s : State) (i : Iss) : Bool := i.split == live i.w && entIndex (strandOf s i.w).ctr == 0

/-- RDECL (R392). -/
def execRdecl (g : Grp) (o : OpsS) (s : State) : Host.Outcome State Fault Refusal :=
  issueAs s (.rdecl g o) (fun s i =>
    match i.c.body, i.w.task.bind (taskFind s) with
    | .S o, some t =>
      let r := o.sa.toNat
      let op := o.sb.toNat
      if !(viewAlone s i) then .cause .illegal none 0 0
      else
        match reducerOf t r with
        | some x =>
          if !x.mine then .cause .illegal none 0 0
          else if !i.w.rupds.isEmpty then .held s (retryHold i.w)
          else
            let s := match viewFind s x.holder with
              | some v => putView s { v with op := op, val := viewIdentity op }
              | none => s
            let s := setTask s { t with reducers := t.reducers.map (fun y => if y.r = r then { y with op := op } else y) }
            .ok { s := s, w := i.w }
        | none =>
          if !i.w.rupds.isEmpty then .held s (retryHold i.w)
          else
            let (id, s) := newView s t.ctx t.id i.w.core r op
            .ok { s := setTask s { t with reducers := t.reducers ++ [⟨r, op, true, id⟩] }, w := i.w }
    | _, _ => .held s i.w)

/-- RUPD (R393): the contributions of ACTIVE wait for their application. -/
def execRupd (g : Grp) (o : OpsS) (s : State) : Host.Outcome State Fault Refusal :=
  issueAs s (.rupd g o) (fun s i =>
    match i.c.body, i.w.task.bind (taskFind s) with
    | .S o, some t =>
      match reducerOf t o.sa.toNat with
      | none => .cause .illegal none 0 0
      | some _ =>
        if 16 ≤ i.w.rupds.length then .held s (retryHold i.w)
        else
          let b := i.v o.sb
          .ok { s := s, w := { i.w with rupds := i.w.rupds ++ [⟨o.sa.toNat, (lanesOf i.act).map (lane b)⟩] } }
    | _, _ => .held s i.w)

/-- RGET (R394). -/
def execRget (g : Grp) (o : OpsS) (s : State) : Host.Outcome State Fault Refusal :=
  issueAs s (.rget g o) (fun s i =>
    match i.c.body, i.w.task.bind (taskFind s) with
    | .S o, some t =>
      if !(viewAlone s i) then .cause .illegal none 0 0
      else
        match reducerOf t o.sa.toNat with
        | none => .cause .illegal none 0 0
        | some x =>
          if !x.mine then .cause .illegal none 0 0
          else if !i.w.rupds.isEmpty then .held s (retryHold i.w)
          else
            let v := ((viewFind s x.holder).map (fun v => v.val)).getD (viewIdentity x.op)
            let r : FRes := if x.op = 0 then accRead v.acc v.sticky else (v.word, 0)
            .ok { s := useView s x.holder id, w := i.w, sc := [(o.sd.toNat, r.1.setWidth 64)], flags := r.2, lat := 0 }
    | _, _ => .held s i.w)

/-- RUPD_APPLY (R389, R393): the warp's oldest RUPD enters its task's holder. -/
def dueRupdApply (c n : Nat) (s : State) : Option State :=
  match warpFind s c n with
  | none => none
  | some w =>
    match w.rupds, w.task.bind (taskFind s) with
    | u :: us, some t =>
      match reducerOf t u.r with
      | some x =>
        let s := useView s x.holder (fun v => u.vals.foldl (combine x.op) v)
        some (pumpTrap (setWarp s { w with rupds := us }) c n)
      | none => none
    | _, _ => none

/-- RUPD_APPLY, which takes place where it is due. -/
def execRupdApply (c n : Nat) (s : State) : Host.Outcome State Fault Refusal := takes s (dueRupdApply c n s)

/-! ## Merging (R395) -/

/-- A child's spawn entry. -/
def entOf (t : Task) : Nat := (t.ent.getD 0).toNat

/-- The child whose merge may start (R395): COMPLETE with fresh views, no lower one that holds or may yet hold any. (assumption 43, DEDUCED) -/
def mergeable (s : State) (pid : Nat) : Option Task :=
  let ks := childrenOf s pid
  ks.find? (fun k => k.st == .complete && k.fresh &&
    ks.all (fun j => decide (entOf k ≤ entOf j) || (!j.fresh && j.st != .queued)))

/-- VIEW_MERGE (R395). -/
def dueViewMerge (c pid : Nat) (s : State) : Option State :=
  match taskFind s pid with
  | none => none
  | some p =>
    match mergeable s pid with
    | some k =>
      if p.ctx = c ∧ p.mergeEpoch.isSome = true ∧ p.mergeChild.isNone = true then some (setTask s { p with mergeChild := some k.id })
      else none
    | none => none

/-- VIEW_MERGE, which takes place where it is due. -/
def execViewMerge (c pid : Nat) (s : State) : Host.Outcome State Fault Refusal := takes s (dueViewMerge c pid s)

/-- Merges one fresh view of a child into its parent's holder. -/
def mergeOne (s : State) (p : Task) (x : Reducer) : State :=
  match viewFind s x.holder, reducerOf p x.r with
  | some b, some y => useView s y.holder (fun v => mergeVal y.op v b.val)
  | _, _ => s

/-- VIEW_MERGE_DONE (R395): the child's fresh views are merged and freed, and the child is gone. -/
def dueViewMergeDone (c pid : Nat) (s : State) : Option State :=
  match taskFind s pid with
  | none => none
  | some p =>
    match p.mergeChild.bind (taskFind s) with
    | some k =>
      if p.ctx = c then
        let s := k.reducers.foldl (fun s x => mergeOne s p x) s
        let s := dropViews s (k.reducers.map (fun x => x.holder))
        let s := setTask s { p with mergeChild := none }
        some { s with tasks := s.tasks.filter (fun t => !(t.id == k.id)) }
      else none
    | none => none

/-- VIEW_MERGE_DONE, which takes place where it is due. -/
def execViewMergeDone (c pid : Nat) (s : State) : Host.Outcome State Fault Refusal := takes s (dueViewMergeDone c pid s)

end Sys2Proof.Machine
end

