-- ==== Sys2Proof/Machine/Launch.lean ====
section
/-! DEFINITION. Queues, graphs and launches: packets, completion records, record queues, QEMIT, QREAD, the runs of a graph
and the forming and completion of launches (16_queue.md R330 to R340; 17_kernel.md R343 to R348). -/

namespace Sys2Proof.Machine

/-! ## Queues (R330, R331, R335) -/

/-- A queue that is not FREE. -/
def queueFind (s : State) (n : Nat) : Option Queue := s.queues.find? (fun q => q.num == n && q.st != 0)

/-- Replaces a queue's descriptor. -/
def putQueue (s : State) (q : Queue) : State := { s with queues := q :: s.queues.filter (fun x => !(x.num == q.num)) }

/-- A queue becomes FREE: its registers keep what CREATE wrote and the indices they have (R330). -/
def freeQueue (s : State) (q : Queue) : State := putQueue s { q with st := 0, recs := [], answer := none }

/-- The slots of a queue. -/
def qSlots (q : Queue) : Nat := 2 ^ q.log2

/-- The entries of a queue. -/
def qCount (q : Queue) : Nat := (q.wr - q.rd).toNat

/-- A completion record joins those that wait for the completion queue of a trigger queue (R335); where that queue has been
destroyed, the record is dropped. (assumption 130, DESIGN CHOICE) -/
def finishRec (s : State) (queue : Nat) (tag : DWord) (status energy : Nat) (launch : Bool) : State :=
  match queueFind s queue with
  | none => s
  | some t =>
    match queueFind s t.cq with
    | none => s
    | some q =>
      let e : DWord := if accepted s 7 then .ofNat 64 (energy / 1000) else 0
      putQueue s { q with recs := q.recs ++ [⟨tag, status, e, .ofNat 64 (s.tb.toNat * 5 / 6), queue, launch⟩] }

/-- The records of a context that wait in the Ringmaster (R335). -/
def waitingRecs (s : State) (c : Nat) : Nat := ((s.queues.filter (fun q => q.ctx == c)).map (fun q => q.recs.length)).foldl (· + ·) 0

/-- Whether the limit on waiting records keeps a trigger queue from accepting packets (R335): its completion queue has records
waiting, and the context as many as the Ringmaster holds. -/
def recsFull (s : State) (q : Queue) : Bool :=
  decide (4096 ≤ waitingRecs s q.ctx) && (match queueFind s q.cq with | some d => !d.recs.isEmpty | none => false)

/-- COMPLETION_RECORD_WRITE (R331, R335): bytes 0 to 11 and 16 to 31, then SEQ; a fault puts the queue into ERROR. -/
def dueCompletionRecordWrite (n : Nat) (s : State) : Option State :=
  match queueFind s n with
  | none => none
  | some q =>
    match q.recs with
    | [] => none
    | r :: rest =>
      if q.kind = 1 ∧ q.st = 1 ∧ qCount q < qSlots q then
        let a := q.base.toNat + 32 * (q.wr.toNat % qSlots q)
        match devWrite s q.ctx a (natLe 8 r.tag.toNat ++ natLe 4 r.status) with
        | .error (_, s) => some (putQueue s { q with st := 2 })
        | .ok s =>
          match devWrite s q.ctx (a + 16) (natLe 8 r.energy.toNat ++ natLe 8 r.time.toNat) with
          | .error (_, s) => some (putQueue s { q with st := 2 })
          | .ok s =>
            match devWrite s q.ctx (a + 12) (natLe 4 (q.wr + 1).toNat) with
            | .error (_, s) => some (putQueue s { q with st := 2 })
            | .ok s => some (putQueue s { q with wr := q.wr + 1, recs := rest })
      else none

/-- COMPLETION_RECORD_WRITE, which takes place where it is due. -/
def execCompletionRecordWrite (n : Nat) (s : State) : Host.Outcome State Fault Refusal := takes s (dueCompletionRecordWrite n s)

/-! ## Graphs and launches (R343, R346, R348, R350) -/

def graphFind (s : State) (c n : Nat) : Option Graph := s.graphs.find? (fun g => g.ctx == c && g.num == n)

def instFind (s : State) (id : Nat) : Option Inst := s.insts.find? (fun x => x.id == id)

def setInst (s : State) (x : Inst) : State := { s with insts := s.insts.map (fun y => if y.id = x.id then x else y) }

def setLaunch (s : State) (l : Launch) : State := { s with launches := s.launches.map (fun x => if x.id = l.id then l else x) }

/-- A node of a graph by number. -/
def graphNode (g : Graph) (n : Nat) : Option Node := (g.nodes.drop n).head?

/-- Warps of a block, and blocks of a launch of a node (R350). -/
def nodeWarps (n : Node) : Nat := (n.bthreads + 31) / 32
def nodeBlocks (n : Node) : Nat := n.cblocks * n.dclust * n.ndies

/-- The root key of a launch (R348). -/
def launchKey (seed : BitVec 64) (n b : Nat) : BitVec 64 := extendKey (extendKey seed (.ofNat 32 n)) (.ofNat 32 b)

/-- Forms a launch of a node with a batch (R346): it enters dispatch; physical dies are taken in ascending order. An instance that
would form a launch with o = 2^32 is aborted. (assumption 46, DEDUCED) -/
def formLaunch (s : State) (x : Inst) (g : Graph) (n : Nat) (batch : List (List DWord)) : State × Inst :=
  match graphNode g n with
  | none => (s, x)
  | some nd =>
    if 2 ^ 32 ≤ x.formed then (s, { x with aborted := true })
    else
    let (id, s) := takeFresh s
    let b := getAt 0 x.batches n
    let l : Launch :=
      { id := id, ctx := x.ctx, inst := x.id, node := n, batch := batch
        seq := .ofNat 64 (x.acc.toNat * 2 ^ 32 + x.formed)
        key := launchKey x.seed n (if nd.record then b else 0)
        dies := List.range nd.ndies }
    ({ s with launches := s.launches ++ [l] },
     { x with formed := x.formed + 1, batches := if nd.record then setAt 0 x.batches n (b + 1) else x.batches })

/-- The record queue of an edge by its place among the graph's edges (R337). -/
def recqOf (x : Inst) (k : Nat) : List (List DWord) := (getKey k x.recq).getD []

/-- The edges of a graph with their places. -/
def edgesOf (g : Graph) : List (Nat × Edge) := (List.range g.edges.length).zip g.edges

/-- The state of a node of an instance. -/
def nodeSt (x : Inst) (n : Nat) : NodeSt := getAt .waiting x.nodes n

/-- The in-edge of a record node. -/
def recordEdge (g : Graph) (n : Nat) : Option (Nat × Edge) := (edgesOf g).find? (fun e => e.2.dst == n && e.2.record)

/-- Whether launches of a node of an instance run. -/
def nodeRunning (s : State) (x : Inst) (n : Nat) : Bool := s.launches.any (fun l => l.inst == x.id && l.node == n)

/-- Takes the words of freed tags out of a context's slices (R259, R369). (assumption 51, DEDUCED) -/
def clearTags (s : State) (c : Nat) (tags : List Nat) : State :=
  (s.slices.filter (fun x => x.ctx == c && tags.contains x.tag.toNat)).foldl (fun s x => slicePut s { x with tag := 0, mask := 0 }) s

/-- Ends the fusions of launches (R257): every word is written back. -/
def unfuse (s : State) (gone : Nat → Bool) : State :=
  let ends := s.fused.filter (fun f => gone f.2)
  let s := ends.foldl (fun s f => flushOwner s (0x400 + f.1)) s
  { s with fused := s.fused.filter (fun f => !(gone f.2)) }

/-- Everything of some launches of a context is discarded without save: warps, blocks, tasks, deque entries, views, strand
table entries (R336, R369). -/
def killLaunches (s : State) (c : Nat) (ids : List Nat) : State :=
  let mine (l : Nat) : Bool := ids.contains l
  let ts := (s.tasks.filter (fun t => t.ctx == c && mine t.launch)).map (fun t => t.id)
  let bs := (s.blocks.filter (fun b => b.ctx == c && mine b.launch)).map (fun b => b.num)
  let ws := (s.warps.filter (fun w => w.ctx == c && mine w.launch)).map (fun w => w.num)
  let tags := ((ctxOf s c).strands.filter (fun e => mine e.launch)).map (fun e => e.tag)
  let s := tags.foldl (fun s t => freeEntry s c t) (clearTags s c tags)
  let x := ctxOf s c
  let s := setCtx s c { x with roots := x.roots.filter (fun r => !(ts.contains r.1)) }
  let s := { s with
    warps := s.warps.filter (fun w => !(w.ctx == c && mine w.launch))
    blocks := s.blocks.filter (fun b => !(b.ctx == c && mine b.launch))
    tasks := s.tasks.filter (fun t => !(ts.contains t.id))
    views := s.views.filter (fun v => !(ts.contains v.task))
    deques := s.deques.map (fun d => (d.1, d.2.filter (fun t => !(ts.contains t))))
    copies := s.copies.filter (fun k => !(k.ctx == c && (ws.contains k.warp || (match k.blk with | some b => bs.contains b | none => false))))
    lastWarp := s.lastWarp.filter (fun r => !(r.2.1 == c && ws.contains r.2.2)) }
  unfuse s mine

/-- The launches of an instance. -/
def instLaunches (s : State) (x : Inst) : List Nat := (s.launches.filter (fun l => l.inst == x.id)).map (fun l => l.id)

/-- An instance is aborted: its record with a status and the energy of all its launches, its launches and records gone (R335, R336,
R346). -/
def abortInst (s : State) (x : Inst) (status : Nat) : State :=
  let running := ((s.launches.filter (fun l => l.inst == x.id)).map (fun l => l.energy)).foldl (· + ·) 0
  let s := finishRec s x.queue x.tag status (x.energy + running) true
  { s with insts := s.insts.filter (fun y => !(y.id == x.id)), launches := s.launches.filter (fun l => !(l.inst == x.id)) }

/-- Advances one node of a started instance (R346): the next state, and launches formed. -/
def advanceNode (s : State) (x : Inst) (g : Graph) (n : Nat) : State × Inst :=
  match (if x.aborted then none else graphNode g n) with
  | none => (s, x)
  | some nd =>
    let ins := (edgesOf g).filter (fun e => e.2.dst == n)
    match nodeSt x n with
    | .waiting =>
      if nd.record then (s, { x with nodes := setAt .waiting x.nodes n .open_ })
      else if ins.all (fun e => nodeSt x e.2.src == .done) then
        let (s, x) := formLaunch s x g n []
        (s, { x with nodes := setAt .waiting x.nodes n .running })
      else (s, x)
    | .open_ =>
      match recordEdge g n with
      | none => (s, x)
      | some (k, e) =>
        let q := recqOf x k
        if e.thresh ≤ q.length then
          let (s, x) := formLaunch s x g n (q.take e.thresh)
          (s, { x with recq := putKey k (q.drop e.thresh) x.recq })
        else if nodeSt x e.src = .done then
          if !q.isEmpty then
            let (s, x) := formLaunch s x g n q
            (s, { x with recq := putKey k [] x.recq })
          else if nodeRunning s x n then (s, x)
          else (s, { x with nodes := setAt .waiting x.nodes n .done })
        else (s, x)
    | _ => (s, x)

/-- Advances every node until nothing changes, within a bound. -/
def advance (g : Graph) : Nat → State → Inst → State × Inst
  | 0, s, x => (s, x)
  | f + 1, s, x =>
    let r := (List.range g.nodes.length).foldl (fun (a : State × Inst) n => advanceNode a.1 a.2 g n) (s, x)
    if r.2 = x then r else advance g f r.1 r.2

/-- Tests an instance's nodes, and ends it when every one is DONE (R346); one that is being aborted forms nothing more (R336).
(assumption 45, DEDUCED) -/
def runInst (s : State) (id : Nat) : State :=
  match (instFind s id).filter (fun x => !(stopsInst s x)) with
  | none => s
  | some x =>
    match graphFind s x.ctx x.graph with
    | none => s
    | some g =>
      let (s, x) := advance g (2 * g.nodes.length + 2) s x
      if x.aborted then setInst s x
      else if x.nodes.all (fun n => n == .done) then
        let s := finishRec s x.queue x.tag 0 x.energy true
        { s with insts := s.insts.filter (fun y => !(y.id == id)) }
      else setInst s x

/-- INSTANCE_START (R346): the earliest instance of a graph, once none of it runs. -/
def dueInstanceStart (c g : Nat) (s : State) : Option State :=
  match s.insts.find? (fun x => x.ctx == c && x.graph == g) with
  | none => none
  | some x => if x.started = true ∨ dispatching (ctxOf s c) = false ∨ stopsInst s x = true then none
    else some (runInst (setInst s { x with started := true }) x.id)

/-- INSTANCE_START, which takes place where it is due. -/
def execInstanceStart (c g : Nat) (s : State) : Host.Outcome State Fault Refusal := takes s (dueInstanceStart c g s)

/-- Whether a launch has granted every block and everything it started has completed (R346). -/
def launchOver (s : State) (l : Launch) : Bool :=
  match nodeOf s l with
  | none => false
  | some n => decide (nodeBlocks n ≤ l.next) && l.liveBlocks == 0 && l.rootsOpen == 0

/-- Adds pending BBC counts of a context's counter to memory (R523); a fault is context-level. -/
def flushBbc (s : State) (b : Bbc) : State :=
  let va := (ctxOf s b.ctx).bbcctl.toNat % 2 ^ 57 / 8 * 8 + 8 * b.k
  let s := { s with bbcs := s.bbcs.filter (fun x => !(x.core == b.core && x.ctx == b.ctx && x.k == b.k)) }
  match devNat s b.ctx va 8 with
  | .error k => ctxFault s b.ctx k (some b.core) none (.ofNat 64 va)
  | .ok old =>
    match devWrite s b.ctx va (natLe 8 (old + b.n)) with
    | .ok s => s
    | .error (k, s) => ctxFault s b.ctx k (some b.core) none (.ofNat 64 va)

/-- Flushes every count of a context (R523). -/
def flushBbcs (s : State) (c : Nat) : State := (s.bbcs.filter (fun b => b.ctx == c)).foldl flushBbc s

/-- LAUNCH_COMPLETE (R346, R523). -/
def dueLaunchComplete (id : Nat) (s : State) : Option State :=
  match launchOf s id with
  | none => none
  | some l =>
    match instFind s l.inst with
    | none => none
    | some x =>
      if launchOver s l then
        let rec_ := match nodeOf s l with | some n => n.record | none => false
        let s := flushBbcs { s with launches := s.launches.filter (fun y => !(y.id == id)) } l.ctx
        let x := { x with energy := x.energy + l.energy, nodes := if rec_ then x.nodes else setAt .waiting x.nodes l.node .done }
        some (runInst (setInst s x) x.id)
      else none

/-- LAUNCH_COMPLETE, which takes place where it is due. -/
def execLaunchComplete (id : Nat) (s : State) : Host.Outcome State Fault Refusal := takes s (dueLaunchComplete id s)

/-! ## Packets (R332 to R334, R345) -/

/-- A packet's patches: node, slot, value (R345). (assumption 47, DEDUCED) -/
def patchesOf (bs : List Byte) : List (Nat × Nat × DWord) :=
  (List.range (fr bs 24 1)).map (fun k => (fr bs (32 + 16 * k) 2, fr bs (34 + 16 * k) 1, .ofNat 64 (fr bs (40 + 16 * k) 8)))

/-- Whether a launch packet is rejected with BAD_PACKET (R333, R344, R345): the reserved bytes of both patches are tested,
whatever the count. -/
def packetBad (g : Option Graph) (bs : List Byte) : Bool :=
  match g with
  | none => true
  | some g =>
    fr bs 2 2 != 0 || decide (2 < fr bs 24 1) || fr bs 25 7 != 0 ||
    (List.range 2).any (fun k => fr bs (35 + 16 * k) 5 != 0) ||
    (patchesOf bs).any (fun p => decide (g.nodes.length ≤ p.1) || decide (16 ≤ p.2.1))

/-- The parameter slots of an instance: the graph's, then the patches in order (R345). -/
def patchParams (g : Graph) (bs : List Byte) : List (List DWord) :=
  (patchesOf bs).foldl (fun ps p => setAt [] ps p.1 (setAt 0 (getAt [] ps p.1) p.2.1 p.2.2)) (g.nodes.map (fun n => n.slots))

/-- A packet read that faults (R334): a record with the packet's index, and the queue in ERROR with RD at the packet. -/
def packetFault (s : State) (q : Queue) : State := finishRec (putQueue s { q with st := 2 }) q.num (q.rd.setWidth 64) 3 0 false

/-- Whether the Ringmaster reads a queue's next packet (R331, R332, R335). -/
def mayAccept (s : State) (q : Queue) : Bool :=
  q.kind == 0 && q.st == 1 && q.rd != q.wr && ((ctxOf s q.ctx).st == .runnable || (ctxOf s q.ctx).st == .running) && !(recsFull s q)

/-- The address of a queue's next packet. -/
def packetAt (q : Queue) : Nat := q.base.toNat + 64 * (q.rd.toNat % qSlots q)

/-- PACKET_ACCEPT (R332 to R335, R344 to R346); a no-operation's reserved bytes are not tested. (assumption 44, DEDUCED; assumption
128, DESIGN CHOICE) -/
def duePacketAccept (n : Nat) (s : State) : Option State :=
  match queueFind s n with
  | none => none
  | some q =>
    let x := ctxOf s q.ctx
    if mayAccept s q then
      match devRead s q.ctx (packetAt q) 64 with
      | .error _ => some (packetFault s q)
      | .ok bs =>
        let s := putQueue s { q with rd := q.rd + 1 }
        let tag : DWord := .ofNat 64 (fr bs 8 8)
        let g := graphFind s q.ctx (fr bs 4 4)
        if fr bs 0 2 = 2 then some (finishRec s n tag 0 0 false)
        else if fr bs 0 2 ≠ 1 ∨ packetBad g bs = true then some (finishRec s n tag 4 0 false)
        else
          match g with
          | none => some (finishRec s n tag 4 0 false)
          | some g =>
            let (id, s) := takeFresh s
            let i : Inst :=
              { id := id, ctx := q.ctx, graph := g.num, queue := n, tag := tag, seed := .ofNat 64 (fr bs 16 8), acc := x.acc
                params := patchParams g bs, nodes := g.nodes.map (fun _ => .waiting), batches := g.nodes.map (fun _ => 0) }
            some (setCtx { s with insts := s.insts ++ [i] } q.ctx { x with acc := x.acc + 1 })
    else none

/-- PACKET_ACCEPT, which takes place where it is due. -/
def execPacketAccept (n : Nat) (s : State) : Host.Outcome State Fault Refusal := takes s (duePacketAccept n s)

/-! ## Record queues (R337 to R340) -/

/-- The record edge e of the node whose launch a warp belongs to: its instance, place, edge. -/
def warpEdge (s : State) (w : Warp) (e : Nat) : Option (Inst × Nat × Edge) :=
  match launchOf s w.launch with
  | none => none
  | some l =>
    match instFind s l.inst with
    | none => none
    | some x =>
      match graphFind s x.ctx x.graph with
      | none => none
      | some g => ((edgesOf g).find? (fun k => k.2.src == l.node && k.2.record && k.2.e == e)).map (fun k => (x, k.1, k.2))

/-- QEMIT (R339): the warp is held until the record has arrived; records on their way count as places taken. (assumption 129, DESIGN
CHOICE) -/
def execQemit (g : Grp) (o : OpsS) (s : State) : Host.Outcome State Fault Refusal :=
  issueAs s (.qemit g o) (fun s i =>
    match i.c.body with
    | .S o =>
      let w := i.w
      if !(releaseReady s w 6) then .held s (retryHold w)
      else
        let e := (i.s o.sb.toNat).toNat
        match (if 8 ≤ e then none else warpEdge s w e) with
        | none => .ok { s := s, w := w, sc := [(o.sd.toNat, 2)], lat := 0 }
        | some (x, k, ed) =>
          if 2 ^ ed.log2cap ≤ (recqOf x k).length + (x.flying.filter (fun f => f.2.1 == k)).length then
            .ok { s := s, w := w, sc := [(o.sd.toNat, 1)], lat := 0 }
          else
            let (id, s) := takeFresh s
            let r := (List.range 4).map (fun n => i.s (o.sa.toNat + n))
            .ok { s := setInst s { x with flying := x.flying ++ [(id, k, r)] }, w := { w with holds := .op id :: w.holds }
                  sc := [(o.sd.toNat, 0)], lat := 0 }
    | _ => .held s i.w)

/-- RECORD_ARRIVAL (R337, R339, R346): the record joins the queue, and a batch forms at the threshold. -/
def dueRecordArrival (id : Nat) (s : State) : Option State :=
  match s.insts.find? (fun x => x.flying.any (fun f => f.1 == id)) with
  | none => none
  | some x =>
    match x.flying.find? (fun f => f.1 == id) with
    | none => none
    | some (_, k, r) =>
      let x := { x with flying := x.flying.filter (fun f => !(f.1 == id)), recq := putKey k (recqOf x k ++ [r]) x.recq }
      let s := { s with warps := s.warps.map (fun w => { w with holds := w.holds.filter (fun h => !(h == .op id)) }) }
      some (runInst (setInst s x) x.id)

/-- RECORD_ARRIVAL, which takes place where it is due. -/
def execRecordArrival (id : Nat) (s : State) : Host.Outcome State Fault Refusal := takes s (dueRecordArrival id s)

/-- QREAD (R340). -/
def execQread (g : Grp) (o : OpsS) (s : State) : Host.Outcome State Fault Refusal :=
  issueAs s (.qread g o) (fun s i =>
    match i.c.body with
    | .S o =>
      let b := match launchOf s i.w.launch with | some l => l.batch | none => []
      let n := (i.s o.sa.toNat).toNat
      let r := getAt [] b n
      let sd := o.sd.toNat
      .ok { s := s, w := i.w
            sc := (List.range 4).map (fun k => (sd + k, getAt 0 r k)) ++ [(sd + 4, .ofNat 64 b.length)], lat := 0 }
    | _ => .held s i.w)

end Sys2Proof.Machine
end

