-- ==== Sys2Proof/Machine/Save.lean ====
section
/-! DEFINITION. Saving and reloading: the frames of stopped warps, blocks in their save areas, the return of both, leapfrogged
parents, and the completion of warps and blocks (15_context.md R325 to R329, R525; 24_tile.md R471; 04_thread.md R123;
18_group.md R353; 19_task.md R371, R375; 14_page.md R303). -/

namespace Sys2Proof.Machine

/-! ## Warps (R303, R325) -/

/-- A warp whose state stands in its frame: it holds no register, slot or latch. -/
def parkWarp (w : Warp) (p : Place) : Warp :=
  { w with place := p, stack := [], chain := none, x := [], attempt := {}, yielded := false, starve := 0, entryWait := 0
           earlyV := [], earlyS := [], earlyM := [], holds := [], parked := [], noPrev := true, desched := false, notBefore := 0, flagAt := []
           stopped := false, forced := false, haltInfo := none, stepSet := none, f := List.replicate 12 0, marked := false
           regs := { w.regs with v := noRegs, order := [] } }

/-- Writes a quiet warp's frame with a zero cause word and takes it off its core (R303, R318, R325). -/
def saveWarp (s : State) (w : Warp) (p : Place) : State :=
  match writeFrame s w none with
  | .error (k, s) =>
    ctxFault (offRecords (setWarp s (parkWarp w p)) w.ctx (fun n => n == w.num)) w.ctx k (some w.core) (some w.num) (.ofNat 64 (frameAddr s w))
  | .ok s => offRecords (setWarp s (parkWarp w p)) w.ctx (fun n => n == w.num)

/-- Whether nothing of a warp is still under way that a save waits for (R318 step 1, R325, R393). -/
def settled (s : State) (w : Warp) : Bool :=
  quiet w && w.rupds.isEmpty && w.relq.isEmpty && w.arrivals.isEmpty && w.stores.isEmpty && !scratchOut s w &&
  !(w.holds.any (fun h => match h with | .op _ => true | .tid _ => true | .check => true | _ => false))

/-- A saved warp comes back to a core from its frame (R304, R329): a frame that TRET would refuse is DOUBLE_TRAP; its
registers map again or stand SPILLED; then the acquire. -/
def reloadWarp (s : State) (w : Warp) (core slot : Nat) (p : Place) (scope : Nat) : State :=
  let w := { w with core := core, slot := slot, place := p }
  match readFrame s w with
  | .error k => ctxFault (setWarp s w) w.ctx k (some core) (some w.num) (.ofNat 64 (frameAddr s w))
  | .ok bs =>
    if frameBad w bs then ctxFault (setWarp s w) w.ctx .doubleTrap (some core) (some w.num) 0
    else
      let w := loadFrame w bs
      let s := setWarp s { w with regs := { w.regs with v := noRegs, order := [] } }
      let x := ctxOf s w.ctx
      let halt := x.haltSet.contains w.num || x.st == .halted
      let s := if x.st = .runnable then setCtx s w.ctx { x with st := .running } else s
      match remap s w with
      | .failed k s v => poolFault (setWarp s w) v k
      | .noRoom => s
      | .ok s w =>
        let s := setWarp s { w with halted := if halt then some (w.halted.getD 0) else w.halted }
        let y := ctxOf s w.ctx
        acquireAction (setCtx s w.ctx { y with haltSet := y.haltSet.filter (fun n => !(n == w.num)) }) core scope none

/-! ## Blocks (R327, R328, R471, R525) -/

/-- The base of a block's save area (R327). -/
def blockBase (x : Ctx) (n : Nat) : Nat := (saveBase x + n) * 2 ^ 20

/-- Whether a tile or a plane of a block is saved (R328). -/
def kept (b : Block) (n : Nat) : Bool := !b.ppIn || b.ppMask.getLsbD n

/-- The bytes of a tile's elements: element (m, n) at 4 × (64m + n) (R471). -/
def tileBytes (t : Tile) : List Byte := tileIdx.flatMap (fun p => natLe 4 (tileEl t p.1 p.2).toNat)

/-- The bytes of a plane: weight (k, n) at 4 × (64k + n) (R471). -/
def planeBytes (p : Plane) : List Byte :=
  (List.range (64 * planeK p.mode)).flatMap (fun i =>
    match (p.w.drop i).head? with
    | some (c, sc) => natLe 2 c.toNat ++ natLe 1 sc.toNat ++ [0]
    | none => natLe 4 0)

/-- The code of a tile's format (R471). -/
def fmtCode : TileFmt → Nat
  | .fp32 => 0 | .f16 => 1 | .i32 => 2

/-- The 64 bytes of a tile's record (R471). -/
def tileRec (t : Tile) : List Byte :=
  let st := match t.stamp with | some r => 1 + 2 * bit r.wait.isSome + 4 * bit r.compute.isSome | none => 0
  natLe 1 (fmtCode t.fmt) ++ natLe 1 t.flags.toNat ++ natLe 1 st ++ [0] ++
  (match t.stamp with
   | some r => natLe 2 r.tag.toNat ++ [0, 0] ++ natLe 8 r.copyin.toNat ++ natLe 8 (r.wait.getD 0).toNat ++
       natLe 8 (r.compute.getD 0).toNat ++ natLe 4 r.warp
   | none => List.replicate 32 0) ++ List.replicate 28 0

/-- Index of a warp in its block. -/
def warpK (s : State) (c n : Nat) : Nat := match warpFind s c n with | some w => w.k | none => 0

/-- A saved bulk copy (R525). -/
def bulkRec (s : State) (k : Copy) : List Byte :=
  natLe 1 (match k.kind with | .cpy => 0 | .cpymx => 1 | _ => 2) ++ natLe 1 (warpK s k.ctx k.warp) ++
  natLe 2 (match k.slot with | some (_, n) => n | none => 0xFFFF) ++ natLe 4 k.batch.toNat ++
  ((List.range 4).map (fun n => natLe 8 (getAt 0 k.desc n).toNat)).flatten ++
  ((List.range 2).map (fun n => natLe 8 (getAt 0 k.cmd n).toNat)).flatten ++ List.replicate 8 0

/-- A saved lane copy (R525). -/
def laneRec (s : State) (k : Copy) : List Byte :=
  natLe 8 k.lanesrc.toNat ++ natLe 4 k.scr ++ natLe 4 (k.sync.getD 0) ++ natLe 4 k.batch.toNat ++ natLe 1 (warpK s k.ctx k.warp) ++
  natLe 1 (match k.kind with | .cpy16 l => l | _ => 0) ++ [0, 0]

def isLaneCopy (k : Copy) : Bool := match k.kind with | .cpy16 _ => true | _ => false

/-- The block record at 1008 KiB (R525). -/
def blockRec (s : State) (b : Block) : List Byte :=
  let ks := s.copies.filter (fun k => k.ctx == b.ctx && k.blk == some b.num)
  let bulk := ks.filter (fun k => !isLaneCopy k)
  let lanes := ks.filter isLaneCopy
  let pad (bs : List Byte) (n : Nat) : List Byte := bs ++ List.replicate (n - bs.length) 0
  ((List.range 3).map (fun n => natLe 1 (getAt 0 b.roles n))).flatten ++
  ((List.range 3).map (fun n => natLe 1 (getAt 0 b.caps n))).flatten ++
  natLe 1 b.producer ++ natLe 1 (bit b.fuse) ++
  natLe 4 (if b.ppIn then b.ppMask.toNat + 2 ^ 31 else 0) ++ natLe 2 b.warps.length ++ natLe 2 bulk.length ++ natLe 2 lanes.length ++
  List.replicate 14 0 ++ pad ((b.warps.map (fun n => natLe 4 n)).flatten) 384 ++ List.replicate 96 0 ++
  pad ((bulk.map (bulkRec s)).flatten) 4096 ++ pad ((lanes.map (laneRec s)).flatten) 6144 ++ List.replicate 5632 0

/-- What a block's save area holds, in pieces: offset and bytes (R327, R471, R525). -/
def blockImage (s : State) (b : Block) : List (Nat × List Byte) :=
  let tiles := (List.range 16).map (fun n => if kept b n then getAt {} b.tile n else {})
  let act := if kept b 16 then b.active else {}
  let sha := if kept b 17 then b.shadow else {}
  [(0, scrBytes b 0 b.scrLen)] ++
  ((List.range 16).zip tiles).map (fun p => (2 ^ 19 + 2 ^ 14 * p.1, tileBytes p.2)) ++
  [(768 * 1024, planeBytes act), (800 * 1024, planeBytes sha)] ++
  ((List.range 16).zip tiles).map (fun p => (832 * 1024 + 64 * p.1, tileRec p.2)) ++
  [(833 * 1024, natLe 1 act.mode ++ natLe 1 sha.mode), (1008 * 1024, blockRec s b)]

/-- Whether a block can be saved: its warps are, its queue is empty, its copies have finished or not begun (R325, R327,
R471). -/
def blockReady (s : State) (b : Block) : Bool :=
  b.queue.isEmpty && b.scrq.isEmpty && b.mxWait.all (fun x => x.1) && b.follows.all (fun f => !f.landed) &&
  !(s.copies.any (fun k => k.ctx == b.ctx && k.blk == some b.num && k.started)) &&
  s.warps.all (fun w => !(w.ctx == b.ctx && w.blk == some b.num) || (match w.place with | .saved => true | .leapSaved _ => true | _ => false))

/-- Writes pieces of a save area; a fault is context-level. -/
def writePieces (s : State) (c base : Nat) : List (Nat × List Byte) → State
  | [] => s
  | p :: ps =>
    match devWrite s c (base + p.1) p.2 with
    | .ok s => writePieces s c base ps
    | .error (k, s) => ctxFault s c k none none (.ofNat 64 (base + p.1))

/-- Saves a block: its resources are free, its copies wait for it (R327). A record open on a saved tile notes it (R471). -/
def saveBlock (s : State) (b : Block) : State :=
  let s := writePieces s b.ctx (blockBase (ctxOf s b.ctx) b.num) (blockImage s b)
  let s := { s with copies := s.copies.map (fun k => if k.ctx = b.ctx ∧ k.blk = some b.num then { k with saved := true } else k) }
  setBlock s { b with saved := true, scr := [], tile := [], active := {}, shadow := {}, mxWait := []
                      tiles := b.tiles }

/-- The nonzero elements of a saved tile. -/
def tileEls (bs : List Byte) : List (Nat × Word) :=
  (List.range 4096).filterMap (fun i => let v := fr bs (4 * i) 4; if v = 0 then none else some (i, .ofNat 32 v))

/-- A tile from its elements and its record (R471); an open record notes the pre-emption. -/
def loadTile (els r : List Byte) : Tile :=
  { fmt := if fr r 0 1 = 1 then .f16 else if fr r 0 1 = 2 then .i32 else .fp32
    flags := .ofNat 3 (fr r 1 1), el := tileEls els
    stamp := if fr r 2 1 % 2 = 0 then none else
      some { tag := .ofNat 16 (fr r 4 2), warp := fr r 32 4, copyin := .ofNat 64 (fr r 8 8)
             wait := if fr r 2 1 / 2 % 2 = 1 then some (.ofNat 64 (fr r 16 8)) else none
             compute := if fr r 2 1 / 4 % 2 = 1 then some (.ofNat 64 (fr r 24 8)) else none
             preempted := true } }

/-- A plane from its bytes. -/
def loadPlane (mode : Nat) (bs : List Byte) : Plane :=
  if mode = 0 ∨ 5 < mode then {}
  else { mode := mode, w := (List.range (64 * planeK mode)).map (fun i => (.ofNat 16 (fr bs (4 * i) 2), .ofNat 8 (fr bs (4 * i + 2) 1))) }

/-- The nonzero cells of a run of bytes from offset 0 on. -/
def cellsOf (bs : List Byte) : List Host.Cell := memWrite [] 0 bs

/-- Reads a saved block back (R329, R471). -/
def loadBlock (s : State) (b : Block) : Except Cause Block :=
  let base := blockBase (ctxOf s b.ctx) b.num
  match devRead s b.ctx base b.scrLen, devRead s b.ctx (base + 2 ^ 19) (2 ^ 18), devRead s b.ctx (base + 3 * 2 ^ 18) (66 * 1024) with
  | .ok scr, .ok els, .ok mx =>
    .ok { b with
      saved := false, scr := cellsOf scr
      tile := (List.range 16).map (fun n => loadTile ((els.drop (2 ^ 14 * n)).take (2 ^ 14)) ((mx.drop (64 * 1024 + 64 * n)).take 64))
      active := loadPlane (fr mx (65 * 1024) 1) (mx.take (32 * 1024))
      shadow := loadPlane (fr mx (65 * 1024 + 1) 1) ((mx.drop (32 * 1024)).take (32 * 1024)) }
  | .error k, _, _ => .error k
  | _, .error k, _ => .error k
  | _, _, .error k => .error k

/-! ## Completion (R123, R316, R353, R371, R375) -/

/-- The parent that is saved while a warp runs inline in its slot (R375). -/
def leapParent (s : State) (w : Warp) : Option Warp := s.warps.find? (fun p => p.ctx == w.ctx && p.place == .leapSaved w.num)

/-- A parent returns from leapfrogging (R375): to the slot of the child that has completed, or, where a pre-emption has parted the
child from the parent's block, to the block's core once a slot is free there (R329). -/
def leapBack (s : State) (w p : Warp) : State :=
  match p.blk.bind (blockFind s p.ctx) with
  | some b =>
    if b.core = w.core ∧ b.saved = false then reloadWarp s p w.core w.slot .resident 1 else setWarp s { p with place := .saved, core := b.core }
  | none => reloadWarp s p w.core w.slot .resident 1

/-- A completed warp leaves (R123, R133, R312): its task goes on without it, its parent returns to the slot, deferred
causes not delivered are context-level. -/
def completeWarp (s : State) (w : Warp) : State :=
  let parent := leapParent s w
  let s := { s with
    warps := s.warps.filter (fun x => !(x.ctx == w.ctx && x.num == w.num))
    lastWarp := s.lastWarp.filter (fun r => !(r.2.1 == w.ctx && r.2.2 == w.num))
    blocks := s.blocks.map (fun b => if b.ctx = w.ctx ∧ some b.num = w.blk then
      { b with liveWarps := b.liveWarps - 1, mxWait := b.mxWait.filter (fun x => !(x == (true, w.num))) } else b) }
  let s := match w.task.bind (taskFind s) with
    | some t => setTask s { t with warpDone := true, warp := none, mergeEpoch := some (epochOfTask s t)
                                   st := if (taskStrand s t).kids = 0 then t.st else .draining }
    | none => s
  let s := match parent with
    | some p => leapBack s w p
    | none => s
  w.deferred.foldl (fun s d => ctxFault s w.ctx d.1 (some w.core) (some w.num) d.2) s

/-- Whether a warp has completed and has nothing under way. (assumption 52, DEDUCED) -/
def warpOver (s : State) (w : Warp) : Bool :=
  live w == 0 && settled s w && w.halted.isNone && (match w.place with | .resident => true | .landed => true | _ => false) &&
  !(s.copies.any (fun k => k.ctx == w.ctx && k.warp == w.num)) &&
  s.blocks.all (fun b => !(b.ctx == w.ctx && some b.num == w.blk) || (b.queue.all (fun q => q.warp != w.num) && b.follows.all (fun f => f.warp != w.num)))

/-- Frees blocks whose warps have completed (R353, R257): the launch has one block fewer, and a fusion ends with its
cluster's last block. (assumption 35, DEDUCED) -/
def reapBlocks (s : State) : State :=
  (s.blocks.filter (fun b => b.liveWarps == 0 && b.queue.isEmpty && b.follows.isEmpty &&
      !(s.copies.any (fun k => k.ctx == b.ctx && k.blk == some b.num)))).foldl (fun s b =>
    let s := { s with
      blocks := s.blocks.filter (fun x => !(x.ctx == b.ctx && x.num == b.num))
      launches := s.launches.map (fun l => if l.id = b.launch then { l with liveBlocks := l.liveBlocks - 1 } else l) }
    if b.fuse && !(s.blocks.any (fun x => x.launch == b.launch && !x.saved && clusterOf x.core == clusterOf b.core)) then
      let own := 0x400 + clusterOf b.core
      { flushOwner s own with fused := s.fused.filter (fun f => !(f.1 == clusterOf b.core)) }
    else s) s

end Sys2Proof.Machine
end

