-- ==== Sys2Proof/Machine/Grants.lean ====
section
/-! DEFINITION. Residency: grants of cluster groups and of saved blocks, the wait of a group that does not fit, and the
dispatch of tasks to warp slots (18_group.md R350 to R358; 15_context.md R329; 19_task.md R374, R376, R377). -/

namespace Sys2Proof.Machine

/-! ## What a core has free (R353) -/

/-- Whether work may run on a core: its quadrant's island is ON and it is not fenced (R30, R37). (assumption 78, DEDUCED) -/
def coreUsable (s : State) (core : Nat) : Bool :=
  decide (core < 1024) && !(s.fenced.contains core) && !(s.sparing.contains core) && (let x := getAt ({} : Island) s.islands (quadOf core); x.st == 0 && !(x.busy && x.toSt != 0))

/-- The free general warp slots of a core, ascending. -/
def freeSlots (s : State) (core : Nat) : List Nat := (List.range 96).filter (slotFree s core)

/-- F of a core (R144). -/
def coreFree (s : State) (core : Nat) : Nat := Config.poolSize - (((residents s core).map holding).foldl (· + ·) 0)

/-- The blocks that hold resources of a core. -/
def blocksOn (s : State) (core : Nat) : List Block := s.blocks.filter (fun b => b.core == core && !b.saved)

/-- The lowest free scratchpad offset for n bytes at a multiple of 256 (R353). -/
def scrFit (bs : List Block) (n : Nat) : Nat → Nat → Option Nat
  | 0, _ => none
  | f + 1, off =>
    if Config.scratchLimit < off + n then none
    else
      match bs.find? (fun b => spansMeet off n b.scrBase b.scrLen) with
      | none => some off
      | some b => scrFit bs n f ((b.scrBase + b.scrLen + 255) / 256 * 256)

/-- The offset where a block of n bytes of scratchpad goes. -/
def scrPlace (s : State) (core n : Nat) : Option Nat :=
  if n = 0 then some 0 else scrFit (blocksOn s core) n ((blocksOn s core).length + 1) 0

/-- A warp's role by its index in its block (R355): 0 none, 1 copy, 2 matrix, 3 epilogue. -/
def roleOf (roles : List Nat) (k : Nat) : Nat :=
  let a := getAt 0 roles 0
  let b := a + getAt 0 roles 1
  if b + getAt 0 roles 2 = 0 then 0 else if k < a then 1 else if k < b then 2 else 3

/-- A warp's register cap and effective floor (R355); cap 0 stands for no role. -/
def capOf (n : Node) (k : Nat) : Nat := if roleOf n.roles k = 0 then 0 else getAt 0 n.caps (roleOf n.roles k - 1)
def floorOf (n : Node) (k : Nat) : Nat := if roleOf n.roles k = 0 then n.floor else min n.floor (capOf n k)

/-- The registers that a block's warps are promised. -/
def blockFloor (n : Node) : Nat := ((List.range (nodeWarps n)).map (floorOf n)).foldl (· + ·) 0

/-- The scratchpad bytes of a node's block: `.scratch`, a multiple of 256 (R342). -/
def nodeScratch (n : Node) : Nat := n.scratch

/-- Whether a core has room for a block of a node (R353). -/
def coreFits (s : State) (n : Node) (core : Nat) : Bool :=
  coreUsable s core && !(isFused s core) && decide (nodeWarps n ≤ (freeSlots s core).length) && decide (blockFloor n ≤ coreFree s core) &&
  (scrPlace s core (nodeScratch n)).isSome &&
  decide (((blocksOn s core).map (fun b => b.tiles)).foldl (· + ·) 0 + n.tiles ≤ 16)

/-- Whether no warp stands on a cluster, and none is to come back to a core of it behind a spare (R357, R36). -/
def clusterIdle (s : State) (cl : Nat) : Bool :=
  (List.range 4).all (fun j => (residents s (4 * cl + j)).isEmpty && !(s.sparing.contains (4 * cl + j))) && !(s.fused.any (fun f => f.1 == cl))

/-- Whether some cores of one cluster may take as many blocks of a node (R353, R357). -/
def groupFits (s : State) (n : Node) (cores : List Nat) : Bool :=
  match cores with
  | [] => false
  | c :: _ => cores.all (fun x => clusterOf x == clusterOf c && coreFits s n x) && (dedup cores).length == cores.length &&
      (!n.fuse || clusterIdle s (clusterOf c))

/-- Whether the numbers that a group needs are free (R312). -/
def numbersFit (s : State) (c blocks warps : Nat) : Bool :=
  decide ((s.blocks.filter (fun b => b.ctx == c)).length + blocks ≤ limBlocks (ctxOf s c)) &&
  decide ((s.warps.filter (fun w => w.ctx == c)).length + warps ≤ limWarps (ctxOf s c))

/-- Whether a cluster has room for a group of k blocks. -/
def clusterFits (s : State) (n : Node) (k cl : Nat) : Bool :=
  decide (k ≤ ((List.range 4).filter (fun j => coreFits s n (4 * cl + j))).length) && (!n.fuse || clusterIdle s cl)

/-- The physical die of a launch's next group (R350, R354). -/
def nextDie (n : Node) (l : Launch) : Nat := getAt 0 l.dies (l.next / (n.cblocks * n.dclust))

/-- Whether a launch has a group not yet granted. -/
def groupWaits (n : Node) (l : Launch) : Bool := decide (l.next < nodeBlocks n)

/-- Whether a launch's next group fits on its die at this moment. -/
def nextFits (s : State) (n : Node) (l : Launch) : Bool :=
  numbersFit s l.ctx n.cblocks (n.cblocks * nodeWarps n) &&
  (List.range 32).any (fun k => clusterFits s n n.cblocks (nextDie n l * 32 + k))

/-- Whether a launch precedes another in dispatch order (R354): by priority, then first in first out. -/
def goesBefore (s : State) (a b : Launch) : Bool :=
  let p := prioOf (ctxOf s a.ctx)
  let q := prioOf (ctxOf s b.ctx)
  decide (q < p) || (p == q && decide ((s.launches.takeWhile (fun x => x.id != a.id)).length < (s.launches.takeWhile (fun x => x.id != b.id)).length))

/-- The saved blocks of a launch's first cluster group that has any (R329, R358). -/
def savedGroup (s : State) (n : Node) (l : Launch) : List Block :=
  let bs := s.blocks.filter (fun b => b.launch == l.id && b.ctx == l.ctx && b.saved)
  let low := bs.foldl (fun m b => min m (b.linear / n.cblocks)) (nodeBlocks n)
  bs.filter (fun b => b.linear / n.cblocks == low)

/-- Whether some cluster of a die has room for a launch's saved group (R329). -/
def savedFits (s : State) (n : Node) (l : Launch) (die : Nat) : Bool :=
  let k := (savedGroup s n l).length
  k != 0 && (List.range 32).any (fun j => clusterFits s n k (die * 32 + j))

/-- Whether an earlier launch's group forbids a grant on a die (R324, R329, R354): a waiting one that fits or has waited 100 µs, or a
saved one that fits. -/
def yieldsTo (s : State) (l : Launch) (die : Nat) : Bool :=
  s.launches.any (fun a => a.id != l.id && dispatching (ctxOf s a.ctx) && !(stopsLaunch s a.id) && goesBefore s a l &&
    (match nodeOf s a with
     | none => false
     | some n => savedFits s n a die || (groupWaits n a && nextDie n a == die && (a.barred || nextFits s n a))))

/-! ## Granting (R347, R351, R352, R354 to R358) -/

/-- The scalars of a warp at its dispatch (R347). -/
def launchScalars (n : Node) (ps : List DWord) (k : Nat) : List DWord :=
  (List.range 16).map (fun i =>
    let v := getAt 0 ps i
    if n.pmode.toNat / 4 ^ i % 4 = 1 then v + .ofNat 64 (k * n.stride.toNat) else v) ++ List.replicate 48 0

/-- Starts warp k of a block in a slot: its root task and record with it (R346, R352, R354, R363, R366). (assumption 9, DESIGN CHOICE) -/
def startWarp (s : State) (l : Launch) (n : Node) (ps : List DWord) (b : Block) (k slot : Nat) : State :=
  match freeWarp s l.ctx with
  | none => s
  | some num =>
    let x := ctxOf s l.ctx
    let lin := b.linear * nodeWarps n + k
    let (tid, s) := takeFresh s
    let role := roleOf n.roles k
    let w : Warp := { newWarp x l.ctx num b.core slot with
      launch := l.id, blk := some b.num, task := some tid, k := k, linear := lin
      pc := List.replicate 32 n.entry
      exited := mkMask (fun i => decide (n.bthreads ≤ 32 * k + i))
      regs := { v := noRegs, s := launchScalars n ps k, m := List.replicate 16 0 }
      role := .ofNat 2 role, cap := capOf n k, floor := floorOf n k, age := ⟨l.seq, false, .ofNat 64 lin⟩
      stream := if n.producer ≠ 0 ∧ 0 < getAt 0 n.roles (n.producer - 1) then role == n.producer else k == 0 }
    let e : Strand := { root := tid, ped := [.ofNat 32 lin], st := 1, launch := l.id, key := extendKey l.key (.ofNat 32 lin) }
    let t : Task := { id := tid, ctx := l.ctx, launch := l.id, st := .running, entry := n.entry, warp := some num, home := b.core }
    let s := setCtx s l.ctx { x with roots := putKey tid e x.roots, st := if x.st = .runnable then .running else x.st }
    { s with
      warps := s.warps ++ [w], tasks := s.tasks ++ [t]
      blocks := s.blocks.map (fun y => if y.ctx = b.ctx ∧ y.num = b.num then { y with warps := y.warps ++ [num], liveWarps := y.liveWarps + 1 } else y)
      launches := s.launches.map (fun y => if y.id = l.id then { y with rootsOpen := y.rootsOpen + 1 } else y) }

/-- Grants one block on a core (R353, R354); its warps see what came before the launch, by an acquire of the core (R270, R273,
R339). -/
def grantBlock (s : State) (l : Launch) (n : Node) (ps : List DWord) (linear core : Nat) : State :=
  let used := (s.blocks.filter (fun b => b.ctx == l.ctx)).map (fun b => b.num)
  let b : Block :=
    { ctx := l.ctx, num := lowestFree used used.length 0, launch := l.id, linear := linear, core := core
      scrLen := nodeScratch n, scrBase := (scrPlace s core (nodeScratch n)).getD 0, tiles := n.tiles
      tile := List.replicate n.tiles {}, roles := n.roles, caps := n.caps, producer := n.producer, fuse := n.fuse }
  let slots := freeSlots s core
  let s := { s with
    blocks := s.blocks ++ [b]
    launches := s.launches.map (fun y => if y.id = l.id then { y with next := y.next + 1, liveBlocks := y.liveBlocks + 1, barred := false } else y) }
  acquireAction ((List.range (nodeWarps n)).foldl (fun s k => startWarp s l n ps b k (getAt 0 slots k)) s) core 6 none

/-- Fuses a cluster for a group of a launch (R257, R357): every word of its L1s is given up first. -/
def fuseCluster (s : State) (cl launch : Nat) : State :=
  let s := (List.range 4).foldl (fun s j => flushOwner s (4 * cl + j)) s
  { s with fused := (cl, launch) :: s.fused }

/-- Brings a saved block back to a core with all its warps (R329); a parent saved for leapfrogging belongs to that core from now on. -/
def regrantBlock (s : State) (n : Node) (b : Block) (core : Nat) : State :=
  match loadBlock s b with
  | .error k => ctxFault s b.ctx k (some core) none (.ofNat 64 (blockBase (ctxOf s b.ctx) b.num))
  | .ok b =>
    let slots := freeSlots s core
    let off := (scrPlace s core (nodeScratch n)).getD 0
    let b : Block := { b with core := core, scrBase := off }
    let s := setBlock s b
    let s := { s with copies := s.copies.map (fun (k : Copy) => if k.ctx = b.ctx ∧ k.blk = some b.num then { k with saved := false, core := core } else k) }
    let ws := s.warps.filter (fun w => w.ctx == b.ctx && w.blk == some b.num && w.place == .saved)
    let s := { s with warps := s.warps.map (fun w =>
      if w.ctx = b.ctx ∧ w.blk = some b.num ∧ (match w.place with | .leapSaved _ => true | _ => false) = true then { w with core := core } else w) }
    (ws.zip slots).foldl (fun s p => reloadWarp s p.1 core p.2 .resident 11) s

/-- Grants a group: the saved one of a launch that has any, or its next. -/
def grantGroup (s : State) (l : Launch) (n : Node) (ps : List DWord) (cores : List Nat) : State :=
  let cl := clusterOf (getAt 0 cores 0)
  let s := if n.fuse then fuseCluster s cl l.id else s
  match savedGroup s n l with
  | [] => ((List.range n.cblocks).zip cores).foldl (fun s p => grantBlock s l n ps (l.next + p.1) p.2) s
  | bs => (bs.zip cores).foldl (fun s p => regrantBlock s n p.1 p.2) s

/-- BLOCK_GRANT (R329, R350 to R358). -/
def dueBlockGrant (id : Nat) (cores : List Nat) (s : State) : Option State :=
  match launchOf s id with
  | none => none
  | some l =>
    match nodeOf s l, instFind s l.inst with
    | some n, some x =>
      let die := dieOf (getAt 0 cores 0)
      let saved := savedGroup s n l
      let mayNew := groupWaits n l && cores.length == n.cblocks && die == nextDie n l && numbersFit s l.ctx n.cblocks (n.cblocks * nodeWarps n)
      if dispatching (ctxOf s l.ctx) && !(stopsLaunch s id) && groupFits s n cores && !(yieldsTo s l die) &&
          (if saved.isEmpty then mayNew else cores.length == saved.length) then
        some (grantGroup s l n (getAt [] x.params l.node) cores)
      else none
    | _, _ => none

/-- BLOCK_GRANT, which takes place where it is due. -/
def execBlockGrant (id : Nat) (cores : List Nat) (s : State) : Host.Outcome State Fault Refusal := takes s (dueBlockGrant id cores s)

/-- GRANT_WAIT_EXPIRY (R354). -/
def execGrantWaitExpiry (id : Nat) (s : State) : Host.Outcome State Fault Refusal :=
  match launchOf s id with
  | none => .next s
  | some l =>
    match nodeOf s l with
    | some n =>
      if groupWaits n l && dispatching (ctxOf s l.ctx) && !l.barred && !(nextFits s n l) then .next (setLaunch s { l with barred := true })
      else .next s
    | none => .next s

/-! ## Tasks (R329, R374, R376, R377) -/

/-- Whether a group may be granted on a core at this moment, and so has its slots (R354, R377). -/
def groupTakes (s : State) (core : Nat) : Bool :=
  s.launches.any (fun a => dispatching (ctxOf s a.ctx) && !(stopsLaunch s a.id) &&
    (match nodeOf s a with
     | none => false
     | some n => coreFits s n core && !(yieldsTo s a (dieOf core)) &&
       (let k := (savedGroup s n a).length
        if k = 0 then groupWaits n a && nextDie n a == dieOf core && numbersFit s a.ctx n.cblocks (n.cblocks * nodeWarps n) &&
          clusterFits s n n.cblocks (clusterOf core)
        else clusterFits s n k (clusterOf core))))

/-- Whether a slot of a core may take a task of a context at this moment (R354, R357, R377). -/
def taskSlot (s : State) (c core slot : Nat) : Bool :=
  dispatching (ctxOf s c) && slotFree s core slot && coreUsable s core && !(isFused s core) && !(haltedDie s c (dieOf core)) &&
  !(barredFor s (dieOf core) c) && !(groupTakes s core)

/-- The task that a core may start in a slot (R376, R377): the bottom of its own deque, or the top of a victim's. -/
def taskPick (s : State) (core : Nat) (victim : Option Nat) : Option Task :=
  ((match victim with
    | none => (dequeOf s core).head?
    | some v => if v ≠ core ∧ (dequeOf s core).isEmpty = true then (dequeOf s v).getLast? else none).bind (taskFind s)).filter
    (fun t => !(stopsLaunch s t.launch))

/-- Whether the work of one launch precedes that of another by their numbers (R354). -/
def idBefore (s : State) (a b : Nat) : Bool :=
  match launchOf s a, launchOf s b with
  | some x, some y => goesBefore s x y
  | _, _ => false

/-- Whether a task of another context, earlier in dispatch, may have a slot before a saved warp (R324). -/
def outranked (s : State) (w : Warp) (core slot : Nat) : Bool :=
  (none :: s.deques.map (fun d => some d.1)).any (fun v =>
    match taskPick s core v with
    | none => false
    | some t => t.ctx != w.ctx && idBefore s t.launch w.launch && taskSlot s t.ctx core slot && (freeWarp s t.ctx).isSome)

/-- Whether a saved warp may come back to a core by itself (R329, R375): a task warp to any, the parent of a leapfrog to its block's. -/
def comesBack (s : State) (core : Nat) (w : Warp) : Bool :=
  w.place == .saved && dispatching (ctxOf s w.ctx) && !(s.sparing.contains w.core) && !(stopsLaunch s w.launch) &&
  (match w.blk with
   | none => true
   | some b => match blockFind s w.ctx b with | some b => b.core == core && !b.saved | none => false)

/-- Whether a saved warp comes back before another: by dispatch order between contexts, by age within one (R146, R324, R329). -/
def backBefore (s : State) (w v : Warp) : Bool := if w.ctx = v.ctx then older w v else idBefore s w.launch v.launch

/-- The saved warp that a slot of a core goes to next (R324, R329). -/
def savedTaskWarp (s : State) (core slot : Nat) : Option Warp :=
  match (s.warps.filter (comesBack s core)).filter (fun w => !(outranked s w core slot)) with
  | [] => none
  | w :: ws => some (ws.foldl (fun a b => if backBefore s b a then b else a) w)

/-- TASK_DISPATCH (R324, R329, R376, R377): a saved warp, or the bottom of the core's own deque, or the top of a victim's. -/
def dueTaskDispatch (core slot : Nat) (victim : Option Nat) (s : State) : Option State :=
  match savedTaskWarp s core slot, victim with
  | some w, none =>
    if taskSlot s w.ctx core slot then some (reloadWarp s w core slot .resident 11) else none
  | _, _ =>
    match taskPick s core victim with
    | none => none
    | some t =>
      let v := victim.getD core
      let nearer := victim.isSome && s.deques.any (fun d => !(d.2.isEmpty) && decide (stealRank core d.1 < stealRank core v) &&
        !(haltedDie s t.ctx (dieOf d.1)) && d.1 != core)
      match freeWarp s t.ctx with
      | none => none
      | some n =>
        if taskSlot s t.ctx core slot && !nearer && !(victim.isSome && haltedDie s t.ctx (dieOf v)) then
          some (startTask (dequeTake s v t.id) { t with spill := none } core slot n victim.isSome)
        else none

/-- TASK_DISPATCH, which takes place where it is due. -/
def execTaskDispatch (core slot : Nat) (victim : Option Nat) (s : State) : Host.Outcome State Fault Refusal := takes s (dueTaskDispatch core slot victim s)

end Sys2Proof.Machine
end

