-- ==== Sys2Proof/Machine/Context.lean ====
section
/-! DEFINITION. Control registers, TIME and BBC, and the events of pre-emption, deferred causes and teardown
(15_context.md R306 to R317, R324 to R329; 27_debug.md R521 to R523). -/

namespace Sys2Proof.Machine

/-! ## Control registers (R310, R313, R314) -/

/-- The number that CSRR and CSRW name (R313). -/
def csrNum (o : OpsS) : Nat := o.sb.toNat * 64 + o.sa.toNat

/-- The value of a control register, zero-extended; none for a number not assigned (R310). -/
def csrRead (s : State) (w : Warp) (n : Nat) : Option DWord :=
  let x := ctxOf s w.ctx
  match n with
  | 0x000 => some (w.regs.flags.setWidth 64)
  | 0x001 => some (x.rndmode.setWidth 64)
  | 0x002 => some (.ofNat 64 (bit x.pol))
  | 0x003 => some (.ofNat 64 (bit x.staletrap))
  | 0x004 => some (x.spills ++ x.luskip)
  | 0x005 => some (.ofNat 64 (bit x.raceEn))
  | 0x006 => some (x.lostTags.setWidth 64)
  | 0x008 => some w.privbase
  | 0x009 => some (.ofNat 64 (w.stackLim.toNat + 65536 * w.stackMax.toNat))
  | 0x00A => some (w.limbst.setWidth 64)
  | 0x010 => some x.codebase
  | 0x011 => some x.trapvec
  | 0x012 => some x.trapctl
  | 0x013 => some x.framebase
  | 0x014 => some x.savebase
  | 0x015 => some x.ptroot
  | 0x016 => some x.ctxcfg
  | 0x017 => some x.ctxlim
  | 0x018 => some (.ofNat 64 w.ctx)
  | 0x019 => some x.regback
  | 0x01A => some x.arena
  | 0x01B => some (.ofNat 64 w.num)
  | n => if 0x040 ≤ n ∧ n ≤ 0x05F then some ((getAt 0 w.carryx (n - 0x040)).setWidth 64) else none

/-- A write of a context register's writable fields (R311, R152, R239, R261). -/
def csrCtx (x : Ctx) (n : Nat) (v : DWord) : Ctx :=
  match n with
  | 0x001 => if field v 2 0 ≤ 5 then { x with rndmode := v.setWidth 3 } else x
  | 0x002 => { x with pol := v.getLsbD 0 }
  | 0x003 => { x with staletrap := v.getLsbD 0 }
  | 0x004 => { x with spills := (v >>> 32).setWidth 32, luskip := v.setWidth 32 }
  | 0x005 => { x with raceEn := v.getLsbD 0 }
  | 0x006 => { x with lostTags := v.setWidth 32 }
  | _ => x

/-- A write of a warp register's writable fields (R58, R130, R229). -/
def csrWarp (w : Warp) (n : Nat) (v : DWord) : Warp :=
  if n = 0x000 then
    let fl : BitVec 32 := .ofNat 32 (field v 5 0)
    let r := w.regs
    { w with regs := { r with flags := fl } }
  else if n = 0x009 then { w with stackLim := if w.stackMax.toNat < field v 15 0 then w.stackMax else v.setWidth 16 }
  else if 0x040 ≤ n ∧ n ≤ 0x05F then { w with carryx := setAt 0 w.carryx (n - 0x040) (v.setWidth 32) }
  else w

/-- CSRR (R313, R314). -/
def execCsrr (g : Grp) (o : OpsS) (s : State) : Host.Outcome State Fault Refusal :=
  issueAs s (.csrr g o) (fun s i =>
    match i.c.body with
    | .S o =>
      match csrRead s i.w (csrNum o) with
      | none => .cause .illegal none 0 0
      | some v => .ok { s := s, w := i.w, sc := [(o.sd.toNat, v)], lat := 0 }
    | _ => .held s i.w)

/-- CSRW (R313, R314). -/
def execCsrw (g : Grp) (o : OpsS) (s : State) : Host.Outcome State Fault Refusal :=
  issueAs s (.csrw g o) (fun s i =>
    match i.c.body with
    | .S o =>
      match csrRead s i.w (csrNum o) with
      | none => .cause .illegal none 0 0
      | some _ =>
        let v := i.s o.sd.toNat
        .ok { s := setCtx s i.w.ctx (csrCtx (ctxOf s i.w.ctx) (csrNum o) v), w := csrWarp i.w (csrNum o) v }
    | _ => .held s i.w)

/-- TIME (R521). -/
def execTime (g : Grp) (o : OpsS) (s : State) : Host.Outcome State Fault Refusal :=
  issueAs s (.time g o) (fun s i =>
    match i.c.body with
    | .S o => .ok { s := s, w := i.w, sc := [(o.sd.toNat, s.tb)], lat := 0 }
    | _ => .held s i.w)

/-! ## BBC (R522, R523) -/

/-- How many lanes a mask holds. -/
def laneCount (m : LaneMask) : Nat := (lanesOf m).length

/-- BBC (R522): the count is the chain's until it ends. -/
def execBbc (g : Grp) (o : OpsS) (s : State) : Host.Outcome State Fault Refusal :=
  issueAs s (.bbc g o) (fun s i =>
    match i.c.body with
    | .S o => .ok { s := s, w := i.w, bbc := if (ctxOf s i.w.ctx).bbcctl.getLsbD 63 then [(csrNum o, laneCount i.split)] else [] }
    | _ => .held s i.w)

/-- Adds a count to a core's counter cache (R523): an entry that would pass 2^32 − 1 is flushed first, and the least
recently used leaves a full cache. -/
def addBbc (s : State) (core c k n : Nat) : State :=
  match s.bbcs.find? (fun b => b.core == core && b.ctx == c && b.k == k) with
  | some b =>
    if 2 ^ 32 ≤ b.n + n then
      let s := flushBbc s b
      { s with bbcs := ⟨core, c, k, n⟩ :: s.bbcs }
    else { s with bbcs := { b with n := b.n + n } :: s.bbcs.filter (fun x => !(x.core == core && x.ctx == c && x.k == k)) }
  | none =>
    let mine := s.bbcs.filter (fun b => b.core == core)
    let s := if 64 ≤ mine.length then (match mine.getLast? with | some b => flushBbc s b | none => s) else s
    { s with bbcs := ⟨core, c, k, n⟩ :: s.bbcs }

/-- Adds the counts of a warp's chain, which has ended (R522). -/
def endBbc (s : State) (w : Warp) : State :=
  match w.chain with
  | none => s
  | some ch => ch.bbc.foldl (fun s x => addBbc s w.core w.ctx x.1 x.2) s

/-- The end of a warp's chain (R154 rule 5, R522): its counts are added, and the spills that its writes call for take place (R145). -/
def endChain (s : State) (w : Warp) : State :=
  if w.chain.isNone || (chainNext s w).isSome then s
  else trimPool (endBbc (setWarp s { w with chain := none }) w) w.core (residents s w.core).length

/-! ## Pre-emption (R324 to R329) -/

/-- Whether a warp is where a pre-emption leaves it: saved, or on its way with its frame written. -/
def outOfCores (w : Warp) : Bool :=
  match w.place with
  | .saved => true
  | .inTransit _ _ => true
  | .leapSaved _ => true
  | _ => false

/-- PREEMPT_FORCE (R36, R325, R326, R336). -/
def execPreemptForce (c n : Nat) (s : State) : Host.Outcome State Fault Refusal :=
  match warpFind s c n with
  | none => .next s
  | some w =>
    if (saves s w = true ∨ stopsLaunch s w.launch = true) ∧ w.inHandler = false ∧ w.halted.isNone = true ∧ w.forced = false ∧ outOfCores w = false then
      .next (setWarp s { w with forced := true })
    else .next s

/-- Notes a halted warp in its context's halt set (R515). -/
def noteHalt (s : State) (w : Warp) : State :=
  let x := ctxOf s w.ctx
  if w.halted.isSome && !(x.haltSet.contains w.num) then setCtx s w.ctx { x with haltSet := w.num :: x.haltSet } else s

/-- WARP_PREEMPT_STOP (R318, R325, R326, R515, R523). -/
def dueWarpPreemptStop (c n : Nat) (s : State) : Option State :=
  match warpFind s c n with
  | none => none
  | some w =>
    if saves s w && mustStop s w && settled s w && (match w.place with | .resident => true | .landed => true | _ => false) then
      some (saveWarp (flushBbcs (noteHalt (endBbc s w) w) c) { w with chain := none } .saved)
    else none

/-- WARP_PREEMPT_STOP, which takes place where it is due. -/
def execWarpPreemptStop (c n : Nat) (s : State) : Host.Outcome State Fault Refusal := takes s (dueWarpPreemptStop c n s)

/-- Whether everything of a context is ready for the end of its pre-emption (R325, R327). -/
def allSaved (s : State) (c : Nat) : Bool :=
  (s.warps.filter (fun w => w.ctx == c)).all (fun w => outOfCores w || (w.inHandler && (ctxOf s c).st == .faulted)) &&
  (s.blocks.filter (fun b => b.ctx == c)).all (fun b => b.saved || blockReady s b) &&
  !(s.copies.any (fun k => k.ctx == c && k.blk.isNone))

/-- Writes every deque entry of a context to its spill area (R376). -/
def spillDeques (s : State) (c : Nat) : State :=
  s.deques.foldl (fun s d => d.2.foldl (fun s id =>
    match taskFind s id with
    | some t => if t.ctx = c ∧ t.spill.isNone = true then spillTask s d.1 t else s
    | none => s) s) s

/-- Saves the blocks, views and deques of a context whose warps are saved (R327, R376, R390). -/
def saveContext (s : State) (c : Nat) : State :=
  let s := (s.blocks.filter (fun b => b.ctx == c && !b.saved)).foldl saveBlock (flushBbcs s c)
  let s := (s.views.filter (fun v => v.ctx == c && v.core.isSome)).foldl spillView s
  unfuse (spillDeques s c) (fun id => s.launches.any (fun l => l.id == id && l.ctx == c))

/-- Puts a launch into a list by its sequence (R146). -/
def insertLaunch (l : Launch) : List Launch → List Launch
  | [] => [l]
  | x :: xs => if seqBefore l.seq x.seq then l :: x :: xs else x :: insertLaunch l xs

/-- The launches of a context in the order in which they are dispatched after its pre-emption (R329): those with saved blocks,
the oldest first, then the others as they stood. -/
def resumeOrder (s : State) (c : Nat) : List Launch :=
  let mine := s.launches.filter (fun l => l.ctx == c)
  let held (l : Launch) : Bool := s.blocks.any (fun b => b.ctx == c && b.launch == l.id && b.saved)
  (mine.filter held).foldr insertLaunch [] ++ mine.filter (fun l => !(held l))

/-- Puts a context's launches, in an order, into its places among all. -/
def placeLaunches (c : Nat) : List Launch → List Launch → List Launch
  | [], _ => []
  | x :: xs, [] => x :: placeLaunches c xs []
  | x :: xs, y :: ys => if x.ctx = c then y :: placeLaunches c xs ys else x :: placeLaunches c xs (y :: ys)

/-- PREEMPT_COMPLETE (R306, R309, R324, R325, R329): after a slice the context's launches go behind all others. -/
def duePreemptComplete (c : Nat) (s : State) : Option State :=
  match (ctxOf s c).preempt with
  | none => none
  | some p =>
    if allSaved s c then
      let s := saveContext s c
      let x := ctxOf s c
      if x.st = .faulted then some (answerAll (setCtx s c { x with preempt := none }) p.answers 19)
      else if p.slice && p.answers.isEmpty then
        let s := setCtx s c { x with preempt := none, st := .runnable }
        some { s with launches := s.launches.filter (fun l => l.ctx != c) ++ resumeOrder s c }
      else some (answerAll (setCtx { s with launches := placeLaunches c s.launches (resumeOrder s c) } c { x with preempt := none, st := .preempted }) p.answers 0)
    else none

/-- PREEMPT_COMPLETE, which takes place where it is due. -/
def execPreemptComplete (c : Nat) (s : State) : Host.Outcome State Fault Refusal := takes s (duePreemptComplete c s)

/-- Whether a context waits for cores (R324): a group, a saved block or warp, or a task that may be dispatched. -/
def waitsForCores (s : State) (c : Nat) : Bool :=
  dispatching (ctxOf s c) &&
  (s.launches.any (fun l => l.ctx == c && !(stopsLaunch s l.id) && (match nodeOf s l with | some n => groupWaits n l | none => false)) ||
   s.blocks.any (fun b => b.ctx == c && b.saved) || s.warps.any (fun w => w.ctx == c && w.place == .saved) ||
   s.deques.any (fun d => d.2.any (fun id => match taskFind s id with | some t => t.ctx == c | none => false)))

/-- SLICE_PREEMPTION (R324, R514). -/
def execSlicePreemption (c : Nat) (s : State) : Host.Outcome State Fault Refusal :=
  let x := ctxOf s c
  if x.st = .running ∧ x.preempt.isNone = true ∧ field x.ctxcfg 63 32 ≠ 0 ∧
      (List.range 64).any (fun d => d != c && waitsForCores s d) = true ∧
      s.warps.any (fun w => w.ctx == c && w.halted.isSome) = false then
    .next (setCtx s c { x with preempt := some ⟨true, []⟩ })
  else .next s

/-! ## Deferred causes (R309, R316) -/

/-- Whether a warp's deferred cause enters the trap now: it runs, its chain has ended, and no hold of an operation of the
device on its behalf is out. -/
def mayDeliver (s : State) (w : Warp) : Bool :=
  running w && !w.inHandler && (chainNext s w).isNone && !(mustStop s w) &&
  !(w.holds.any (fun h => match h with | .op _ => true | .tid _ => true | _ => false))

/-- DEFERRED_CAUSE_DELIVERY (R309, R316, R526). -/
def dueDeferredCauseDelivery (c n : Nat) (s : State) : Option State :=
  match warpFind s c n with
  | none => none
  | some w =>
    match w.deferred with
    | [] => none
    | (k, a) :: rest =>
      if mayDeliver s w then
        let s := endBbc s w
        let w := { w with deferred := rest, chain := none }
        some (raiseAt (setWarp s w) w { cause := k, deferred := true, faddr := a } (getAt 0 w.pc (leader w)))
      else none

/-- DEFERRED_CAUSE_DELIVERY, which takes place where it is due. -/
def execDeferredCauseDelivery (c n : Nat) (s : State) : Host.Outcome State Fault Refusal := takes s (dueDeferredCauseDelivery c n s)

/-! ## Teardown (R262, R308, R331, R369, R446) -/

/-- Whether a message is a request of a warp of a context that no slice has begun to serve. -/
def asksFor (c : Nat) (m : Net) : Bool :=
  match m.kind with
  | .read c' _ _ _ _ => c' == c
  | .replica c' _ _ _ _ _ => c' == c
  | .forward c' _ _ _ => c' == c
  | .forwardAnswer c' _ _ _ _ => c' == c
  | .atomic c' _ _ _ _ _ => c' == c
  | .check c' _ _ _ _ _ _ => c' == c
  | _ => false

/-- Whether a slice word is held for a context's request in TRANSFER, or a registration of the context is out. (assumption 72, DEDUCED) -/
def registering (s : State) (c : Nat) : Bool :=
  s.net.any (fun m => match m.kind with
    | .register _ _ c' _ _ => c' == c
    | .atomic c' _ _ _ wa _ => c' == c && (let e := sliceGet s wa; e.st == .transfer && e.waiting.contains m.id)
    | _ => false)

/-- Ends a context's collapses and invalidations with nothing left behind (R293, R296). -/
def castOf (c : Nat) (k : Cast) : Bool :=
  match k.kind with
  | .invalidate c' _ _ _ _ _ _ => c' == c
  | .collapse c' _ _ _ => c' == c
  | .tid c' _ _ _ _ => c' == c

/-- Answers the owner of an invalidation that a teardown completes (R296). -/
def endCast (s : State) (k : Cast) : State :=
  match k.kind with
  | .invalidate _ _ _ _ port conn tag => answer s ⟨port, conn, .ofNat 32 tag⟩ 0 []
  | _ => s

/-- Everything of a context is discarded (R308): warps, blocks, tasks, views, queues, graphs, runs; its registered and
forward-tagged words go to memory; its fault-buffer entries and translations are freed. -/
def discardContext (s : State) (c : Nat) : State :=
  let s := unfuse s (fun id => s.launches.any (fun l => l.id == id && l.ctx == c))
  let s := (s.slices.filter (fun e => e.st != .home && e.ctx == c && e.owner != hostOwner)).foldl (fun s e => flushWord s e.wa) s
  let s := (dedup ((s.slices.filter (fun e => e.fwd.isSome && e.ctx == c)).map (fun e => e.wa / 16))).foldl (fun s ln => clearFwd s ln)
    ((s.slices.filter (fun e => e.fwd.isSome && e.ctx == c)).foldl (fun s e => sliceClean s e.wa) s)
  let s := (s.slices.filter (fun e => e.ctx == c)).foldl (fun s e => slicePut s { e with tag := 0, mask := 0 }) s
  let s := (s.casts.filter (castOf c)).foldl endCast s
  let gone := (s.warps.filter (fun w => w.ctx == c)).map (fun w => w.num)
  let ts := (s.tasks.filter (fun t => t.ctx == c)).map (fun t => t.id)
  { s with
    warps := s.warps.filter (fun w => w.ctx != c)
    blocks := s.blocks.filter (fun b => b.ctx != c)
    tasks := s.tasks.filter (fun t => t.ctx != c)
    views := s.views.filter (fun v => v.ctx != c)
    deques := s.deques.map (fun d => (d.1, d.2.filter (fun t => !(ts.contains t))))
    lastWarp := s.lastWarp.filter (fun r => !(r.2.1 == c && gone.contains r.2.2))
    copies := s.copies.filter (fun k => k.ctx != c)
    bbcs := s.bbcs.filter (fun b => b.ctx != c)
    l1 := s.l1.filter (fun x => !(x.ctx == c && x.owner != hostOwner && (x.st == .valid || x.owner < 0x10000)))
    net := s.net.filter (fun m => !(asksFor c m))
    tlb := s.tlb.filter (fun t => t.ctx != c), tcache := s.tcache.filter (fun t => t.ctx != c)
    walks := s.walks.filter (fun w => w.ctx != c), refused := s.refused.filter (fun r => r.ctx != c)
    faults := s.faults.filter (fun f => f.ctx != c), heldFaults := s.heldFaults.filter (fun f => f.ctx != c)
    pages := s.pages.filter (fun p => p.ctx != c), casts := s.casts.filter (fun k => !(castOf c k))
    queues := s.queues.map (fun q => if q.ctx = c then { q with st := 0, recs := [], answer := none } else q), graphs := s.graphs.filter (fun g => g.ctx != c)
    insts := s.insts.filter (fun x => x.ctx != c), launches := s.launches.filter (fun l => l.ctx != c)
    conns := s.conns.map (fun k => { k with
      loads := k.loads.filter (fun g => g.ctx != c)
      reqs := k.reqs.filter (fun r => match r.2 with
        | .window c' _ _ _ => c' != c
        | .store c' _ _ => c' != c
        | .atom c' _ _ _ _ => c' != c
        | .engine (.cmd c' _ _) _ _ => c' != c
        | _ => true) }) }

/-- TEARDOWN_DONE (R306, R308): once the registrations out are granted, everything goes and the owner hears of it. -/
def dueTeardownDone (c : Nat) (s : State) : Option State :=
  let x := ctxOf s c
  if x.st = .teardown ∧ registering s c = false then some (answerAll (setCtx (discardContext s c) c {}) x.teardown 0)
  else none

/-- TEARDOWN_DONE, which takes place where it is due. -/
def execTeardownDone (c : Nat) (s : State) : Host.Outcome State Fault Refusal := takes s (dueTeardownDone c s)

end Sys2Proof.Machine
end

