-- ==== Sys2Proof/Machine/Migrate.lean ====
section
/-! DEFINITION. MIGRATE and the movement of a warp between dies; multicasts: translation invalidations, collapses of
replicated pages and identifier writes on their way to the dies (14_page.md R292 to R305; 26_link.md R483, R484;
23_tensor.md R448). -/

namespace Sys2Proof.Machine

/-! ## MIGRATE (R300 to R302) -/

/-- MIGRATE (R300, R301, R302, R526). (assumption 66, DEDUCED) -/
def execMigrate (g : Grp) (o : OpsS) (s : State) : Host.Outcome State Fault Refusal :=
  issueAs s (.migrate g o) (fun s i =>
    match i.c.body with
    | .S o =>
      let w := i.w
      let va := (i.s o.sa.toNat).toNat
      let a : DWord := .ofNat 64 va
      if w.inHandler || w.blk.isSome then .cause .migrateFault none a 0
      else if 2 ^ 57 ≤ va then .cause .translation none a 0
      else
        match xlateOf s w va with
        | none => .held s { w with holds := .xlate [pageOf va] :: w.holds }
        | some .unresolvable => .cause .translation none a 0
        | some .refused => .cause .protection none a 0
        | some (.notPresent lv) =>
          .held (postFault s w.ctx lv va kLoad (.warp w.ctx w.num))
            { w with holds := .fault [faultKey lv va] :: w.holds, attempt := { w.attempt with xlate := [] } }
        | some (.leaf e) =>
          if leafKind e = 2 ∧ accepted s 1 = false then .cause .translation none a 0
          else if leafKind e ≠ 0 then .cause .migrateFault none a 0
          else .ok { s := s, w := { w with place := .departing (leafHome e) (homeSlice (leafPa e va)) }
                     sc := [(o.sd.toNat, .ofNat 64 (dieOf w.core))], lat := 0 }
    | _ => .held s i.w)

/-- Writes the views of a warp's task to the spill area as it leaves its core (R303). -/
def viewsLeave (s : State) (w : Warp) : State :=
  (s.views.filter (fun v => v.ctx == w.ctx && some v.task == w.task && v.core == some w.core)).foldl spillView s

/-- Brings a view of the spill area into a core's pool (R304, R390). -/
def viewEnters (core : Nat) (s : State) (v : View) : State :=
  let s := makeRoom s core
  { s with views := s.views.map (fun x => if x.id = v.id then { x with core := some core } else x) }

/-- MIGRATE_DEPART (R245, R302, R303, R305). -/
def dueMigrateDepart (c n : Nat) (s : State) : Option State :=
  match warpFind s c n with
  | none => none
  | some w =>
    match w.place with
    | .departing die sl =>
      if settled s w && !(s.copies.any (fun k => k.ctx == c && k.warp == n)) then
        let s := endBbc s w
        let s := offRecords s c (fun k => k == n)
        let w := { w with chain := none, yielded := false, starve := 0 }
        if die = dieOf w.core then
          match writeStack s c w.stack with
          | .error (k, s) => some (ctxFault (setWarp s { w with place := .resident, stack := [] }) c k (some w.core) (some n) (.ofNat 64 (frameAddr s w)))
          | .ok s => some (acquireAction (setWarp s { w with place := .resident, stack := [] }) w.core 5 none)
        else some (saveWarp (viewsLeave s w) w (.inTransit die sl))
      else none
    | _ => none

/-- MIGRATE_DEPART, which takes place where it is due. -/
def execMigrateDepart (c n : Nat) (s : State) : Host.Outcome State Fault Refusal := takes s (dueMigrateDepart c n s)

/-- Whether a landing slot of a core is free (R230, R304). -/
def landingFree (s : State) (core slot : Nat) : Bool :=
  coreUsable s core && !(isFused s core) && !(s.warps.any (fun w => w.core == core && w.slot == slot && onCore core w))

/-- The landing slot for a warp at a die: in the cluster of the home slice, else in its quadrant, else on the die, the lowest
core first (R304). -/
def landingSlot (s : State) (die sl : Nat) : Option (Nat × Nat) :=
  let cl := die * 32 + sl
  let span (b n : Nat) : List (Nat × Nat) := (List.range n).flatMap (fun k => [(b + k, 96), (b + k, 97)])
  (span (4 * cl) 4 ++ span (cl / 8 * 32) 32 ++ span (die * 128) 128).find? (fun p => landingFree s p.1 p.2)

/-- Whether a warp waits in transit for a die. -/
def flyingTo (die : Nat) (w : Warp) : Bool := match w.place with | .inTransit d _ => d == die | _ => false

/-- Whether a warp in transit may land at this moment (R302). (assumption 67, DEDUCED) -/
def mayLand (s : State) (die : Nat) (w : Warp) : Bool :=
  dispatching (ctxOf s w.ctx) && w.halted.isNone && !(haltedDie s w.ctx die) && !(haltedDie s w.ctx (dieOf w.core))

/-- MIGRATE_LAND (R302, R304, R305). -/
def dueMigrateLand (c n : Nat) (s : State) : Option State :=
  match warpFind s c n with
  | none => none
  | some w =>
    match w.place with
    | .inTransit die sl =>
      let first := oldest (s.warps.filter (fun x => flyingTo die x && mayLand s die x))
      match landingSlot s die sl with
      | none => none
      | some (core, slot) =>
        if mayLand s die w && first.any (fun x => x.ctx == c && x.num == n) then
          let s := reloadWarp s w core slot .landed 5
          some ((s.views.filter (fun v => v.ctx == c && some v.task == w.task && v.core.isNone)).foldl (viewEnters core) s)
        else none
    | _ => none

/-- MIGRATE_LAND, which takes place where it is due. -/
def execMigrateLand (c n : Nat) (s : State) : Host.Outcome State Fault Refusal := takes s (dueMigrateLand c n s)

/-- MIGRATE_SETTLE (R240, R302). -/
def dueMigrateSettle (c n : Nat) (s : State) : Option State :=
  match warpFind s c n with
  | none => none
  | some w =>
    match (freeSlots s w.core).head? with
    | none => none
    | some slot =>
      if w.place = .landed ∧ (chainNext s w).isNone = true then
        let s := endBbc s w
        some { setWarp s { w with place := .resident, slot := slot, chain := none } with
          lastWarp := s.lastWarp.filter (fun r => !(r.2.1 == c && r.2.2 == n)) }
      else none

/-- MIGRATE_SETTLE, which takes place where it is due. -/
def execMigrateSettle (c n : Nat) (s : State) : Host.Outcome State Fault Refusal := takes s (dueMigrateSettle c n s)

/-! ## Multicasts (R293, R295, R483, R484) -/

/-- A multicast by number. -/
def castFind (s : State) (id : Nat) : Option Cast := s.casts.find? (fun k => k.id == id)

/-- Replaces a multicast. -/
def setCast (s : State) (k : Cast) : State := { s with casts := s.casts.map (fun x => if x.id = k.id then k else x) }

/-- Ends a multicast. -/
def dropCast (s : State) (id : Nat) : State := { s with casts := s.casts.filter (fun x => !(x.id == id)) }

/-- Whether a virtual address lies in the range of an invalidation. -/
def inInval (base len : Nat) (all : Bool) (va : Nat) : Bool := all || (decide (base ≤ va) && decide (va < base + len))

/-- A die drops its translations of a range (R293, R295); walks in progress read the table as it then stands. -/
def dropAt (s : State) (die c base len : Nat) (all : Bool) : State :=
  { s with
    tlb := tlbDrop s.tlb (fun p => dieOf p == die) c base len all
    tcache := tlbDrop s.tcache (fun p => p == die) c base len all
    warps := s.warps.map (fun w => if w.ctx = c ∧ dieOf w.core = die then
      { w with attempt := { w.attempt with xlate := w.attempt.xlate.filter (fun x => !(inInval base len all (4096 * x.1))) } } else w) }

/-- Whether an engine waits for window words of a range that it has asked for. -/
def asksIn (base len : Nat) (all : Bool) (asked : List Nat) (got : List (Nat × Word)) : Bool :=
  asked.any (fun a => inInval base len all a && (getKey a got).isNone)

/-- Whether no copy or matrix command of a die has window reads of a range or window writes out (R295, R428, R497). -/
def enginesDrained (s : State) (die c base len : Nat) (all : Bool) : Bool :=
  s.copies.all (fun k => k.ctx != c || dieOf k.core != die || (k.wout.isEmpty && !(asksIn base len all k.asked k.got))) &&
  s.blocks.all (fun b => b.ctx != c || dieOf b.core != die ||
    b.queue.all (fun q => q.wout == 0 && !(asksIn base len all q.asked q.got)))

/-- Whether every access of a die under the translations of a range has been performed (R295): loads, atomics, stores, those of an
STR that waits for its release among them, and what copies and commands have out. -/
def drains (s : State) (die c base len : Nat) (all : Bool) : Bool :=
  s.warps.all (fun w => w.ctx != c || dieOf w.core != die ||
    (w.pend.all (fun p => p.pages.all (fun a => !(inInval base len all a))) &&
     w.stores.all (fun x => !(inInval base len all x.va)) &&
     w.relq.all (fun q => match q.cont with | .stores ws => ws.all (fun x => !(inInval base len all x.1)) | _ => true))) &&
  enginesDrained s die c base len all

/-- MULTICAST_RESIDUAL_SEND (R448, R483): copies go to some destinations; an identifier write takes effect there, an
invalidation drops the die's translations. -/
def dueMulticastResidualSend (op : Nat) (dests : List Nat) (s : State) : Option State :=
  match castFind s op with
  | none => none
  | some k =>
    if !dests.isEmpty && (dedup dests).length == dests.length && dests.all (fun d => k.residual.contains d) then
      let k := { k with residual := k.residual.filter (fun d => !(dests.contains d)), reached := k.reached ++ dests }
      match k.kind with
      | .tid _ _ _ _ _ => some (setCast s { k with done := k.done ++ dests })
      | .invalidate c base len all _ _ _ => some (dests.foldl (fun s d => dropAt s d c base len all) (setCast s k))
      | .collapse _ _ _ _ => some (setCast s k)
    else none

/-- MULTICAST_RESIDUAL_SEND, which takes place where it is due. -/
def execMulticastResidualSend (op : Nat) (dests : List Nat) (s : State) : Host.Outcome State Fault Refusal := takes s (dueMulticastResidualSend op dests s)

/-- INVALIDATE_DIE_DONE (R295). -/
def dueInvalidateDieDone (op die : Nat) (s : State) : Option State :=
  match castFind s op with
  | none => none
  | some k =>
    match k.kind with
    | .invalidate c base len all _ _ _ =>
      if k.reached.contains die && !(k.done.contains die) && drains s die c base len all then
        some (setCast s { k with done := k.done ++ [die] })
      else none
    | _ => none

/-- INVALIDATE_DIE_DONE, which takes place where it is due. -/
def execInvalidateDieDone (op die : Nat) (s : State) : Host.Outcome State Fault Refusal := takes s (dueInvalidateDieDone op die s)

/-- Whether a COLLAPSING page keeps an invalidation from completing (R296). -/
def collapsingIn (s : State) (c base len : Nat) (all : Bool) : Bool :=
  s.pages.any (fun p => p.ctx == c && p.st == .collapsing && (all || (decide (p.base < base + len) && decide (base < p.base + 2 ^ p.size))))

/-- The pages of a range take their state from their leaves (R292). -/
def renewPages (s : State) (c base len : Nat) (all : Bool) : State :=
  { s with pages := s.pages.filter (fun p => !(p.ctx == c && p.st == .replicated &&
      (all || (decide (p.base < base + len) && decide (base < p.base + 2 ^ p.size))))) }

/-- What the last acknowledgement of a multicast completes (R295, R296, R448, R484); none while it may not complete. -/
def castDone (s : State) (k : Cast) : Option State :=
  match k.kind with
  | .invalidate c base len all port conn tag =>
    if collapsingIn s c base len all then none
    else some (answer (renewPages (dropCast s k.id) c base len all) ⟨port, conn, .ofNat 32 tag⟩ 0 [])
  | .tid c n id off bs =>
    let s := tidWrite (dropCast s k.id) c id off bs
    some (match warpFind s c n with
      | some w => setWarp s { w with holds := w.holds.filter (fun h => !(h == .tid k.id)) }
      | none => s)
  | .collapse _ _ _ _ => none

/-- MULTICAST_ACK (R295, R296, R448, R484). -/
def dueMulticastAck (op dest : Nat) (s : State) : Option State :=
  match castFind s op with
  | none => none
  | some k =>
    let mine := match k.kind with | .collapse _ _ _ _ => false | _ => true
    if mine && k.done.contains dest && !(k.acked.contains dest) then
      let k := { k with acked := k.acked ++ [dest] }
      if 8 ≤ k.acked.length then
        match castDone s k with
        | some s => some s
        | none => none
      else some (setCast s k)
    else none

/-- MULTICAST_ACK, which takes place where it is due. -/
def execMulticastAck (op dest : Nat) (s : State) : Host.Outcome State Fault Refusal := takes s (dueMulticastAck op dest s)

/-! ## Collapse (R292, R293) -/

/-- The lines of a page that a die's L2 holds leave it (R293). -/
def dropLines (s : State) (die c base : Nat) : State :=
  match s.pages.find? (fun p => p.ctx == c && p.base == base) with
  | some p => dropReplicas s (fun d => d == die) p.pa (2 ^ p.size)
  | none => s

/-- COLLAPSE_NOTICE (R293). -/
def dueCollapseNotice (op die : Nat) (s : State) : Option State :=
  match castFind s op with
  | none => none
  | some k =>
    match k.kind with
    | .collapse c base size _ =>
      if k.reached.contains die && !(k.done.contains die) then
        some (dropLines (dropAt (setCast s { k with done := k.done ++ [die] }) die c base (2 ^ size) false) die c base)
      else none
    | _ => none

/-- COLLAPSE_NOTICE, which takes place where it is due. -/
def execCollapseNotice (op die : Nat) (s : State) : Host.Outcome State Fault Refusal := takes s (dueCollapseNotice op die s)

/-- COLLAPSE_ACK (R293): after the eighth, REPL := 0 in the leaf at its home slice. -/
def dueCollapseAck (op die : Nat) (s : State) : Option State :=
  match castFind s op with
  | none => none
  | some k =>
    match k.kind with
    | .collapse _ _ _ pte =>
      if k.done.contains die && !(k.acked.contains die) then
        let k := { k with acked := k.acked ++ [die] }
        if 8 ≤ k.acked.length then
          let e := entryAt s pte &&& ~~~ (1#64 <<< 61)
          some (cohPutBytes (setCast s { k with cleared := true }) pte (natLe 8 e.toNat))
        else some (setCast s k)
      else none
    | _ => none

/-- COLLAPSE_ACK, which takes place where it is due. -/
def execCollapseAck (op die : Nat) (s : State) : Host.Outcome State Fault Refusal := takes s (dueCollapseAck op die s)

/-- COLLAPSE_COMPLETE (R292, R293): the page is HOMED and its stalled writers replay, their translations dropped. -/
def dueCollapseComplete (op : Nat) (s : State) : Option State :=
  match castFind s op with
  | none => none
  | some k =>
    match k.kind with
    | .collapse c base size _ =>
      if k.cleared then
        let s := dropCast s op
        some { s with
          pages := s.pages.filter (fun p => !(p.ctx == c && p.base == base))
          tlb := tlbDrop s.tlb (fun _ => true) c base (2 ^ size) false
          tcache := tlbDrop s.tcache (fun _ => true) c base (2 ^ size) false }
      else none
    | _ => none

/-- COLLAPSE_COMPLETE, which takes place where it is due. -/
def execCollapseComplete (op : Nat) (s : State) : Host.Outcome State Fault Refusal := takes s (dueCollapseComplete op s)

end Sys2Proof.Machine
end

