-- ==== Sys2Proof/Machine/Link.lean ====
section
/-! DEFINITION. The edge of the package: how a message of a host or peer is accepted, the shell of the management
commands, how a connection opens and fails, the ports and their lanes, Piste beats (26_link.md R482 to R492, R499,
R501, R504; 01_device.md R18, R21, R22). -/

namespace Sys2Proof.Machine

/-! ## Connections (R489 to R492) -/

/-- The number under which words of the host agent name their connection. -/
def connId (k : Conn) : Nat := k.port * 2 ^ 32 + k.num.toNat

/-- Whether two records are of one connection, open or failed alike. (assumption 55, DEDUCED) -/
def sameConn (k x : Conn) : Bool := x.port == k.port && x.num == k.num && x.failed == k.failed

/-- The present record of a connection. -/
def connNow (s : State) (k : Conn) : Option Conn := s.conns.find? (sameConn k)

/-- The words of a connection in the host agent (R494), the newest first. -/
def hostWords (s : State) (k : Conn) : List L1Word := s.l1.filter (fun x => x.owner == hostOwner && x.conn == connId k)

/-- Whether a registration of a connection is out. -/
def hostPending (s : State) (k : Conn) : Bool := (hostWords s k).any (fun x => x.st == .pending)

/-- Writes back every registered word of a connection (R492, R495). -/
def hostFlush (s : State) (k : Conn) : State :=
  ((hostWords s k).filter (fun x => x.st == .registered)).foldl (fun s x => flushWord s x.wa) s

/-- The cause of a device access that its window refuses or loses (R209, R498), and the value it goes on with. (assumption 59, DESIGN CHOICE) -/
def windowLost (s : State) (c : Nat) (core warp : Option Nat) : State × Word :=
  (ctxFault { s with free := s.free + 1 } c .protection core warp 0, (Config.freeDWord s.free).setWidth 32)

/-- A word read from a window reaches an engine (R428, R497). -/
def engineRead (s : State) (who : Waiter) (va : Nat) (v : Word) : State :=
  match who with
  | .copy id _ => { s with copies := s.copies.map (fun k => if k.id = id then { k with got := (va, v) :: k.got } else k) }
  | .cmd c b q => { s with blocks := s.blocks.map (fun x => if x.ctx = c ∧ x.num = b then
      { x with queue := x.queue.map (fun y => if y.id = q then { y with got := (va, v) :: y.got } else y) } else x) }
  | _ => s

/-- A window write of an engine is acknowledged (R429, R497). -/
def engineWrote (s : State) (who : Waiter) : State :=
  match who with
  | .copy id n => copyWriteAck s id n
  | .cmd c b q => { s with blocks := s.blocks.map (fun x => if x.ctx = c ∧ x.num = b then
      { x with queue := x.queue.map (fun y => if y.id = q then { y with wout := y.wout - 1 } else y) } else x) }
  | _ => s

/-- The context that an engine's access belongs to. -/
def engineCtx (s : State) (who : Waiter) : Option Nat :=
  match who with
  | .copy id _ => (s.copies.find? (fun k => k.id == id)).map (fun k => k.ctx)
  | .cmd c _ _ => some c
  | _ => none

/-- A request of the device that is lost or refused (R498): the context faults, and what waited goes on. -/
def failReq (s : State) (r : DevReq) : State :=
  match r with
  | .event => s
  | .graph _ _ => s
  | .window c n op wa =>
    let core := (warpFind s c n).map (fun w => w.core)
    let pair := readsPair s c n op
    let (s, v) := windowLost s c core (some n)
    let s := learnAt s c n op wa v
    if pair then learnAt s c n op (wa + 1) v else s
  | .store c n msg =>
    let core := (warpFind s c n).map (fun w => w.core)
    storeGranted (windowLost s c core (some n)).1 msg
  | .atom c n op lane _ =>
    let core := (warpFind s c n).map (fun w => w.core)
    let (s, v) := windowLost s c core (some n)
    atomReply s c n op [(lane, v)]
  | .engine who va wr =>
    match engineCtx s who with
    | none => s
    | some c =>
      let (s, v) := windowLost s c none none
      if wr then engineWrote s who else engineRead s who va v

/-- Ends a failed connection once its accepted messages are performed and its words are written back (R492). -/
def reapConn (s : State) (k : Conn) : State :=
  if k.failed && k.queue.isEmpty && !(hostPending s k) then
    let s := hostFlush s k
    { s with conns := s.conns.filter (fun x => !(sameConn k x)) }
  else s

/-- Ends every failed connection that may end. -/
def reapConns (s : State) : State := (s.conns.filter (fun k => k.failed)).foldl reapConn s

/-- A connection fails (R492, R498): what it has not delivered is dropped; a message list of an earlier failure of the same
number goes on with it. (assumption 71, DEDUCED) -/
def connFail (s : State) (k : Conn) : State :=
  let old := (s.conns.filter (fun x => x.port == k.port && x.num == k.num && x.failed)).flatMap (fun x => x.queue)
  let f : Conn := { k with failed := true, unacked := [], reqs := [], loads := [], queue := old ++ k.queue }
  let s := { s with
    conns := s.conns.filter (fun x => !(x.port == k.port && x.num == k.num)) ++ [f]
    hostOps := s.hostOps.filter (fun h => !(h.ans.port == k.port && h.ans.conn == k.num.toNat)) }
  let s := k.reqs.foldl (fun s r => failReq s r.2) s
  match connNow s f with
  | some f => reapConn s f
  | none => s

/-- Sends every unacknowledged message again, from the oldest on (R490). -/
def resend (k : Conn) : Conn :=
  { k with unacked := (k.unacked.take 512).map (fun m => { m with retries := m.retries + 1 }) ++ k.unacked.drop 512 }

/-- Whether a connection's oldest message has been sent again 16 times (R492). -/
def worn (k : Conn) : Bool := k.unacked.any (fun m => decide (16 ≤ m.retries))

/-- RETRANSMIT_TIMEOUT (R490, R492). -/
def execRetransmitTimeout (port : Nat) (num : BitVec 32) (s : State) : Host.Outcome State Fault Refusal :=
  match connFind s port num with
  | none => .next s
  | some k =>
    if k.unacked.isEmpty then .next s
    else if worn k then .next (connFail s k)
    else .next (setConn s (resend k))

/-! ## Accepting a message (R18, R22, R488 to R491) -/

/-- Whether the ports answer in a package state (R18). (assumption 54, DEDUCED) -/
def portsAnswer (d : DevState) : Bool := d == .unowned || d == .owned || d == .handover || d == .failed

/-- A port's record. -/
def portOf (s : State) (p : Nat) : Port := getAt {} s.ports p

/-- Replaces a port's record. -/
def setPort (s : State) (p : Nat) (x : Port) : State := { s with ports := setAt {} s.ports p x }

/-- Drops the messages that a cumulative ACK covers (R490). -/
def acked (k : Conn) (ack : BitVec 32) : Conn :=
  { k with unacked := k.unacked.filter (fun m => decide (2 ^ 31 ≤ (m.seq - ack).toNat) == false) }

/-- A bare ACK or NAK on a connection, outside the sequence (R490). -/
def bare (s : State) (k : Conn) (status : Nat) : State :=
  { s with sent := s.sent ++ [⟨k.port, k.peer, k.num, k.rx, { ty := 7, seq := k.tx, op := .ofNat 8 status }⟩] }

/-- A message at its port: dropped, an acknowledgement only, or accepted in sequence on an open connection, which is
returned with the message counted (R489, R490, R491). -/
def takeIn (s : State) (m : Msg) (ty : Nat) : State × Option Conn :=
  let s := { s with sent := [] }
  if !(portsAnswer s.dev) || (portOf s m.port).st != .up then (s, none)
  else
    match connFind s m.port m.conn with
    | none => (s, none)
    | some k =>
      if k.peer ≠ m.peer then (s, none)
      else
        let k := acked k m.ack
        if ty = 7 ∧ m.len = 0 ∧ (m.op = 5 ∨ m.op = 6) then
          (if m.op = 6 then (if worn k then connFail (setConn s k) k else setConn s (resend k)) else setConn s k, none)
        else if m.seq ≠ k.rx then (bare (setConn s k) k 6, none)
        else
          let k := { k with rx := k.rx + 1 }
          (setConn s k, some k)

/-- What a message does on its connection; false while it has to wait at the head of its connection's queue (R493, R495). -/
abbrev Perform := State → Conn → Msg → State × Bool

/-- Puts a message behind those of its connection that wait (R493). (assumption 56, DEDUCED) -/
def enqueue (s : State) (k : Conn) (ty : Nat) (m : Msg) : State :=
  { s with conns := s.conns.map (fun x => if sameConn k x then { x with queue := x.queue ++ [(ty, m)] } else x) }

/-- Receives a message of a type and performs it, unless earlier messages of its connection wait. (assumption 53, DEDUCED; assumption 116, DEDUCED) -/
def receive (s : State) (ty : Nat) (m : Msg) (f : Perform) : State :=
  match takeIn s m ty with
  | (s, none) => s
  | (s, some k) =>
    if !k.queue.isEmpty then enqueue s k ty m
    else
      let (s', ok) := f s k m
      if ok then s' else enqueue s' k ty m

/-! ## The shell of the management commands (R22, R499) -/

/-- Who is answered for a message. -/
def answerOf (k : Conn) (m : Msg) : Answer := ⟨k.port, k.num.toNat, m.tag⟩

/-- Answers a message with a status alone. -/
def reply (s : State) (k : Conn) (m : Msg) (status : Nat) : State := answer s (answerOf k m) status []

/-- Whether a message comes from the owner (R21). -/
def isOwner (k : Conn) : Bool := k.owner && k.port == 0

/-- The context that ADDR names. -/
def ctxField (m : Msg) : Nat := field m.addr 63 58

/-- A command of the owner alone that takes a payload of a length, on a context or on none (R22, R499): NOT_OWNER, BAD, or
what it does. -/
def command (ctxed : Bool) (lenOk : Nat → Bool) (f : State → Conn → Msg → State) : Perform := fun s k m =>
  if !(isOwner k) then (reply s k m 1, true)
  else if field m.addr 57 0 ≠ 0 ∨ (ctxed = false ∧ ctxField m ≠ 0) ∨ lenOk m.payload.length = false then (reply s k m 4, true)
  else if s.dev = .failed then (reply s k m 8, true)
  else (f s k m, true)

/-- A field of a payload. -/
def pl (m : Msg) (off n : Nat) : Nat := fr m.payload off n

/-! ## OPEN and CLOSE (R489, R492, R498, R504) -/

/-- An answer on CONN 0 (R504). -/
def answer0 (s : State) (m : Msg) (status : Nat) : State :=
  { s with sent := [⟨m.port, m.peer, 0, 0, { ty := 7, seq := 0, op := .ofNat 8 status, tag := m.tag }⟩] }

/-- Whether an OPEN is malformed, or names another package (R498, R499, R504). -/
def openBad (s : State) (m : Msg) : Bool :=
  m.payload.length != 16 || m.addr != 0 || pl m 0 4 == 0 || pl m 8 8 != 0 ||
  (if m.port = 0 then pl m 4 4 != 0 else pl m 6 2 != s.pkgNum.toNat)

/-- The fresh claim nonce drawn at draw n, 32 bytes (R19). -/
def freshNonce (n : Nat) : List Byte := (List.range 32).map (Config.nonceByte n)

/-- OPEN (R489, R498, R504). -/
def execOpenConn (m : Msg) (s : State) : Host.Outcome State Fault Refusal :=
  if m.conn ≠ 0 then .next (receive s 6 m (fun s k m => (reply s k m 4, true)))
  else
    let s := { s with sent := [] }
    if !(portsAnswer s.dev) || (portOf s m.port).st != .up then .next s
    else if openBad s m then .next (answer0 s m 4)
    else
      match connFind s m.port (.ofNat 32 (pl m 0 4)) with
      | some k => .next (answer0 s m (if k.peer = m.peer then 0 else 7))
      | none =>
        if 4096 ≤ (s.conns.filter (fun k => k.port == m.port && !k.failed)).length then .next (answer0 s m 4)
        else
          let k : Conn := { port := m.port, num := .ofNat 32 (pl m 0 4), peer := m.peer, src := pl m 4 2, dst := pl m 6 2, nonce := freshNonce s.free }
          .next (answer0 { s with conns := s.conns ++ [k], free := s.free + 1 } m 0)

/-- What CLOSE does: its COMPLETION goes out once, and the connection fails (R492, R500). (assumption 68, DEDUCED) -/
def doClose : Perform := fun s k m =>
  if m.payload.length ≠ 0 ∨ m.addr ≠ 0 then (reply s k m 4, true)
  else
    let s := { s with sent := s.sent ++ [⟨k.port, k.peer, k.num, k.rx, { ty := 7, seq := k.tx, op := 0, tag := m.tag }⟩] }
    (connFail s k, true)

/-- CLOSE (R492, R500). -/
def execClose (m : Msg) (s : State) : Host.Outcome State Fault Refusal := .next (receive s 6 m doClose)

/-! ## Ports and lanes (R25, R40, R486, R487) -/

/-- The lane count that MAXL names. -/
def maxLanes (p : Port) : Nat := if p.maxl = 1 then 4 else if p.maxl = 2 then 2 else 8

/-- The allowed groups of a size: lowest lane of each. -/
def laneGroups (n : Nat) : List Nat := if n = 8 then [0] else if n = 4 then [0, 4] else [0, 2, 4, 6]

/-- The lowest healthy allowed group of a size. -/
def healthyAt (good : BitVec 8) (n : Nat) : Option Nat :=
  (laneGroups n).find? (fun b => (List.range n).all (fun k => good.getLsbD (b + k)))

/-- The size of the largest healthy allowed group up to a count (R486); 0 with none. (assumption 70, DEDUCED) -/
def bestGroup (good : BitVec 8) (cap : Nat) : Nat :=
  (([8, 4, 2] : List Nat).find? (fun n => n ≤ cap && (healthyAt good n).isSome)).getD 0

/-- Whether a port uses a lane. -/
def usesLane (p : Port) (lane : Nat) : Bool :=
  match healthyAt p.good p.lanes with
  | some b => b ≤ lane && lane < b + p.lanes
  | none => false

/-- Starts training of a port whose EN is 1 (R25, R486). -/
def trainPort (s : State) (p : Nat) : State :=
  let x := portOf s p
  if x.st = .disabled ∧ x.en = true ∧ (p = 0 ∨ accepted s 1 = true) then setPort s p { x with st := .training } else s

/-- Disables a port: every connection of it fails (R486, R492). -/
def disablePort (s : State) (p : Nat) : State :=
  let s := setPort s p { portOf s p with en := false, st := .disabled, lanes := 0 }
  (s.conns.filter (fun k => k.port == p && !k.failed)).foldl connFail s

/-- PORT_TRAINING_DONE (R486). -/
def execPortTrainingDone (p : Nat) (good : BitVec 8) (s : State) : Host.Outcome State Fault Refusal :=
  let x := portOf s p
  let n := bestGroup good (maxLanes x)
  if x.st = .training ∧ n ≠ 0 then .next (setPort s p { x with st := .up, good := good, lanes := n })
  else .next s

/-- PORT_TRAINING_TIMEOUT (R486). -/
def execPortTrainingTimeout (p : Nat) (s : State) : Host.Outcome State Fault Refusal :=
  let x := portOf s p
  if x.st = .training then .next (setPort s p { x with st := .down, lanes := 0 })
  else .next s

/-- PORT_RETRAIN (R486). -/
def execPortRetrain (p : Nat) (s : State) : Host.Outcome State Fault Refusal :=
  let x := portOf s p
  if x.st = .down then .next (setPort s p { x with st := .training }) else .next s

/-- LANE_FAILURE (R40, R486). -/
def execLaneFailure (p lane : Nat) (s : State) : Host.Outcome State Fault Refusal :=
  let x := portOf s p
  if x.st = .up ∧ usesLane x lane = true then
    let good := x.good &&& ~~~ (1#8 <<< lane)
    let n := bestGroup good (x.lanes - 1)
    if n = 0 then .next (setPort s p { x with good := good, st := .down, lanes := 0 })
    else .next (setPort s p { x with good := good, lanes := n, degrade := x.degrade + 1 })
  else .next s

/-- LANE_RESTORE (R40, R486). -/
def execLaneRestore (p : Nat) (good : BitVec 8) (s : State) : Host.Outcome State Fault Refusal :=
  let x := portOf s p
  let n := bestGroup good (maxLanes x)
  if x.st = .up ∧ x.lanes < n then .next (setPort s p { x with good := good, lanes := n })
  else .next s

/-! ## Piste beats (R482) -/

/-- Whether two clusters of a die are neighbours in its grid. -/
def neighbours (a b : Nat) : Bool := (pisteHops a b).length == 1

/-- PISTE_BEAT_CRC_FAIL (R482): a replay, the sixteenth of which fences the link. -/
def execPisteBeatCrcFail (die src dst : Nat) (s : State) : Host.Outcome State Fault Refusal :=
  let same (x : Nat × Nat × Nat × Nat × Bool) : Bool := x.1 == die && x.2.1 == src && x.2.2.1 == dst
  let cur := s.piste.find? same
  let n := match cur with | some x => x.2.2.2.1 | none => 0
  let fenced := match cur with | some x => x.2.2.2.2 | none => false
  if 8 ≤ die ∨ 32 ≤ src ∨ 32 ≤ dst ∨ neighbours src dst = false ∨ fenced = true then .next s
  else
    let s := { s with piste := (die, src, dst, n + 1, decide (16 ≤ n + 1)) :: s.piste.filter (fun x => !(same x)) }
    .next (if 16 ≤ n + 1 then logError s 5 0xFF 0 (die * 32 + src) 0 0xFF else s)

end Sys2Proof.Machine
end

