-- ==== Sys2Proof/Machine/HostMem.lean ====
section
/-! DEFINITION. What a host or a peer does to memory, and the TRIGGER: READ, WRITE, WRITE_REL and ATOMIC through the host
agent (26_link.md R493 to R498; 12_word.md R263; 16_queue.md R332). -/

namespace Sys2Proof.Machine

/-! ## Admission of an access (R21, R493, R498) -/

/-- What the checks of an access come to: a status, a wait for a page, or the physical address with the leaf of a context's
page. -/
inductive HostX where
  | status (n : Nat)
  | wait (s : State)
  | go (pa : Nat) (leaf : Option (BitVec 64))

/-- Whether an import range admits bytes of a request from a peer package (R498). -/
def importOk (s : State) (a n : Nat) (rd wr : Bool) : Bool :=
  s.imports.any (fun r => decide (r.base.toNat ≤ a) && decide (a + n ≤ r.base.toNat + r.len.toNat) && (!rd || r.r) && (!wr || r.w))

/-- Notes on a connection what its head message waits for (R493). -/
def waitFor (s : State) (k : Conn) (key : Nat × Nat × Nat) : State :=
  { s with conns := s.conns.map (fun x => if sameConn k x then { x with waits := key :: x.waits } else x) }

/-- The checks of an access of n bytes, in order: who asks, the form of the message, translation and permissions. -/
def hostCheck (s : State) (k : Conn) (m : Msg) (n : Nat) (rd wr formOk : Bool) : HostX :=
  if k.port = 0 then
    if !k.owner then .status 1
    else if field m.addr 57 57 ≠ 0 ∨ formOk = false then .status 4
    else
      let c := ctxField m
      let va := field m.addr 56 0
      if (ctxOf s c).st = .empty then .status 2
      else if k.bad.any (fun b => va / 2 ^ b.2 == b.1 / 2 ^ b.2) then .status 2
      else
        match walk s c va with
        | (.unresolvable, _, _) => .status 2
        | (.refused, _, _) => .status 2
        | (.notPresent lv, _, _) =>
          .wait (waitFor (postFault s c lv va kHost (.msg k.port k.num.toNat m.seq.toNat)) k (faultKey lv va))
        | (.leaf e, _, _) =>
          if leafBase e va + 2 ^ leafLog e < va + n then .status 4
          else if leafKind e ≠ 0 ∨ (rd && !leafR e) = true ∨ (wr && !leafW e) = true ∨ isMemory (leafPa e va) = false then .status 2
          else .go (leafPa e va) (some e)
  else if field m.addr 63 52 ≠ 0 ∨ formOk = false then .status 4
  else
    let a := m.addr.toNat
    if importOk s a n rd wr = false then .status 3
    else if isMemory a = false ∨ isMemory (a + n - 1) = false then .status 2
    else .go a none

/-- The words of n bytes from a physical address on, each with its byte mask and the bytes in place. -/
def wordParts (pa : Nat) (bs : List Byte) : List (Nat × BitVec 4 × Word) :=
  let was := dedup ((List.range bs.length).map (fun i => (pa + i) / 4))
  was.map (fun wa => (List.range 4).foldl (fun (x : Nat × BitVec 4 × Word) j =>
    let a := 4 * wa + j
    if pa ≤ a ∧ a < pa + bs.length then
      (wa, x.2.1 ||| byteMask j 1, x.2.2 ||| .ofNat 32 ((getAt 0 bs (a - pa)).toNat * 256 ^ j))
    else x) (wa, 0, 0))

/-- Whether a registration of the host agent is out for some word. -/
def agentPending (s : State) (was : List Nat) : Bool :=
  s.l1.any (fun x => x.owner == hostOwner && x.st == .pending && was.contains x.wa)

/-- Whether a write to a page waits for its collapse (R292), which is begun. -/
def collapseFirst (s : State) (m : Msg) (e : Option (BitVec 64)) : Option State :=
  match e with
  | none => none
  | some e =>
    if mustCollapse s (ctxField m) (field m.addr 56 0) e then some (ensureCollapse s (ctxField m) (field m.addr 56 0) e).2 else none

/-! ## READ (R491, R493, R495, R496) -/

/-- What a READ does: it returns the bytes as their coherence order has them, after the connection's own writes. (assumption 57, DEDUCED) -/
def doRead : Perform := fun s k m =>
  let n := m.len.toNat
  match hostCheck s k m n true false (decide (n ≤ 4096) && m.payload.isEmpty) with
  | .status st => (reply s k m st, true)
  | .wait s => (s, false)
  | .go pa _ =>
    if agentPending s ((List.range n).map (fun i => (pa + i) / 4)) then (s, false)
    else (answer s (answerOf k m) 0 (cohBytes s pa n), true)

/-- READ (R495). -/
def execRead (m : Msg) (s : State) : Host.Outcome State Fault Refusal := .next (receive s 1 m doRead)

/-! ## WRITE (R263, R494) -/

/-- Writes back the oldest registered words of a connection until some more fit in 64 KiB (R494). -/
def agentRoom (s : State) (k : Conn) (n : Nat) : State :=
  let mine := hostWords s k
  let excess := mine.length + n - 16384
  (((mine.filter (fun x => x.st == .registered)).reverse).take excess).foldl (fun s x => flushWord s x.wa) s

/-- Whether the host agent holds a word REGISTERED. -/
def agentHas (s : State) (wa : Nat) : Bool :=
  match l1Find s.l1 hostOwner wa with
  | some e => e.st == .registered
  | none => false

/-- What a WRITE does: bytes of words that the agent has registered are written there, the others are registered, a line in
a message; it is answered when all are granted. -/
def doWrite : Perform := fun s k m =>
  let n := m.payload.length
  match hostCheck s k m n false true true with
  | .status st => (reply s k m st, true)
  | .wait s => (s, false)
  | .go pa e =>
    let ws := wordParts pa m.payload
    if agentPending s (ws.map (fun x => x.1)) then (s, false)
    else
    match collapseFirst s m e with
    | some s => (s, false)
    | none =>
      let s := agentRoom s k (ws.filter (fun x => (l1Find s.l1 hostOwner x.1).isNone)).length
      let c := if k.port = 0 then ctxField m else 0
      let local_ := ws.filter (fun x => agentHas s x.1)
      let far := ws.filter (fun x => !(agentHas s x.1))
      let put1 (l : List L1Word) (x : Nat × BitVec 4 × Word) : List L1Word :=
        match l1Find l hostOwner x.1 with
        | some y => l1Put l { y with val := overlay y.val x.2.2 x.2.1, mask := y.mask ||| x.2.1, conn := connId k }
        | none => l
      let put2 (l : List L1Word) (x : Nat × BitVec 4 × Word) : List L1Word :=
        l1Put l { owner := hostOwner, wa := x.1, st := .pending, val := x.2.2, mask := x.2.1, ctx := c, conn := connId k }
      let s := { s with l1 := far.foldl put2 (local_.foldl put1 s.l1) }
      let lines := dedup (far.map (fun x => x.1 / 16))
      let (s, ids) := lines.foldl (fun (acc : State × List Nat) ln =>
        let kind : NetKind := .register (far.filter (fun x => x.1 / 16 == ln)) 0 c false none
        (netSend acc.1 hostOwner kind, acc.2 ++ [acc.1.fresh])) (s, [])
      if ids.isEmpty then (reply s k m 0, true)
      else ({ s with hostOps := s.hostOps ++ [⟨answerOf k m, ids⟩] }, true)

/-- WRITE (R263, R494). -/
def execWrite (m : Msg) (s : State) : Host.Outcome State Fault Refusal := .next (receive s 2 m doWrite)

/-- Answers every WRITE whose registrations have all been granted (R494). -/
def answerWrites (s : State) : State :=
  let done := s.hostOps.filter (fun h => h.msgs.isEmpty)
  done.foldl (fun s h => answer s h.ans 0 []) { s with hostOps := s.hostOps.filter (fun h => !h.msgs.isEmpty) }

/-! ## WRITE_REL (R263, R270, R495) -/

/-- What a WRITE_REL does: every registered word of the connection goes back to HOME, then its own bytes. -/
def doWriteRel : Perform := fun s k m =>
  match hostCheck s k m m.payload.length false true true with
  | .status st => (reply s k m st, true)
  | .wait s => (s, false)
  | .go pa e =>
    if hostPending s k then (s, false)
    else
      match collapseFirst s m e with
      | some s => (s, false)
      | none =>
        let s := hostFlush s k
        let s := (wordParts pa m.payload).foldl (fun s x => cohStore s x.1 x.2.1 x.2.2) s
        (reply s k m 0, true)

/-- WRITE_REL (R495). -/
def execWriteRel (m : Msg) (s : State) : Host.Outcome State Fault Refusal := .next (receive s 3 m doWriteRel)

/-! ## ATOMIC (R207, R493, R496) -/

/-- What an ATOMIC does: one indivisible step on the word at its home slice; it returns the old value. -/
def doAtomic : Perform := fun s k m =>
  let op := m.op.toNat
  let formOk := decide (op ≤ 11) && m.payload.length == (if op = 9 then 8 else 4) && m.addr.toNat % 4 == 0
  match hostCheck s k m 4 true true formOk with
  | .status st => (reply s k m st, true)
  | .wait s => (s, false)
  | .go pa e =>
    if agentPending s [pa / 4] then (s, false)
    else
      match collapseFirst s m e with
      | some s => (s, false)
      | none =>
        let old := cohWord s (pa / 4)
        let new := atomOp op old (.ofNat 32 (pl m 0 4)) (.ofNat 32 (pl m 4 4))
        (answer (cohAtomic s (pa / 4) new) (answerOf k m) 0 (natLe 4 old.toNat), true)

/-- ATOMIC (R496). -/
def execAtomic (m : Msg) (s : State) : Host.Outcome State Fault Refusal := .next (receive s 4 m doAtomic)

/-! ## TRIGGER (R332) -/

/-- What a TRIGGER does: the connection's earlier WRITEs are in memory first, as at a WRITE_REL (R332), and the queue takes its new WR. -/
def doTrigger : Perform := fun s k m =>
  if !(isOwner k) then (reply s k m 1, true)
  else if field m.addr 57 8 ≠ 0 ∨ m.payload.length ≠ 4 then (reply s k m 4, true)
  else
    match queueFind s (field m.addr 7 0) with
    | none => (reply s k m 21, true)
    | some q =>
      let wr : BitVec 32 := .ofNat 32 (pl m 0 4)
      if q.ctx ≠ ctxField m ∨ q.kind ≠ 0 ∨ q.st = 0 ∨ q.st = 3 then (reply s k m 21, true)
      else if qSlots q < (wr - q.rd).toNat ∨ 2 ^ 31 ≤ (wr - q.wr).toNat then (reply s k m 22, true)
      else if hostPending s k then (s, false)
      else (reply (putQueue (hostFlush s k) { q with wr := wr }) k m 0, true)

/-- TRIGGER (R332). -/
def execTrigger (m : Msg) (s : State) : Host.Outcome State Fault Refusal := .next (receive s 5 m doTrigger)

end Sys2Proof.Machine
end

