-- ==== Sys2Proof/Machine/Manage.lean ====
section
/-! DEFINITION. Management commands on contexts, queues, graphs, identifiers, windows and rings, and the COMPLETIONs of the
device's own requests (26_link.md R497 to R508, R519, R522; 15_context.md R306 to R309; 16_queue.md R330, R331, R336;
17_kernel.md R343, R344; 14_page.md R295, R298; 23_tensor.md R449). -/

namespace Sys2Proof.Machine

/-- Receives a management command. -/
def mgmt (s : State) (m : Msg) (f : Perform) : Host.Outcome State Fault Refusal := .next (receive s 6 m f)

/-- Whether a length is one number. -/
def len (n : Nat) : Nat → Bool := fun x => x == n

/-- The context record that a command names. -/
def ctxNamed (s : State) (m : Msg) : Ctx := ctxOf s (ctxField m)

/-! ## Contexts (R306, R307, R309, R311, R503) -/

/-- The bits of each doubleword of the build block that a field covers (R151, R311, R383, R497). -/
def buildFields : List (List (Nat × Nat)) :=
  [[(56, 4)], [(56, 5)], [(7, 0)], [(56, 13)], [(56, 20)], [(51, 12)], [(63, 32), (2, 0)], [(47, 32), (17, 0)], [(56, 13)],
   [(56, 48)], [(63, 63), (31, 0)]]

/-- A doubleword without the bits of some fields. -/
def outside (v : DWord) (fs : List (Nat × Nat)) : DWord :=
  fs.foldl (fun v f => v - .ofNat 64 (field v f.1 f.2 * 2 ^ f.2)) v

/-- The doublewords of a build block. -/
def buildWords (m : Msg) : List DWord := (List.range 11).map (fun n => .ofNat 64 (pl m (8 * n) 8))

/-- Whether a build block is refused with BAD_CONTEXT (R307). -/
def buildBad (ws : List DWord) : Bool :=
  (ws.zip buildFields).any (fun p => outside p.1 p.2 != 0) ||
  (let lim := getAt 0 ws 7; field lim 17 0 == 0 || decide (131072 < field lim 17 0) || field lim 47 32 == 0)

/-- A context as BUILD leaves it (R311, R503, R509). -/
def builtCtx (race : Bool) (ws : List DWord) : Ctx :=
  let w (n : Nat) : DWord := getAt 0 ws n
  { st := .built, codebase := w 0, trapvec := w 1, trapctl := w 2, framebase := w 3, savebase := w 4, ptroot := w 5
    ctxcfg := w 6, ctxlim := w 7, regback := w 8, arena := w 9, hostwin := w 10, raceEn := race
    bp := List.replicate 8 0, wpbase := List.replicate 8 0, wpctl := List.replicate 8 0 }

/-- What BUILD does. (assumption 69, DEDUCED) -/
def doBuild : Perform := command true (len 88) (fun s k m =>
  let ws := buildWords m
  if s.featWritten = false then reply s k m 9
  else if buildBad ws then reply s k m 16
  else if (ctxNamed s m).st ≠ .empty then reply s k m 17
  else reply (setCtx s (ctxField m) (builtCtx (accepted s 3) ws)) k m 0)

/-- BUILD (R306, R307). -/
def execBuild (m : Msg) (s : State) : Host.Outcome State Fault Refusal := mgmt s m doBuild

/-- What RUN does. -/
def doRun : Perform := command true (len 0) (fun s k m =>
  let x := ctxNamed s m
  if x.st ≠ .built then reply s k m 8 else reply (setCtx s (ctxField m) { x with st := .runnable }) k m 0)

/-- RUN (R306, R307). -/
def execRun (m : Msg) (s : State) : Host.Outcome State Fault Refusal := mgmt s m doRun

/-- What PREEMPT does: it begins a pre-emption, or joins one by slice (R307, R324). -/
def doPreempt : Perform := command true (len 0) (fun s k m =>
  let x := ctxNamed s m
  let a := answerOf k m
  if x.st = .running ∨ x.st = .runnable then
    match x.preempt with
    | none => setCtx s (ctxField m) { x with preempt := some ⟨false, [a]⟩ }
    | some p =>
      if p.slice && p.answers.isEmpty then setCtx s (ctxField m) { x with preempt := some ⟨true, [a]⟩ } else reply s k m 7
  else reply s k m (if x.st = .halted then 18 else 8))

/-- PREEMPT (R306, R307, R324). -/
def execPreempt (m : Msg) (s : State) : Host.Outcome State Fault Refusal := mgmt s m doPreempt

/-- What RESUME does. -/
def doResume : Perform := command true (len 0) (fun s k m =>
  let x := ctxNamed s m
  if x.st = .preempted then reply (setCtx s (ctxField m) { x with st := .runnable }) k m 0
  else if x.st = .faulted then reply s k m 19
  else if x.preempt.any (fun p => !p.answers.isEmpty) then reply s k m 7
  else reply s k m 8)

/-- RESUME (R306, R307, R329). -/
def execResume (m : Msg) (s : State) : Host.Outcome State Fault Refusal := mgmt s m doResume

/-- Who hears of a queue's forced destruction. -/
def queueAnswer (q : Queue) : List Answer := match q.answer with | some (p, c, t) => [⟨p, c, .ofNat 32 t⟩] | none => []

/-- The queues of a context become FREE, whatever their state; a forced destruction of one is answered TORN_DOWN (R309, R331,
R336). -/
def freeQueues (s : State) (c : Nat) : State :=
  (s.queues.filter (fun q => q.ctx == c && q.st != 0)).foldl (fun s q =>
    answerAll (freeQueue s q) (queueAnswer q) 20) s

/-- What TEARDOWN does: no warp of the context issues from now on (R308, R309). -/
def doTeardown : Perform := command true (len 0) (fun s k m =>
  let x := ctxNamed s m
  let a := answerOf k m
  if x.st = .empty then reply s k m 8
  else
    let excess := match x.preempt with | some p => p.answers | none => []
    answerAll (setCtx (freeQueues s (ctxField m)) (ctxField m) { x with st := .teardown, preempt := none, teardown := x.teardown ++ [a] }) excess 20)

/-- TEARDOWN (R306 to R309). -/
def execTeardown (m : Msg) (s : State) : Host.Outcome State Fault Refusal := mgmt s m doTeardown

/-! ## Queues (R330, R331, R336) -/

/-- What Q_CREATE does. -/
def doQCreate : Perform := command true (len 16) (fun s k m =>
  let c := ctxField m
  let kind := pl m 1 1
  let lg := pl m 2 1
  let base := pl m 8 8
  let size := 2 ^ lg * (if kind = 0 then 64 else 32)
  if pl m 4 4 ≠ 0 ∨ 1 < kind ∨ 2 ^ 57 ≤ base then reply s k m 4
  else if (queueFind s (pl m 0 1)).isSome ∨ lg < 4 ∨ 16 < lg ∨ base % size ≠ 0 ∨ (ctxOf s c).st = .empty ∨
      (kind = 0 ∧ (queueFind s (pl m 3 1)).any (fun q => q.kind == 1 && q.st == 1 && q.ctx == c) = false) then reply s k m 21
  else reply (putQueue s { num := pl m 0 1, base := .ofNat 64 base, cq := pl m 3 1, st := 1, kind := kind, ctx := c, log2 := lg }) k m 0)

/-- Q_CREATE (R330, R331). -/
def execQCreate (m : Msg) (s : State) : Host.Outcome State Fault Refusal := mgmt s m doQCreate

/-- The queue of the context that a command names. -/
def queueNamed (s : State) (m : Msg) : Option Queue := (queueFind s (pl m 0 1)).filter (fun q => q.ctx == ctxField m)

/-- What Q_RESET does. -/
def doQReset : Perform := command true (len 8) (fun s k m =>
  let n : BitVec 32 := .ofNat 32 (pl m 4 4)
  if pl m 1 3 ≠ 0 then reply s k m 4
  else
    match queueNamed s m with
    | none => reply s k m 21
    | some q =>
      if q.st ≠ 2 then reply s k m 8
      else if qSlots q < (q.wr - n).toNat then reply s k m 22
      else reply (putQueue s { q with st := 1, rd := n }) k m 0)

/-- Q_RESET (R331). -/
def execQReset (m : Msg) (s : State) : Host.Outcome State Fault Refusal := mgmt s m doQReset

/-- The trigger queues that name a completion queue and may still run work. -/
def feeders (s : State) (q : Queue) : List Queue :=
  s.queues.filter (fun t => t.kind == 0 && t.ctx == q.ctx && t.cq == q.num && (t.st == 1 || t.st == 2))

/-- Whether a queue has running work (R336). (assumption 62, DEDUCED) -/
def queueBusy (s : State) (q : Queue) : Bool :=
  if q.kind = 0 then s.insts.any (fun x => x.queue == q.num && x.ctx == q.ctx) || s.queues.any (fun c => c.ctx == q.ctx && c.recs.any (fun r => r.launch && r.src == q.num))
  else !(feeders s q).isEmpty

/-- What Q_DESTROY does. (assumption 61, DEDUCED) -/
def doQDestroy : Perform := command true (len 8) (fun s k m =>
  if 1 < pl m 1 1 ∨ pl m 2 6 ≠ 0 then reply s k m 4
  else
    match queueNamed s m with
    | none => reply s k m 21
    | some q =>
      if q.st = 3 then reply s k m 8
      else if queueBusy s q = false then reply (freeQueue s q) k m 0
      else if pl m 1 1 = 0 then reply s k m 7
      else
        let s := if q.kind = 1 then (feeders s q).foldl (fun s t => putQueue s { t with st := 2 }) s else s
        putQueue s { q with st := 3, recs := if q.kind = 1 then [] else q.recs, answer := some (k.port, k.num.toNat, m.tag.toNat) })

/-- Q_DESTROY (R331, R336). -/
def execQDestroy (m : Msg) (s : State) : Host.Outcome State Fault Refusal := mgmt s m doQDestroy

/-- The runs of a trigger queue. -/
def runsOf (s : State) (q : Queue) : List Inst := s.insts.filter (fun x => x.queue == q.num && x.ctx == q.ctx)

/-- Whether every warp of some launches has stopped where it may be discarded (R325, R336). -/
def mayDiscard (s : State) (c : Nat) (ids : List Nat) : Bool :=
  s.warps.all (fun w => w.ctx != c || !(ids.contains w.launch) || outOfCores w || mustStop s w)

/-- Ends the runs that are aborted for their launches' number, once their warps have stopped (R346). -/
def endAborted (s : State) : State :=
  (s.insts.filter (fun x => x.aborted)).foldl (fun s x =>
    if mayDiscard s x.ctx (instLaunches s x) then abortInst (killLaunches s x.ctx (instLaunches s x)) x 2 else s) s

/-- QUEUE_DESTROY_DONE (R336). -/
def dueQueueDestroyDone (n : Nat) (s : State) : Option State :=
  match queueFind s n with
  | none => none
  | some q =>
    let xs := runsOf s q
    let ids := if q.kind = 0 then xs.flatMap (instLaunches s) else []
    if q.st = 3 ∧ mayDiscard s q.ctx ids = true then
      let s := if q.kind = 0 then xs.foldl (fun s x => abortInst s x 2) (killLaunches s q.ctx ids) else s
      some (answerAll (freeQueue s q) (queueAnswer q) 0)
    else none

/-- QUEUE_DESTROY_DONE, which takes place where it is due. -/
def execQueueDestroyDone (n : Nat) (s : State) : Host.Outcome State Fault Refusal := takes s (dueQueueDestroyDone n s)

/-- What a REGWRITE of a completion queue's RD does: the owner has consumed records up to it (R330). -/
def putQueueRd (s : State) (n : Nat) (v : BitVec 32) : State :=
  match queueFind s n with
  | some q => if q.kind = 1 then putQueue s { q with rd := v } else s
  | none => s

/-! ## Graphs (R343, R344) -/

/-- A node of a descriptor (R342, R343). -/
def nodeFrom (bs : List Byte) : Node :=
  { entry := .ofNat 32 (fr bs 0 4), bthreads := fr bs 4 2, cblocks := fr bs 6 1, ndies := fr bs 7 1, dclust := fr bs 8 2
    record := fr bs 10 2 % 2 == 1, tiles := fr bs 12 1, floor := fr bs 13 1, fuse := fr bs 14 1 % 2 == 1
    producer := fr bs 14 1 / 2 % 4, scratch := fr bs 15 4, roles := (List.range 3).map (fun i => fr bs (19 + i) 1)
    caps := (List.range 3).map (fun i => fr bs (22 + i) 1), pmode := .ofNat 32 (fr bs 32 4), stride := .ofNat 32 (fr bs 36 4)
    slots := (List.range 16).map (fun i => .ofNat 64 (fr bs (64 + 8 * i) 8)) }

/-- An edge of a descriptor (R343). -/
def edgeFrom (bs : List Byte) : Edge :=
  { src := fr bs 0 2, dst := fr bs 2 2, record := fr bs 4 1 % 2 == 1, e := fr bs 4 1 / 2 % 8, log2cap := fr bs 5 1, thresh := fr bs 6 2 }

/-- A graph from its descriptor. -/
def graphFrom (num c : Nat) (bs : List Byte) : Graph :=
  let n := fr bs 0 2
  { num := num, ctx := c, size := bs.length
    nodes := (List.range n).map (fun i => nodeFrom ((bs.drop (16 + 192 * i)).take 192))
    edges := (List.range (fr bs 2 2)).map (fun i => edgeFrom ((bs.drop (16 + 192 * n + 8 * i)).take 8)) }

/-- Whether a role's register cap lies outside its range (R109, R342): 1 to 56, and 0 for a role without warps. -/
def capBad (warps cap : Nat) : Bool := if warps = 0 then cap != 0 else cap == 0 || decide (56 < cap)

/-- Whether a node breaks a range, an alignment, a zero field or a limit (R342 to R344); `bs` its bytes. -/
def nodeBad (bs : List Byte) : Bool :=
  let x := nodeFrom bs
  let roles := x.roles.foldl (· + ·) 0
  x.entry.toNat % 16 != 0 || x.bthreads == 0 || decide (3072 < x.bthreads) || x.cblocks == 0 || decide (4 < x.cblocks) ||
  x.ndies == 0 || decide (8 < x.ndies) || x.dclust == 0 || decide (32 < x.dclust) || decide (1 < fr bs 10 2) || decide (16 < x.tiles) ||
  decide (56 < x.floor) || (List.range 3).any (fun i => capBad (getAt 0 x.roles i) (getAt 0 x.caps i)) || decide (8 ≤ fr bs 14 1) || x.scratch % 256 != 0 || decide (Config.scratchLimit < x.scratch) ||
  fr bs 25 7 != 0 || (List.range 16).any (fun i => decide (2 ≤ x.pmode.toNat / 4 ^ i % 4)) ||
  fr bs 40 24 != 0 || (roles != 0 && roles != nodeWarps x) || decide (4096 < x.floor * nodeWarps x)

/-- Whether an edge of a graph of n nodes breaks R343; `bs` its bytes. -/
def edgeBad (n : Nat) (bs : List Byte) : Bool :=
  let e := edgeFrom bs
  decide (n ≤ e.src) || decide (n ≤ e.dst) || decide (16 ≤ fr bs 4 1) ||
  (if e.record then decide (e.log2cap < 4) || decide (12 < e.log2cap) || e.thresh == 0 || decide (2 ^ e.log2cap < e.thresh)
   else e.e != 0 || e.log2cap != 0 || e.thresh != 0)

/-- Removes nodes without an in-edge from the nodes left, n times: what stays lies on or behind a cycle. -/
def acyclicLeft (es : List Edge) : Nat → List Nat → List Nat
  | 0, ns => ns
  | f + 1, ns => acyclicLeft es f (ns.filter (fun n => es.any (fun e => e.dst == n && ns.contains e.src)))

/-- Whether a node's in-edges break R344. -/
def inEdgesBad (g : Graph) (n : Nat) : Bool :=
  let ins := g.edges.filter (fun e => e.dst == n)
  match graphNode g n with
  | none => false
  | some x => if x.record then !(ins.length == 1 && ins.all (fun e => e.record)) else ins.any (fun e => e.record)

/-- Whether two record out-edges of a node share E (R344). -/
def outEdgesBad (g : Graph) (n : Nat) : Bool :=
  let es := (g.edges.filter (fun e => e.src == n && e.record)).map (fun e => e.e)
  (dedup es).length != es.length

/-- Whether a descriptor is refused with BAD_GRAPH (R343, R344, R500). -/
def graphBad (num c : Nat) (bs : List Byte) : Bool :=
  let n := fr bs 0 2
  let e := fr bs 2 2
  if n = 0 ∨ 256 < n ∨ 1024 < e ∨ fr bs 4 1 ≠ c ∨ fr bs 5 11 ≠ 0 ∨ bs.length ≠ 16 + 192 * n + 8 * e then true
  else
    let g := graphFrom num c bs
    (List.range n).any (fun i => nodeBad ((bs.drop (16 + 192 * i)).take 192) || inEdgesBad g i || outEdgesBad g i) ||
    (List.range e).any (fun i => edgeBad n ((bs.drop (16 + 192 * n + 8 * i)).take 8)) ||
    !(acyclicLeft g.edges n (List.range n)).isEmpty

/-- Whether a graph number has a run or one to come (R344). -/
def graphBusy (s : State) (num : Nat) : Bool := s.insts.any (fun x => x.graph == num)

/-- Whether a descriptor fits in the 16 MiB of the graph store beside the other graphs (R344). -/
def graphFits (s : State) (num n : Nat) : Bool :=
  decide ((s.graphs.filter (fun g => g.num != num)).foldl (fun a g => a + g.size) 0 + n ≤ 2 ^ 24)

/-- Asks the host for the next bytes of a descriptor (R500). -/
def askGraph (s : State) (k : Conn) (g : GraphLoad) : State :=
  let off := g.bytes.length
  let n := min 4096 (g.len - off)
  match connNow s k with
  | none => s
  | some k =>
    setConn s { connRequest k { ty := 1, seq := 0, addr := g.addr + .ofNat 64 off, len := n } (.graph g.num off) with
      loads := g :: k.loads.filter (fun x => !(x.num == g.num)) }

/-- Ends the gathering of a descriptor: it is checked and loaded, or refused. -/
def loadGraph (s : State) (k : Conn) (g : GraphLoad) : State :=
  let s := match connNow s k with
    | some k => setConn s { k with loads := k.loads.filter (fun x => !(x.num == g.num)) }
    | none => s
  if (ctxOf s g.ctx).st = .empty then answer s g.ans 16 []
  else if graphFits s g.num g.len = false then answer s g.ans 23 []
  else if graphBusy s g.num then answer s g.ans 7 []
  else if graphBad g.num g.ctx g.bytes then answer s g.ans 24 []
  else answer { s with graphs := graphFrom g.num g.ctx g.bytes :: s.graphs.filter (fun x => !(x.num == g.num)) } g.ans 0 []

/-- What LOAD_GRAPH does: the descriptor is gathered by READs on the same connection. (assumption 60, DEDUCED) -/
def doLoadGraph : Perform := command true (len 24) (fun s k m =>
  let num := pl m 0 2
  let n := pl m 16 8
  if 1024 ≤ num ∨ pl m 2 6 ≠ 0 then reply s k m 4
  else if (ctxNamed s m).st = .empty then reply s k m 16
  else if graphFits s num n = false then reply s k m 23
  else if graphBusy s num || k.loads.any (fun g => g.num == num) then reply s k m 7
  else if n < 16 then reply s k m 24
  else askGraph s k ⟨num, ctxField m, .ofNat 64 (pl m 8 8), n, [], answerOf k m⟩)

/-- LOAD_GRAPH (R344, R500). -/
def execLoadGraph (m : Msg) (s : State) : Host.Outcome State Fault Refusal := mgmt s m doLoadGraph

/-- What UNLOAD_GRAPH does; of a number that holds no graph of the context it is BAD_GRAPH. (assumption 131, DESIGN CHOICE) -/
def doUnloadGraph : Perform := command true (len 8) (fun s k m =>
  let num := pl m 0 2
  if pl m 2 6 ≠ 0 then reply s k m 4
  else if (graphFind s (ctxField m) num).isNone then reply s k m 24
  else if graphBusy s num then reply s k m 7
  else reply { s with graphs := s.graphs.filter (fun x => !(x.num == num)) } k m 0)

/-- UNLOAD_GRAPH (R344). -/
def execUnloadGraph (m : Msg) (s : State) : Host.Outcome State Fault Refusal := mgmt s m doUnloadGraph

/-! ## Translations and faults (R295, R298, R507) -/

/-- What INVALIDATE does: a multicast to the eight compute dies. -/
def doInvalidate : Perform := command true (len 16) (fun s k m =>
  startCast s (.invalidate (ctxField m) (pl m 0 8) (pl m 8 8) (pl m 8 8 == 0) k.port k.num.toNat m.tag.toNat))

/-- INVALIDATE (R295). -/
def execInvalidate (m : Msg) (s : State) : Host.Outcome State Fault Refusal := mgmt s m doInvalidate

/-- What RESOLVE and UNRESOLVABLE do. -/
def doAnswer (bad : Bool) : Perform := command true (len 8) (fun s k m =>
  if pl m 2 6 ≠ 0 then reply s k m 4
  else
    match answerFault s (ctxField m) (pl m 0 2) bad with
    | none => reply s k m 4
    | some s => reply s k m 0)

/-- RESOLVE (R298, R507). -/
def execResolve (m : Msg) (s : State) : Host.Outcome State Fault Refusal := mgmt s m (doAnswer false)

/-- UNRESOLVABLE (R298, R507). -/
def execUnresolvable (m : Msg) (s : State) : Host.Outcome State Fault Refusal := mgmt s m (doAnswer true)

/-! ## Identifiers, windows, lists and rings (R449, R497, R508, R519, R522) -/

/-- What SET_TID does: one write of a whole entry, after the writes to the store that are on their way. (assumption 65, DEDUCED) -/
def doSetTid : Perform := fun s k m =>
  if isOwner k && tidBusy s (ctxField m) then (s, false)
  else
    command true (len 136) (fun s k m =>
      let x := ctxNamed s m
      let im := m.payload.drop 8
      if pl m 1 7 ≠ 0 then reply s k m 4
      else if x.st = .empty ∨ x.st = .teardown then reply s k m 8
      else if imageBad s im then reply s k m 25
      else reply (tidWrite s (ctxField m) (pl m 0 1) 0 (layBytes im 11 [BitVec.ofNat 8 (img im 11 1 % 128 + 128)])) k m 0) s k m

/-- SET_TID (R449). -/
def execSetTid (m : Msg) (s : State) : Host.Outcome State Fault Refusal := mgmt s m doSetTid

/-- Whether an image of a fabric window entry is malformed (R497). -/
def fabwinBad (im : List Byte) : Bool :=
  decide (1 < fr im 0 1) || fr im 8 8 != 0 || (fr im 0 1 == 1 && (fr im 1 1 == 0 || decide (8 < fr im 1 1)))

/-- What SET_FABWIN does. -/
def doSetFabwin : Perform := command true (len 24) (fun s k m =>
  let x := ctxNamed s m
  let im := m.payload.drop 8
  if pl m 1 7 ≠ 0 ∨ 128 ≤ pl m 0 1 ∨ fabwinBad im = true then reply s k m 4
  else if x.st = .empty then reply s k m 8
  else reply (setCtx s (ctxField m) { x with fabwin := putKey (pl m 0 1) im x.fabwin }) k m 0)

/-- SET_FABWIN (R497). -/
def execSetFabwin (m : Msg) (s : State) : Host.Outcome State Fault Refusal := mgmt s m doSetFabwin

/-- Whether numbers rise. -/
def rising : List Nat → Bool
  | [] => true
  | [_] => true
  | a :: b :: r => decide (a < b) && rising (b :: r)

/-- The offsets of a safe-point list, if they can be read and rise (R508). -/
def listOk (s : State) (c base n : Nat) : Bool :=
  match devRead s c base (4 * n) with
  | .error _ => false
  | .ok bs => rising ((List.range n).map (fun i => fr bs (4 * i) 4))

/-- What SET_SAFEPT does. (assumption 63, DEDUCED) -/
def doSetSafept : Perform := command true (len 16) (fun s k m =>
  let x := ctxNamed s m
  let n := pl m 8 4
  if pl m 12 4 ≠ 0 ∨ n = 0 ∨ 65536 < n then reply s k m 4
  else if x.st = .empty then reply s k m 8
  else if listOk s (ctxField m) (pl m 0 8) n = false then reply s k m 26
  else if x.bp.any (fun b => b.getLsbD 31 && decide (n ≤ b.toNat % 65536)) then reply s k m 27
  else reply (setCtx s (ctxField m) { x with safept := some (.ofNat 64 (pl m 0 8), n) }) k m 0)

/-- SET_SAFEPT (R508, R509). -/
def execSetSafept (m : Msg) (s : State) : Host.Outcome State Fault Refusal := mgmt s m doSetSafept

/-- What SET_BBC does. -/
def doSetBbc : Perform := command true (len 8) (fun s k m =>
  let x := ctxNamed s m
  let v : DWord := .ofNat 64 (pl m 0 8)
  if field v 62 57 ≠ 0 ∨ field v 2 0 ≠ 0 then reply s k m 4
  else if x.st = .built ∨ x.st = .preempted then reply (setCtx s (ctxField m) { x with bbcctl := v }) k m 0
  else reply s k m 8)

/-- SET_BBC (R509, R522). -/
def execSetBbc (m : Msg) (s : State) : Host.Outcome State Fault Refusal := mgmt s m doSetBbc

/-- What SET_RING does: the ring starts empty of the device's records. (assumption 64, DEDUCED) -/
def doSetRing : Perform := command true (len 24) (fun s k m =>
  let x := ctxNamed s m
  let n := pl m 1 1
  let p := pl m 16 4
  let r : Ring := { base := .ofNat 64 (pl m 8 8), k := n, period := p }
  if 1 < pl m 0 1 ∨ n < 4 ∨ 20 < n ∨ pl m 2 6 ≠ 0 ∨ pl m 20 4 ≠ 0 ∨ pl m 8 8 % 8 ≠ 0 ∨
      (pl m 0 1 = 0 ∧ p ≠ 0 ∧ (p < 32 ∨ 2 ^ 24 < p)) ∨ (pl m 0 1 = 1 ∧ p ≠ 0) then reply s k m 4
  else if x.st = .empty then reply s k m 8
  else reply (setCtx s (ctxField m) (if pl m 0 1 = 0 then { x with sampleRing := some r } else { x with stampRing := some r })) k m 0)

/-- SET_RING (R519). -/
def execSetRing (m : Msg) (s : State) : Host.Outcome State Fault Refusal := mgmt s m doSetRing

/-! ## COMPLETIONs of the device's requests (R491, R497, R498, R500, R505) -/

/-- A chunk of a descriptor has come (R500). -/
def graphChunk (s : State) (k : Conn) (num off : Nat) (m : Msg) : State :=
  match k.loads.find? (fun g => g.num == num && g.bytes.length == off) with
  | none => s
  | some g =>
    if m.op ≠ 0 ∨ m.payload.length ≠ min 4096 (g.len - off) then
      answer (setConn s { k with loads := k.loads.filter (fun x => !(x.num == num)) }) g.ans 2 []
    else
      let g := { g with bytes := g.bytes ++ m.payload }
      if g.len ≤ g.bytes.length then loadGraph s k g else askGraph s k g

/-- What a COMPLETION does: the request that its TAG names is done, or its device access is lost. -/
def doCompletion : Perform := fun s k m =>
  match k.reqs.find? (fun r => r.1 == m.tag) with
  | none => (s, true)
  | some (_, r) =>
    let k := { k with reqs := k.reqs.filter (fun x => !(x.1 == m.tag)) }
    let s := setConn s k
    let ok := m.op == 0
    let full := ok && m.payload.length == 4
    let v : Word := .ofNat 32 (pl m 0 4)
    (match r with
     | .event => s
     | .graph num off => graphChunk s k num off m
     | .window c n op wa =>
       let pair := readsPair s c n op
       if ok && m.payload.length == (if pair then 8 else 4) then
         (let s := learnAt s c n op wa v
          if pair then learnAt s c n op (wa + 1) (.ofNat 32 (pl m 4 4)) else s)
       else failReq s r
     | .store _ _ msg => if ok then storeGranted s msg else failReq s r
     | .atom c n op lane wa => if full then atomReply (dropWindow s c n wa) c n op [(lane, v)] else failReq s r
     | .engine who va false => if full then engineRead s who va v else failReq s r
     | .engine who _ true => if ok then engineWrote s who else failReq s r, true)

/-- COMPLETION (R490, R491). -/
def execCompletion (m : Msg) (s : State) : Host.Outcome State Fault Refusal := .next (receive s 7 m doCompletion)

end Sys2Proof.Machine
end

