-- ==== Sys2Proof/Machine/Registers.lean ====
section
/-! DEFINITION. The management registers and the records of contexts, and the writes that act: the feature set, islands,
ports, debug registers, completion queues (26_link.md R486, R487, R497, R498, R502, R503; 01_device.md R18, R24, R30 to
R34; 27_debug.md R509; 16_queue.md R330). -/

namespace Sys2Proof.Machine

/-! ## Reading (R502, R503) -/

/-- A doubleword of a list of bytes. -/
def dwordOf (bs : List Byte) (off : Nat) : DWord := .ofNat 64 (fr bs off 8)

/-- ISLANDCTL (R32). -/
def islandCtl (x : Island) : DWord :=
  .ofNat 64 (bit x.busy * 2 ^ 31 + x.result * 2 ^ 24 + x.st * 2 ^ 14 + x.point * 2 ^ 11 + x.reqSt * 2 ^ 6 + x.reqPoint * 2 ^ 3)

/-- The code of a port's state (R487). -/
def portCode : PortSt → Nat
  | .disabled => 0 | .training => 1 | .up => 2 | .down => 3

/-- PORTCTL and PORTSTAT (R487). -/
def portCtl (p : Port) : DWord := .ofNat 64 (bit p.en + 2 * p.maxl)
def portStat (p : Port) : DWord :=
  .ofNat 64 (portCode p.st * 2 ^ 28 + p.good.toNat * 2 ^ 20 + p.lanes * 2 ^ 16 + p.degrade.toNat)

/-- Doubleword n of an import range (R502). -/
def importWord (x : Import) (n : Nat) : DWord :=
  match n with
  | 0 => x.base
  | 1 => x.len
  | 2 => .ofNat 64 (bit x.r + 2 * bit x.w)
  | _ => 0

/-- Doubleword n of a queue descriptor (R330). -/
def queueWord (q : Queue) (n : Nat) : DWord :=
  match n with
  | 0 => q.base
  | 1 => .ofNat 64 (q.cq * 2 ^ 32 + q.st * 2 ^ 28 + q.kind * 2 ^ 24 + q.ctx * 2 ^ 16 + q.log2)
  | 2 => q.rd.setWidth 64
  | _ => q.wr.setWidth 64

/-- The error-log entry at an index of the ring (R502): the newest whose number is that index modulo 256. -/
def logEntry (s : State) (e : Nat) : List Byte :=
  let n := s.errLogWr.toNat
  let back := (n + 2 ^ 64 - 1 - e) % 256
  if back < s.errLog.length then getAt [] s.errLog (s.errLog.length - 1 - back) else []

/-- The nonce of a connection as CLAIMNONCE shows it (R19). -/
def nonceBytes (k : Conn) : List Byte := (List.range 32).map (getAt 0 k.nonce)

/-- The device serial number. -/
def serialBytes (s : State) : List Byte := (List.range 16).map (getAt 0 s.serial)

/-- A doubleword of a context's management record, at 0x10000 + 8n (R503). -/
def recordWord (x : Ctx) (n : Nat) : Option DWord :=
  if n = 0 then some (.ofNat 64 (ctxCode x.st))
  else if 4 ≤ n ∧ n < 8 then some (dwordOf x.faultrec (8 * (n - 4)))
  else
    match n with
    | 8 => some x.codebase
    | 9 => some x.trapvec
    | 10 => some x.trapctl
    | 11 => some x.framebase
    | 12 => some x.savebase
    | 13 => some x.ptroot
    | 14 => some x.ctxcfg
    | 15 => some x.ctxlim
    | 16 => some x.regback
    | 17 => some x.arena
    | 18 => some x.hostwin
    | 20 => some (x.rndmode.setWidth 64)
    | 21 => some (.ofNat 64 (bit x.pol))
    | 22 => some (.ofNat 64 (bit x.staletrap))
    | 23 => some (x.spills ++ x.luskip)
    | 24 => some (.ofNat 64 (bit x.raceEn))
    | 25 => some (x.lostTags.setWidth 64)
    | 32 => some (x.dbgctl.setWidth 64)
    | 64 => some x.bbcctl
    | n =>
      if 33 ≤ n ∧ n < 41 then some ((getAt 0 x.bp (n - 33)).setWidth 64)
      else if 41 ≤ n ∧ n < 49 then some (getAt 0 x.wpbase (n - 41))
      else if 49 ≤ n ∧ n < 57 then some ((getAt 0 x.wpctl (n - 49)).setWidth 64)
      else if 256 ≤ n ∧ n < 512 then some (dwordOf ((getKey ((n - 256) / 2) x.fabwin).getD []) (8 * ((n - 256) % 2)))
      else none

/-- The doubleword at management address 8n, for a connection and a context; none outside the table (R502). -/
def regDword (s : State) (k : Conn) (c n : Nat) : Option DWord :=
  if n = 0 then some (.ofNat 64 (devCode s.dev))
  else if 2 ≤ n ∧ n < 4 then some (dwordOf (serialBytes s) (8 * (n - 2)))
  else if 4 ≤ n ∧ n < 8 then some (dwordOf (nonceBytes k) (8 * (n - 4)))
  else if 8 ≤ n ∧ n < 12 then some ((Config.featOffer >>> (64 * (n - 8))).setWidth 64)
  else if 12 ≤ n ∧ n < 16 then some ((s.featAccept >>> (64 * (n - 12))).setWidth 64)
  else if n = 16 then some (s.powerCap.setWidth 64)
  else if n = 17 then some (s.pkgNum.setWidth 64)
  else if n = 18 then some s.errLogWr
  else if n = 19 then some s.powerIn
  else if n = 20 then some s.evDrop
  else if 0x20 ≤ n ∧ n < 0x48 then some (islandCtl (getAt {} s.islands (n - 0x20)))
  else if 0x60 ≤ n ∧ n < 0x88 then some (.ofNat 64 ((getAt ({} : Island) s.islands (n - 0x60)).energy / 1000))
  else if 0xA0 ≤ n ∧ n < 0xC8 then some (.ofNat 64 (getAt ({} : Island) s.islands (n - 0xA0)).soft)
  else if 0xD0 ≤ n ∧ n < 0xDD then some ((getAt 0 s.dieTemp (n - 0xD0)).setWidth 64)
  else if 0xE0 ≤ n ∧ n < 0xE9 then some (portCtl (portOf s (n - 0xE0)))
  else if 0xF0 ≤ n ∧ n < 0xF9 then some (portStat (portOf s (n - 0xF0)))
  else if 0x100 ≤ n ∧ n < 0x200 then some (importWord (getAt {} s.imports ((n - 0x100) / 4)) ((n - 0x100) % 4))
  else if 0x400 ≤ n ∧ n < 0x800 then
    some (queueWord ((s.queues.find? (fun q => q.num == (n - 0x400) / 4)).getD { num := (n - 0x400) / 4 }) ((n - 0x400) % 4))
  else if 0x1000 ≤ n ∧ n < 0x1400 then some (dwordOf (logEntry s ((n - 0x1000) / 4)) (8 * ((n - 0x1000) % 4)))
  else if 0x2000 ≤ n then recordWord (ctxOf s c) (n - 0x2000)
  else none

/-- The byte at a management address. -/
def regByte (s : State) (k : Conn) (c a : Nat) : Option Byte :=
  (regDword s k c (a / 8)).map (fun v => .ofNat 8 (v.toNat / 256 ^ (a % 8)))

/-- The bytes at management addresses; none where one lies outside the table. -/
def regBytes (s : State) (k : Conn) (c : Nat) : Nat → Nat → Option (List Byte)
  | _, 0 => some []
  | a, n + 1 =>
    match regByte s k c a, regBytes s k c (a + 1) n with
    | some b, some bs => some (b :: bs)
    | _, _ => none

/-- Whether R502 marks an address as readable by any host. -/
def anyHost (a : Nat) : Bool := decide (a < 0x7C8) || (decide (0x8000 ≤ a) && decide (a < 0xA000))

/-- What stays readable in FAILED (R16): DEVSTATE and the error log. -/
def failedReads (a : Nat) : Bool := decide (a < 8) || (decide (0x90 ≤ a) && decide (a < 0x98)) || (decide (0x8000 ≤ a) && decide (a < 0xA000))

/-- The management address of a message, the bytes it covers, and whether ADDR is well formed (R499). -/
def mAddr (m : Msg) : Nat := field m.addr 31 0
def mSpan (m : Msg) (n : Nat) : List Nat := (List.range n).map (fun i => mAddr m + i)
def mAddrBad (m : Msg) (n : Nat) : Bool :=
  field m.addr 57 32 != 0 || (ctxField m != 0 && (mSpan m n).any (fun a => decide (a < 0x10000))) || n == 0 || n % 4 != 0 || decide (4096 < n)

/-- What REGREAD does (R22, R499, R500, R502). (assumption 74, DEDUCED) -/
def doRegread : Perform := fun s k m =>
  let n := pl m 0 4
  if m.payload.length = 8 ∧ n ≤ 4096 ∧ isOwner k = false ∧ (mSpan m n).any (fun a => !(anyHost a)) = true then (reply s k m 1, true)
  else if m.payload.length ≠ 8 ∨ pl m 4 4 ≠ 0 ∨ mAddrBad m n = true then (reply s k m 4, true)
  else
    match regBytes s k (ctxField m) (mAddr m) n with
    | none => (reply s k m 4, true)
    | some bs =>
      if s.dev = .failed ∧ (mSpan m n).all failedReads = false then (reply s k m 8, true)
      else (answer s (answerOf k m) 0 bs, true)

/-- REGREAD (R500, R502). -/
def execRegread (m : Msg) (s : State) : Host.Outcome State Fault Refusal := mgmt s m doRegread

/-! ## Islands (R32 to R34) -/

/-- Whether a leaf of a table tree satisfies a test; the levels from the one given down (R284). -/
def anyLeaf (s : State) (p : BitVec 64 → Bool) : List (Nat × Nat) → Nat → Bool
  | [], _ => false
  | (level, _) :: rest, tbl => (List.range 512).any (fun i =>
      let e := entryAt s (tbl + 8 * i)
      if e.getLsbD 0 = false then false
      else if level ≤ 3 ∧ (level = 1 ∨ field e 57 56 ≠ 0) then !(leafBad level e) && p e
      else if pointerBad e then false
      else anyLeaf s p rest (field e 51 12 * 4096))

/-- Whether a page of a context that is not EMPTY satisfies a test. -/
def anyPage (s : State) (p : BitVec 64 → Bool) : Bool :=
  (List.range 64).any (fun c => (ctxOf s c).st != .empty && anyLeaf s p levels (ctxOf s c).ptroot.toNat)

/-- Replaces an island. -/
def setIsland (s : State) (n : Nat) (x : Island) : State := { s with islands := setAt {} s.islands n x }

/-- Whether warps stand on the cores of a quadrant island. -/
def quadWarps (s : State) (n : Nat) : Bool :=
  s.warps.any (fun w => quadOf w.core == n && (match w.place with | .resident => true | .landed => true | .departing _ _ => true | _ => false))

/-- The RESULT of a GO that is refused, or none (R32, R33); a REPLICATED page counts as homed on the die that its leaf names.
(assumption 124, DESIGN CHOICE) -/
def goRefused (s : State) (n : Nat) (x : Island) : Option Nat :=
  if x.st ≠ 0 ∨ x.reqSt = 0 then none
  else if 36 ≤ n then some 3
  else if n < 32 then
    (if quadWarps s n then some 1
     else if anyPage s (fun e => leafKind e == 0 && leafHome e == n / 4) then some 2 else none)
  else if anyPage s (fun e => leafKind e == 0 && field e 51 48 == n - 24) then some 2
  else none

/-- A GO of an island (R32, R33). -/
def goIsland (s : State) (n : Nat) : State :=
  let x := getAt ({} : Island) s.islands n
  if x.busy then setIsland s n { x with busyGo := true }
  else
    match goRefused s n x with
    | some r => setIsland s n { x with result := r }
    | none => setIsland s n { x with busy := true, toSt := x.reqSt, toPoint := x.reqPoint }

/-- What a quadrant that goes OFF loses (R34): the words of its L2 slices, replicas and window lines among them, and with them what is
registered there; its cores' words, translations and counts; its view pools read as zero. -/
def quadOff (s : State) (n : Nat) : State :=
  let cores := (List.range 32).map (fun i => 32 * n + i)
  let s := cores.foldl (fun s k => loseOwner s k k) s
  let lost := (s.slices.filter (fun e => sliceOf s (4 * e.wa) / 8 == n)).map (fun e => e.wa)
  let here (x : L1Word) : Bool := cores.contains x.owner || (x.owner == l2Owner (n / 4) && homeSlice (4 * x.wa) / 8 == n % 4) ||
    (x.st == .registered && lost.contains x.wa)
  { s with
    slices := s.slices.filter (fun e => !(lost.contains e.wa)), l1 := s.l1.filter (fun x => !(here x))
    tlb := s.tlb.filter (fun t => !(cores.contains t.place)), bbcs := s.bbcs.filter (fun b => !(cores.contains b.core))
    views := s.views.map (fun v => if v.core.any (fun k => cores.contains k) then { v with val := {} } else v) }

/-- What an island that goes OFF loses (R34): a quadrant's arrays, or the memory behind its socket. (assumption 77, DEDUCED) -/
def islandOff (s : State) (n : Nat) : State :=
  if n < 32 then quadOff s n
  else if n < 36 then { s with mem := s.mem.filter (fun x => x.1 / 2 ^ 48 % 16 != n - 24) }
  else s

/-- ISLAND_TRANSITION_DONE (R32 to R34). -/
def dueIslandTransitionDone (n : Nat) (s : State) : Option State :=
  let x := getAt ({} : Island) s.islands n
  if 40 ≤ n ∨ x.busy = false then none
  else
    let s := setIsland s n { x with st := x.toSt, point := x.toPoint, busy := false, busyGo := false, result := if x.busyGo then 4 else 0 }
    some (if x.toSt = 3 then islandOff s n else s)

/-- ISLAND_TRANSITION_DONE, which takes place where it is due. -/
def execIslandTransitionDone (n : Nat) (s : State) : Host.Outcome State Fault Refusal := takes s (dueIslandTransitionDone n s)

/-! ## Writing (R24, R32, R487, R498, R502, R509) -/

/-- The bytes of a write that fall in the doubleword at 8n, laid over its old value. (assumption 75, DEDUCED) -/
def overDword (m : Msg) (n : Nat) (old : DWord) : DWord :=
  .ofNat 64 (leNat ((List.range 8).map (fun i =>
    let a := 8 * n + i
    if mAddr m ≤ a ∧ a < mAddr m + m.payload.length then getAt 0 m.payload (a - mAddr m) else .ofNat 8 (old.toNat / 256 ^ i))))

/-- The doublewords that a write touches, ascending. -/
def touched (m : Msg) : List Nat :=
  (List.range ((mAddr m % 8 + m.payload.length + 7) / 8)).map (fun i => mAddr m / 8 + i)

/-- Whether a write touches a doubleword in a range. -/
def touches (m : Msg) (lo hi : Nat) : Bool := (touched m).any (fun n => decide (lo ≤ n) && decide (n < hi))

/-- FEATACCEPT with a write laid over it. -/
def featWrite (s : State) (k : Conn) (m : Msg) : BitVec 256 :=
  let w (n : Nat) : DWord := overDword m n ((regDword s k 0 n).getD 0)
  w 15 ++ w 14 ++ w 13 ++ w 12

/-- Why a write of FEATACCEPT is refused, or none (R24). -/
def featRefused (s : State) (k : Conn) (m : Msg) : Option Nat :=
  let v := featWrite s k m
  if !(touches m 12 16) then none
  else if s.featWritten then some 11
  else if v &&& ~~~Config.featOffer ≠ 0 ∨ v.getLsbD 0 = false then some 10
  else none

/-- Debug registers: doublewords from DBGCTL to WPCTL7 (R503, R509). -/
def dbgLo : Nat := 0x2020
def dbgHi : Nat := 0x2039

/-- Whether a written BPn is refused (R509). (assumption 76, DEDUCED) -/
def bpRefused (x : Ctx) (v : DWord) : Bool :=
  match x.safept with
  | none => v.getLsbD 31
  | some (_, n) => decide (n ≤ field v 15 0)

/-- Why a write of debug registers is refused, or none (R509). -/
def dbgRefused (s : State) (k : Conn) (m : Msg) : Option Nat :=
  let c := ctxField m
  let x := ctxOf s c
  if !(touches m dbgLo dbgHi) then none
  else if x.st = .empty then some 8
  else if ((touched m).filter (fun n => decide (dbgLo + 1 ≤ n) && decide (n ≤ dbgLo + 8))).any (fun n =>
      bpRefused x (overDword m n ((regDword s k c n).getD 0))) then some 27
  else none

/-- A write of a doubleword of the debug registers. -/
def putDebug (x : Ctx) (n : Nat) (v : DWord) : Ctx :=
  if n = dbgLo then { x with dbgctl := v.setWidth 32 &&& 0xC1 }
  else if n < dbgLo + 9 then { x with bp := setAt 0 x.bp (n - dbgLo - 1) (v.setWidth 32 &&& 0x8000FFFF) }
  else if n < dbgLo + 17 then { x with wpbase := setAt 0 x.wpbase (n - dbgLo - 9) (v &&& 0x1FFFFFFFFFFFFFF) }
  else { x with wpctl := setAt 0 x.wpctl (n - dbgLo - 17) (v.setWidth 32 &&& 0xE0FFFFFF) }

/-- A write of PORTCTL (R486, R487). -/
def putPortCtl (s : State) (p : Nat) (v : DWord) : State :=
  let x := portOf s p
  let x := if field v 2 1 = 3 then x else { x with maxl := field v 2 1 }
  if v.getLsbD 0 then trainPort (setPort s p { x with en := true }) p
  else if x.en then disablePort (setPort s p x) p else setPort s p x

/-- A write of ISLANDCTL (R32). -/
def putIslandCtl (s : State) (n : Nat) (v : DWord) : State :=
  let x := getAt ({} : Island) s.islands n
  let s := setIsland s n { x with reqSt := field v 7 6, reqPoint := field v 5 3 }
  if v.getLsbD 0 then goIsland s n else s

/-- A write of a doubleword of an import range (R498). -/
def putImport (x : Import) (n : Nat) (v : DWord) : Import :=
  match n with
  | 0 => { x with base := v }
  | 1 => { x with len := v }
  | 2 => { x with r := v.getLsbD 0, w := v.getLsbD 1 }
  | _ => x

/-- The effect of a written doubleword; a register that is RO takes none (R502). -/
def putReg (m : Msg) (k : Conn) (s : State) (n : Nat) : State :=
  let c := ctxField m
  let v := overDword m n ((regDword s k c n).getD 0)
  if n = 16 then { s with powerCap := v.setWidth 32 }
  else if n = 17 then { s with pkgNum := v.setWidth 16 }
  else if 0x20 ≤ n ∧ n < 0x48 then putIslandCtl s (n - 0x20) v
  else if 0xE0 ≤ n ∧ n < 0xE9 then putPortCtl s (n - 0xE0) v
  else if 0xF0 ≤ n ∧ n < 0xF9 then
    let x := portOf s (n - 0xF0)
    setPort s (n - 0xF0) { x with degrade := v.setWidth 16 }
  else if 0x100 ≤ n ∧ n < 0x200 then
    { s with imports := setAt {} s.imports ((n - 0x100) / 4) (putImport (getAt {} s.imports ((n - 0x100) / 4)) ((n - 0x100) % 4) v) }
  else if 0x400 ≤ n ∧ n < 0x800 ∧ (n - 0x400) % 4 = 2 then putQueueRd s ((n - 0x400) / 4) (v.setWidth 32)
  else if dbgLo ≤ n ∧ n < dbgHi then setCtx s c (putDebug (ctxOf s c) n v)
  else s

/-- What REGWRITE does (R24, R499, R500, R502, R509). -/
def doRegwrite : Perform := fun s k m =>
  let n := m.payload.length
  if !(isOwner k) then (reply s k m 1, true)
  else if mAddrBad m n then (reply s k m 4, true)
  else if (regBytes s k (ctxField m) (mAddr m) n).isNone then (reply s k m 4, true)
  else if s.dev = .failed then (reply s k m 8, true)
  else
    match featRefused s k m, dbgRefused s k m with
    | some r, _ => (reply s k m r, true)
    | none, some r => (reply s k m r, true)
    | none, none =>
      let s := if touches m 12 16 then { s with featAccept := featWrite s k m, featWritten := true } else s
      (reply ((touched m).foldl (putReg m k) s) k m 0, true)

/-- REGWRITE (R500, R502). -/
def execRegwrite (m : Msg) (s : State) : Host.Outcome State Fault Refusal := mgmt s m doRegwrite

/-- FEATACCEPT_WRITE (R24): a REGWRITE that touches FEATACCEPT. -/
def execFeatacceptWrite (m : Msg) (s : State) : Host.Outcome State Fault Refusal :=
  if touches m 12 16 then mgmt s m doRegwrite else .next s

/-- Whether a write sets bit 0 of a doubleword to a value. -/
def writesBit (m : Msg) (lo hi : Nat) (b : Bool) : Bool :=
  (touched m).any (fun n => decide (lo ≤ n) && decide (n < hi) && decide (mAddr m ≤ 8 * n) && (overDword m n 0).getLsbD 0 == b)

/-- ISLAND_GO (R33): a REGWRITE that writes GO. -/
def execIslandGo (m : Msg) (s : State) : Host.Outcome State Fault Refusal :=
  if writesBit m 0x20 0x48 true then mgmt s m doRegwrite else .next s

/-- PORT_ENABLE (R486): a REGWRITE that writes 1 to PORTCTL.EN. -/
def execPortEnable (m : Msg) (s : State) : Host.Outcome State Fault Refusal :=
  if writesBit m 0xE0 0xE9 true then mgmt s m doRegwrite else .next s

/-- PORT_DISABLE (R486): a REGWRITE that writes 0 to PORTCTL.EN. -/
def execPortDisable (m : Msg) (s : State) : Host.Outcome State Fault Refusal :=
  if writesBit m 0xE0 0xE9 false then mgmt s m doRegwrite else .next s

/-- DEBUG_REGISTER_WRITE (R509): a REGWRITE that touches debug registers. -/
def execDebugRegisterWrite (m : Msg) (s : State) : Host.Outcome State Fault Refusal :=
  if touches m dbgLo dbgHi then mgmt s m doRegwrite else .next s

/-- COMPLETION_QUEUE_RD_WRITE (R330): a REGWRITE that touches the RD of a queue. -/
def execCompletionQueueRdWrite (m : Msg) (s : State) : Host.Outcome State Fault Refusal :=
  if (touched m).any (fun n => decide (0x400 ≤ n) && decide (n < 0x800) && n % 4 == 2) then mgmt s m doRegwrite
  else .next s

end Sys2Proof.Machine
end

