-- ==== Sys2Proof/Machine/Signatures.lean ====
section
/-! DEFINITION. The standards that the package's signatures follow (00_scope.md: ECDSA P-384 with SHA-384; 01_device.md R19, R20, R23,
R26, R29). The specification names them and gives their byte orders by their names alone: FIPS 180-4 and FIPS 186-4
(assumption 11, PRESUMED). -/

namespace Sys2Proof.Machine

/-- The number that bytes give, the first byte highest. -/
def beNat (bs : List Byte) : Nat := bs.foldl (fun a b => 256 * a + b.toNat) 0

/-- A number in n bytes, the first byte highest. -/
def natBe (n v : Nat) : List Byte := (natLe n v).reverse

/-! ## SHA-384 -/

/-- The round constants. -/
def shaK : List DWord :=
  [0x428A2F98D728AE22#64, 0x7137449123EF65CD#64, 0xB5C0FBCFEC4D3B2F#64, 0xE9B5DBA58189DBBC#64,
   0x3956C25BF348B538#64, 0x59F111F1B605D019#64, 0x923F82A4AF194F9B#64, 0xAB1C5ED5DA6D8118#64,
   0xD807AA98A3030242#64, 0x12835B0145706FBE#64, 0x243185BE4EE4B28C#64, 0x550C7DC3D5FFB4E2#64,
   0x72BE5D74F27B896F#64, 0x80DEB1FE3B1696B1#64, 0x9BDC06A725C71235#64, 0xC19BF174CF692694#64,
   0xE49B69C19EF14AD2#64, 0xEFBE4786384F25E3#64, 0x0FC19DC68B8CD5B5#64, 0x240CA1CC77AC9C65#64] ++
  [0x2DE92C6F592B0275#64, 0x4A7484AA6EA6E483#64, 0x5CB0A9DCBD41FBD4#64, 0x76F988DA831153B5#64,
   0x983E5152EE66DFAB#64, 0xA831C66D2DB43210#64, 0xB00327C898FB213F#64, 0xBF597FC7BEEF0EE4#64,
   0xC6E00BF33DA88FC2#64, 0xD5A79147930AA725#64, 0x06CA6351E003826F#64, 0x142929670A0E6E70#64,
   0x27B70A8546D22FFC#64, 0x2E1B21385C26C926#64, 0x4D2C6DFC5AC42AED#64, 0x53380D139D95B3DF#64,
   0x650A73548BAF63DE#64, 0x766A0ABB3C77B2A8#64, 0x81C2C92E47EDAEE6#64, 0x92722C851482353B#64] ++
  [0xA2BFE8A14CF10364#64, 0xA81A664BBC423001#64, 0xC24B8B70D0F89791#64, 0xC76C51A30654BE30#64,
   0xD192E819D6EF5218#64, 0xD69906245565A910#64, 0xF40E35855771202A#64, 0x106AA07032BBD1B8#64,
   0x19A4C116B8D2D0C8#64, 0x1E376C085141AB53#64, 0x2748774CDF8EEB99#64, 0x34B0BCB5E19B48A8#64,
   0x391C0CB3C5C95A63#64, 0x4ED8AA4AE3418ACB#64, 0x5B9CCA4F7763E373#64, 0x682E6FF3D6B2B8A3#64,
   0x748F82EE5DEFB2FC#64, 0x78A5636F43172F60#64, 0x84C87814A1F0AB72#64, 0x8CC702081A6439EC#64] ++
  [0x90BEFFFA23631E28#64, 0xA4506CEBDE82BDE9#64, 0xBEF9A3F7B2C67915#64, 0xC67178F2E372532B#64,
   0xCA273ECEEA26619C#64, 0xD186B8C721C0C207#64, 0xEADA7DD6CDE0EB1E#64, 0xF57D4F7FEE6ED178#64,
   0x06F067AA72176FBA#64, 0x0A637DC5A2C898A6#64, 0x113F9804BEF90DAE#64, 0x1B710B35131C471B#64,
   0x28DB77F523047D84#64, 0x32CAAB7B40C72493#64, 0x3C9EBE0A15C9BEBC#64, 0x431D67C49C100D4C#64,
   0x4CC5D4BECB3E42B6#64, 0x597F299CFC657E2A#64, 0x5FCB6FAB3AD6FAEC#64, 0x6C44198C4A475817#64]

/-- The first hash value. -/
def shaInit : List DWord :=
  [0xCBBB9D5DC1059ED8#64, 0x629A292A367CD507#64, 0x9159015A3070DD17#64, 0x152FECD8F70E5939#64,
   0x67332667FFC00B31#64, 0x8EB44A8768581511#64, 0xDB0C2E0D64F98FA7#64, 0x47B5481DBEFA4FA4#64]

/-- The functions of the schedule and of a round. -/
def shaLow0 (x : DWord) : DWord := x.rotateRight 1 ^^^ x.rotateRight 8 ^^^ x >>> 7
def shaLow1 (x : DWord) : DWord := x.rotateRight 19 ^^^ x.rotateRight 61 ^^^ x >>> 6
def shaSum0 (x : DWord) : DWord := x.rotateRight 28 ^^^ x.rotateRight 34 ^^^ x.rotateRight 39
def shaSum1 (x : DWord) : DWord := x.rotateRight 14 ^^^ x.rotateRight 18 ^^^ x.rotateRight 41
def shaCh (x y z : DWord) : DWord := (x &&& y) ^^^ (~~~x &&& z)
def shaMaj (x y z : DWord) : DWord := (x &&& y) ^^^ (x &&& z) ^^^ (y &&& z)

/-- A message with its padding: 0x80, zeros, and its length in bits in 16 bytes. -/
def shaPad (m : List Byte) : List Byte :=
  m ++ 0x80 :: List.replicate ((239 - m.length % 128) % 128) 0 ++ natBe 16 (8 * m.length)

/-- The first n doublewords of a block. -/
def shaWords : Nat → List Byte → List DWord
  | 0, _ => []
  | n + 1, bs => .ofNat 64 (beNat (bs.take 8)) :: shaWords n (bs.drop 8)

/-- A schedule, its newest word first, with n words more. -/
def shaSchedule : Nat → List DWord → List DWord
  | 0, w => w
  | n + 1, w => shaSchedule n ((shaLow1 (getAt 0 w 1) + getAt 0 w 6 + shaLow0 (getAt 0 w 14) + getAt 0 w 15) :: w)

/-- A round with its constant and its word of the schedule. -/
def shaRound (v : List DWord) (kw : DWord × DWord) : List DWord :=
  match v with
  | [a, b, c, d, e, f, g, h] =>
    let t := h + shaSum1 e + shaCh e f g + kw.1 + kw.2
    [t + shaSum0 a + shaMaj a b c, a, b, c, d + t, e, f, g]
  | _ => v

/-- The hash value after a block. -/
def shaBlock (h : List DWord) (b : List Byte) : List DWord :=
  let w := (shaSchedule 64 (shaWords 16 b).reverse).reverse
  List.zipWith (· + ·) h ((shaK.zip w).foldl shaRound h)

/-- The hash value after n blocks. -/
def shaBlocks : Nat → List Byte → List DWord → List DWord
  | 0, _, h => h
  | n + 1, bs, h => shaBlocks n (bs.drop 128) (shaBlock h (bs.take 128))

/-- SHA-384 of a byte string: 48 bytes. (assumption 11, PRESUMED) -/
def sha384 (m : List Byte) : List Byte :=
  let bs := shaPad m
  ((shaBlocks (bs.length / 128) bs shaInit).take 6).flatMap (fun w => natBe 8 w.toNat)

/-! ## ECDSA over P-384 -/

/-- The field's prime, the curve's coefficient b (a is -3), the order of its generator. -/
def p384 : Nat := 2 ^ 384 - 2 ^ 128 - 2 ^ 96 + 2 ^ 32 - 1
def p384b : Nat := 0xB3312FA7E23EE7E4988E056BE3F82D19181D9C6EFE8141120314088F5013875AC656398D8A2ED19D2A85C8EDD3EC2AEF
def p384n : Nat := 0xFFFFFFFFFFFFFFFFFFFFFFFFFFFFFFFFFFFFFFFFFFFFFFFFC7634D81F4372DDF581A0DB248B0A77AECEC196ACCC52973

/-- A point in Jacobian coordinates; z is 0 for the point at infinity. -/
structure CurvePoint where
  x : Nat
  y : Nat
  z : Nat
  deriving DecidableEq, Repr

/-- The generator. -/
def p384g : CurvePoint :=
  { x := 0xAA87CA22BE8B05378EB1C71EF320AD746E1D3B628BA79B9859F741E082542A385502F25DBF55296C3A545E3872760AB7
    y := 0x3617DE4A96262C6F5D9E98BF9292DC29F8F41DBD289A147CE9DA3113B5F0B8C00A60B1CE1D7E819D7A431D7C90EA0E5F
    z := 1 }

/-- Arithmetic of the field. -/
def fMul (a b : Nat) : Nat := a * b % p384
def fSub (a b : Nat) : Nat := (a + (p384 - b % p384)) % p384

/-- The bits of a number below 2 ^ 384, the highest first. -/
def bits384 (e : Nat) : List Bool := ((List.range 384).reverse).map (fun i => e / 2 ^ i % 2 == 1)

/-- A power modulo m, its exponent below 2 ^ 384. -/
def powMod (m b e : Nat) : Nat := (bits384 e).foldl (fun a x => if x then a * a % m * b % m else a * a % m) 1

/-- Twice a point. -/
def pointDouble (p : CurvePoint) : CurvePoint :=
  if p.z = 0 then p else
    let d := fMul p.z p.z
    let g := fMul p.y p.y
    let b := fMul p.x g
    let a := fMul 3 (fMul (fSub p.x d) (p.x + d))
    let x := fSub (fMul a a) (8 * b)
    { x := x, y := fSub (fMul a (fSub (4 * b) x)) (8 * fMul g g), z := fMul 2 (fMul p.y p.z) }

/-- The sum of two points. -/
def pointAdd (p q : CurvePoint) : CurvePoint :=
  if p.z = 0 then q else if q.z = 0 then p else
    let zp := fMul p.z p.z
    let zq := fMul q.z q.z
    let u := fMul p.x zq
    let h := fSub (fMul q.x zp) u
    let s := fMul p.y (fMul q.z zq)
    let r := fSub (fMul q.y (fMul p.z zp)) s
    if h = 0 then (if r = 0 then pointDouble p else ⟨1, 1, 0⟩) else
      let hh := fMul h h
      let v := fMul u hh
      let x := fSub (fSub (fMul r r) (fMul h hh)) (2 * v)
      { x := x, y := fSub (fMul r (fSub v x)) (fMul s (fMul h hh)), z := fMul h (fMul p.z q.z) }

/-- The sum of two multiples of points. -/
def pointSum (u : Nat) (p : CurvePoint) (v : Nat) (q : CurvePoint) : CurvePoint :=
  ((bits384 u).zip (bits384 v)).foldl (fun a b =>
    let d := pointDouble a
    let d := if b.1 then pointAdd d p else d
    if b.2 then pointAdd d q else d) ⟨1, 1, 0⟩

/-- The point of a public key in the uncompressed form, if it is one of the curve (R19). -/
def keyPoint (key : List Byte) : Option CurvePoint :=
  let x := leNat ((key.drop 1).take 48)
  let y := leNat (key.drop 49)
  if key.length = 97 ∧ key.head? = some 4 ∧ x < p384 ∧ y < p384 ∧ fMul y y = fSub (fMul x (fMul x x) + p384b) (3 * x) then some ⟨x, y, 1⟩
  else none

/-- Whether a signature, r then s, over a digest verifies under a public key (R4, R19, R20, R23, R26). -/
def ecdsaVerify (key digest sig : List Byte) : Bool :=
  let r := leNat (sig.take 48)
  let s := leNat (sig.drop 48)
  match keyPoint key with
  | none => false
  | some q =>
    if sig.length = 96 ∧ 0 < r ∧ r < p384n ∧ 0 < s ∧ s < p384n then
      let w := powMod p384n s (p384n - 2)
      let t := pointSum (beNat digest * w % p384n) p384g (r * w % p384n) q
      let i := powMod p384 t.z (p384 - 2)
      t.z != 0 && fMul t.x (fMul i i) % p384n == r
    else false

end Sys2Proof.Machine
end

