-- ==== Sys2Proof/Machine/Device.lean ====
section
/-! DEFINITION. The package: its states, ownership and signed commands, firmware and attestation, power and energy
(01_device.md R16 to R29, R35; 27_debug.md R520, R521). -/

namespace Sys2Proof.Machine

/-! ## Package states (R16) -/

/-- The package in a state after everything volatile is lost: what provisioning, the firmware slots, the error log and the
records of retired parts hold stays, and so does the bookkeeping of the model itself. (assumption 82, DEDUCED; assumption 83, DESIGN CHOICE; assumption 84, DEDUCED) -/
def blank (s : State) (d : DevState) : State :=
  let r := State.reset
  { r with
    dev := d, allow := s.allow, serial := s.serial, firmware := s.firmware, retired := s.retired, ways := s.ways, rows := s.rows
    errLog := s.errLog, errLogWr := s.errLogWr, powerIn := s.powerIn, dieTemp := s.dieTemp
    agenda := s.agenda, turn := s.turn, tick := s.tick, slotNow := s.slotNow, free := s.free, fresh := s.fresh }

/-- POWER_INPUT_VALID (R16). -/
def execPowerInputValid (s : State) : Host.Outcome State Fault Refusal :=
  if s.dev = .powerOff then .next (setDev (blank s .reset) .reset) else .next s

/-- RESET_RELEASE (R16, R487): port 0 leaves reset enabled. -/
def execResetRelease (s : State) : Host.Outcome State Fault Refusal :=
  if s.dev = .reset then .next (trainPort (setDev s .selfTest) 0) else .next s

/-- An island as SELF_TEST leaves it: ON at point 3 (R16). -/
def islandOn (x : Island) : Island := { x with st := 0, point := 3 }

/-- SELF_TEST_DONE (R16). -/
def execSelfTestDone (pass : Bool) (s : State) : Host.Outcome State Fault Refusal :=
  if s.dev ≠ .selfTest then .next s
  else if pass then
    .next (setDev { s with islands := s.islands.map islandOn, ownerKey := none, successor := none } .unowned)
  else .next (setDev (logError s 8 0xFF 0 0xFFFFFFFF 0 0xFF) .failed)

/-- POWER_REMOVED (R16). -/
def execPowerRemoved (s : State) : Host.Outcome State Fault Refusal :=
  if s.dev = .thermalTrip ∨ s.dev = .failed then .next (setDev (blank s .powerOff) .powerOff)
  else .next s

/-- THERMAL_TRIP (R16, R34): every island is OFF, and nothing but the error log stays. -/
def execThermalTrip (socket : Nat) (s : State) : Host.Outcome State Fault Refusal :=
  if s.dev = .powerOff ∨ s.dev = .thermalTrip then .next s
  else
    let b := blank (logError s 7 0xFF 0 socket 0 0xFF) .thermalTrip
    .next (setDev { b with tb := s.tb, islands := List.replicate 40 { st := 3 } } .thermalTrip)

/-- THERMAL_WARNING (R35, R500): at 100 °C, which is 1600 sixteenths. -/
def execThermalWarning (socket : Nat) (temp : BitVec 32) (s : State) : Host.Outcome State Fault Refusal :=
  if temp.toNat < 1600 ∨ s.dev = .powerOff ∨ s.dev = .thermalTrip then .next s
  else
    .next (devSend (logError s 6 0xFF 0 socket 0 0xFF) 0x43
      (natLe 1 socket ++ List.replicate 7 0 ++ natLe 4 temp.toNat ++ List.replicate 4 0))

/-- POWER_CAP_EXCEEDED (R35, R500, R502). -/
def execPowerCapExceeded (watts : BitVec 32) (s : State) : Host.Outcome State Fault Refusal :=
  if s.powerCap = 0 ∨ watts.toNat ≤ s.powerCap.toNat then .next s
  else .next (devSend s 0x44 (natLe 4 watts.toNat ++ natLe 4 s.powerCap.toNat))

/-- TEMPERATURE_REPORT (R35, R502). -/
def execTemperatureReport (temps : List (Nat × BitVec 16)) (power : BitVec 64) (s : State) : Host.Outcome State Fault Refusal :=
  .next { s with powerIn := power, dieTemp := temps.foldl (fun ds t => setAt 0 ds t.1 t.2) s.dieTemp }

/-! ## Energy (R520) -/

/-- A charge of n / d nanojoules; a charge that is no whole number is rounded as the part does. -/
def charge (s : State) (n d : Nat) : Nat × State :=
  if d = 0 then (0, s)
  else if n % d = 0 then (n / d, s)
  else (n / d + bit (Config.roundUp s.free), { s with free := s.free + 1 })

/-- Charges a launch. -/
def chargeLaunch (s : State) (id n d : Nat) : State :=
  let (q, s) := charge s n d
  { s with launches := s.launches.map (fun l => if l.id = id then { l with energy := l.energy + q } else l) }

/-- The sum of a list. -/
def total (xs : List Nat) : Nat := xs.foldl (· + ·) 0

/-- Charges the energy of one quadrant island to the launches on it: D × u / Σu + L × r / Σr (R520). -/
def chargeQuad (s : State) (e : EnergySample) : State :=
  let su := total (e.uses.map (fun x => x.2.1))
  let sr := total (e.uses.map (fun x => x.2.2))
  let d := if su = 0 then 0 else e.dyn
  let l := if su = 0 then e.dyn + e.idle else e.idle
  if sr = 0 then s
  else e.uses.foldl (fun s x => chargeLaunch s x.1 (d * x.2.1 * sr + l * x.2.2 * (max su 1)) ((max su 1) * sr)) s

/-- Shares the energy of the other islands by the package-wide u of the interval (R520). -/
def chargeRest (es : List EnergySample) (s : State) : State :=
  let uses := (es.filter (fun e => decide (e.island < 32))).flatMap (fun e => e.uses)
  let su := total (uses.map (fun x => x.2.1))
  let en := total ((es.filter (fun e => decide (32 ≤ e.island))).map (fun e => e.dyn + e.idle))
  if su = 0 then s else uses.foldl (fun s x => chargeLaunch s x.1 (en * x.2.1) su) s

/-- ENERGY_INTERVAL (R35, R502, R520). -/
def execEnergyInterval (es : List EnergySample) (s : State) : Host.Outcome State Fault Refusal :=
  let s := { s with islands := es.foldl (fun xs e =>
    let x := getAt ({} : Island) xs e.island
    setAt {} xs e.island { x with energy := x.energy + e.dyn + e.idle }) s.islands }
  .next (chargeRest es ((es.filter (fun e => decide (e.island < 32))).foldl chargeQuad s))

/-! ## Nonces and signatures (R19, R23) -/

/-- A connection with a fresh nonce. -/
def renewNonce (s : State) (k : Conn) : State :=
  { s with free := s.free + 1
           conns := s.conns.map (fun x => if sameConn k x then { x with nonce := freshNonce s.free, nonceOk := true } else x) }

/-- CLAIM_NONCE_EXPIRY (R19). -/
def execClaimNonceExpiry (port : Nat) (num : BitVec 32) (s : State) : Host.Outcome State Fault Refusal :=
  match connFind s port num with
  | none => .next s
  | some k => if k.nonceOk then .next (setConn s { k with nonceOk := false }) else .next s

/-- The digest that a signed command's signature covers, of the command's own bytes P (R23). -/
def commandDigest (s : State) (k : Conn) (m : Msg) (p : List Byte) : List Byte :=
  sha384 (serialBytes s ++ nonceBytes k ++ [m.op] ++ natLe 8 m.addr.toNat ++ p)

/-- The digest that a claim's signature covers (R19). -/
def claimDigest (s : State) (k : Conn) (key : List Byte) : List Byte := sha384 (serialBytes s ++ nonceBytes k ++ key)

/-- Whether a signed command with n bytes of its own is signed over the current nonce by the owner, or by the outgoing one that it was
in flight under (R17, R23). -/
def signedOk (s : State) (k : Conn) (m : Msg) (n : Nat) : Bool :=
  k.nonceOk &&
  (match k.lateKey.or s.ownerKey with
   | some key => ecdsaVerify key (commandDigest s k m (m.payload.take n)) (m.payload.drop n)
   | none => false)

/-- A signed command with n bytes of its own; the connection's nonce is replaced whatever the outcome (R19, R23). -/
def signed (n : Nat) (inFailed : Bool) (f : State → Conn → Msg → State) : Perform := fun s k m =>
  let s := renewNonce s k
  if !(isOwner k) then (reply s k m 1, true)
  else if m.payload.length ≠ n + 96 ∨ m.addr ≠ 0 then (reply s k m 4, true)
  else if s.dev = .failed ∧ inFailed = false then (reply s k m 8, true)
  else if !(signedOk s k m n) then (reply s k m 12, true)
  else (f s k m, true)

/-! ## Ownership (R16, R17, R19 to R23) -/

/-- Binds a connection as an owner connection; the messages kept for want of one go out on it (R20, R505). -/
def bindOwner (s : State) (k : Conn) : State :=
  let kept := s.outbox
  let s := { s with outbox := [], conns := s.conns.map (fun x => if sameConn k x then { x with owner := true } else x) }
  kept.foldl (fun s d => devSend s d.op d.payload) s

/-- The connections of an outgoing owner: what they have accepted is performed under its authority (R17). (assumption 90, DEDUCED) -/
def unbindAll (s : State) : State :=
  { s with conns := s.conns.map (fun x =>
      if x.owner then { x with owner := false, late := x.queue.length, lateKey := s.ownerKey } else x) }

/-- Whether the allow list admits a key (R20). -/
def admits (s : State) (key : List Byte) : Bool := s.allow.isEmpty || s.allow.contains (sha384 key)

/-- What CLAIM does (R16, R17, R19, R20). (assumption 79, DEDUCED) -/
def doClaim : Perform := fun s k m =>
  let s := renewNonce s k
  let key := m.payload.take 97
  if k.port ≠ 0 then (reply s k m 1, true)
  else if m.payload.length ≠ 193 ∨ m.addr ≠ 0 then (reply s k m 4, true)
  else if !(k.nonceOk && ecdsaVerify key (claimDigest s k key) (m.payload.drop 97)) then (reply s k m 12, true)
  else if !(admits s key) then (reply s k m 3, true)
  else if s.dev = .unowned then (reply (bindOwner (setDev { s with ownerKey := some key } .owned) k) k m 0, true)
  else if s.ownerKey = some key then (reply (bindOwner s k) k m 0, true)
  else if s.dev = .handover ∧ s.successor = some (sha384 key) then
    (reply (bindOwner (setDev { unbindAll s with ownerKey := some key, successor := none } .owned) k) k m 0, true)
  else (reply s k m (if s.dev = .failed then 8 else 13), true)

/-- CLAIM (R19, R20). -/
def execClaim (m : Msg) (s : State) : Host.Outcome State Fault Refusal := mgmt s m doClaim

/-- What HANDOVER does. (assumption 80, DEDUCED) -/
def doHandover : Perform := signed 48 false (fun s k m =>
  if s.dev ≠ .owned then reply s k m 8
  else reply (setDev { s with successor := some (m.payload.take 48) } .handover) k m 0)

/-- HANDOVER (R16, R23). -/
def execHandover (m : Msg) (s : State) : Host.Outcome State Fault Refusal := mgmt s m doHandover

/-- HANDOVER_TIMEOUT (R16). -/
def execHandoverTimeout (s : State) : Host.Outcome State Fault Refusal :=
  if s.dev = .handover then .next (setDev { s with successor := none } .owned) else .next s

/-- What CANCEL does. -/
def doCancel : Perform := signed 0 false (fun s k m =>
  if s.dev ≠ .handover then reply s k m 8 else reply (setDev { s with successor := none } .owned) k m 0)

/-- CANCEL (R16, R23). -/
def execCancel (m : Msg) (s : State) : Host.Outcome State Fault Refusal := mgmt s m doCancel

/-- Whether every context is EMPTY. -/
def allEmpty (s : State) : Bool := (List.range 64).all (fun c => (ctxOf s c).st == .empty)

/-- What RELEASE does: the feature set goes, and with it the ports that need FABRIC (R16, R24, R25). (assumption 85, DEDUCED) -/
def doRelease : Perform := signed 0 false (fun s k m =>
  if s.dev ≠ .owned then reply s k m 8
  else if !(allEmpty s) then reply s k m 7
  else
    let s := reply (setDev { s with ownerKey := none, featAccept := 0, featWritten := false } .unowned) k m 0
    let s := { s with conns := s.conns.map (fun x => { x with owner := false }) }
    ((List.range 8).map (· + 1)).foldl disablePort s)

/-- RELEASE (R16, R23). -/
def execRelease (m : Msg) (s : State) : Host.Outcome State Fault Refusal := mgmt s m doRelease

/-- What RESET does: contexts and connections are lost, memory stays as it stood, and no COMPLETION goes out (R16, R500). (assumption 81, DEDUCED; assumption 113, DEDUCED) -/
def doReset : Perform := signed 0 true (fun s _ _ =>
  setDev { blank s .reset with mem := s.mem, ownerKey := s.ownerKey } .reset)

/-- RESET (R16, R23). -/
def execReset (m : Msg) (s : State) : Host.Outcome State Fault Refusal := mgmt s m doReset

/-! ## Firmware and attestation (R26 to R29) -/

/-- A firmware component's record. -/
def fwOf (s : State) (n : Nat) : Firmware := getAt {} s.firmware n
def setFw (s : State) (n : Nat) (x : Firmware) : State := { s with firmware := setAt {} s.firmware n x }

/-- The image of the active slot, and of the other. -/
def activeImage (x : Firmware) : Image := if x.activeB then x.slotB else x.slotA
def stagedImage (x : Firmware) : Image := if x.activeB then x.slotA else x.slotB

/-- Whether an image is accepted for a component (R26). -/
def imageOk (x : Firmware) (n : Nat) (bs : List Byte) : Bool :=
  Config.imageComponent bs == n && decide (x.minver ≤ Config.imageSecver bs) &&
  ecdsaVerify Config.firmwareKey (sha384 (Config.imageSigned bs)) (Config.imageSignature bs)

/-- An image in the inactive slot. -/
def stage (x : Firmware) (bs : List Byte) : Firmware :=
  let i : Image := { version := Config.imageVersion bs, secver := Config.imageSecver bs, body := bs }
  if x.activeB then { x with slotA := i } else { x with slotB := i }

/-- Replaces what a connection has gathered for FW_STAGE. -/
def setGathered (s : State) (k : Conn) (g : Option (Nat × List Byte)) : State :=
  { s with conns := s.conns.map (fun x => if sameConn k x then { x with fw := g } else x) }

/-- What FW_STAGE does: chunks in order of offset, the image tested after the last (R26, R500). (assumption 87, DEDUCED) -/
def doFwStage : Perform := command false (fun n => decide (8 ≤ n) && decide (n ≤ 4096)) (fun s k m =>
  let n := pl m 0 1
  let bs := m.payload.drop 8
  let got := k.fw.getD (n, [])
  if 3 < n ∨ 1 < pl m 1 1 ∨ pl m 2 2 ≠ 0 then reply s k m 4
  else if got.1 ≠ n ∨ pl m 4 4 ≠ got.2.length then reply (setGathered s k none) k m 4
  else if pl m 1 1 = 0 then reply (setGathered s k (some (n, got.2 ++ bs))) k m 0
  else
    let im := got.2 ++ bs
    let s := setGathered s k none
    if imageOk (fwOf s n) n im then reply (setFw s n (stage (fwOf s n) im)) k m 0
    else reply (logError s 9 0xFF 0 n 0 0xFF) k m 14)

/-- FW_STAGE (R26). -/
def execFwStage (m : Msg) (s : State) : Host.Outcome State Fault Refusal := mgmt s m doFwStage

/-- What FW_ACTIVATE does (R25 LIVE_FW, R27): refused without LIVE_FW it answers BUSY, an empty inactive slot BAD_IMAGE, and an image that
stands in the inactive slot becomes active, staged since or not. (assumption 119, DESIGN CHOICE) -/
def doFwActivate : Perform := signed 8 false (fun s k m =>
  let n := pl m 0 1
  let x := fwOf s n
  if 3 < n ∨ pl m 1 7 ≠ 0 then reply s k m 4
  else if accepted s 5 = false ∧ allEmpty s = false then reply s k m 7
  else if (stagedImage x).body.isEmpty then reply s k m 14
  else reply (logError (setFw s n { x with activeB := !x.activeB }) 10 0xFF 0 n 0 0xFF) k m 0)

/-- FW_ACTIVATE (R27). -/
def execFwActivate (m : Msg) (s : State) : Host.Outcome State Fault Refusal := mgmt s m doFwActivate

/-- What FW_ADVANCE does (R28). -/
def doFwAdvance : Perform := signed 8 false (fun s k m =>
  let n := pl m 0 1
  let x := fwOf s n
  if 3 < n ∨ pl m 1 7 ≠ 0 then reply s k m 4
  else if (activeImage x).secver < x.minver then reply s k m 11
  else reply (setFw s n { x with minver := (activeImage x).secver }) k m 0)

/-- FW_ADVANCE (R28). -/
def execFwAdvance (m : Msg) (s : State) : Host.Outcome State Fault Refusal := mgmt s m doFwAdvance

/-- A 48-byte hash of a firmware component's active image. -/
def imageHash (x : Firmware) : List Byte := sha384 (activeImage x).body

/-- Bytes 0 to 415 of an attestation report (R29). -/
def reportBody (s : State) (nonce : List Byte) : List Byte :=
  natLe 4 1 ++ natLe 4 (devCode s.dev) ++ serialBytes s ++ nonce ++
  ((List.range 4).map (fun n => imageHash (fwOf s n))).flatten ++ ((List.range 4).map (fun n => natLe 4 (fwOf s n).minver)).flatten ++
  (match s.ownerKey with | some key => sha384 key | none => List.replicate 48 0) ++
  natLe 32 s.featAccept.toNat ++ List.replicate 56 0

/-- The 96 bytes of a signature: r, then s (R29). -/
def signatureBytes (x : BitVec 384 × BitVec 384) : List Byte := natLe 48 x.1.toNat ++ natLe 48 x.2.toNat

/-- What ATTEST does, for any host. -/
def doAttest : Perform := fun s k m =>
  if m.payload.length ≠ 48 ∨ m.addr ≠ 0 then (reply s k m 4, true)
  else
    let r := reportBody s m.payload
    (answer s (answerOf k m) 0 (r ++ signatureBytes (Config.identitySign (sha384 r))), true)

/-- ATTEST (R29). -/
def execAttest (m : Msg) (s : State) : Host.Outcome State Fault Refusal := mgmt s m doAttest

end Sys2Proof.Machine
end

