-- ==== Sys2Proof/Machine/Ras.lean ====
section
/-! DEFINITION. Spares, core failures, soft errors and the scrubber (01_device.md R25, R36 to R39; 12_word.md R254;
26_link.md R482, R502). -/

namespace Sys2Proof.Machine

/-! ## Planned sparing (R36) -/

/-- What SPARE does: a spare is taken, and the core stops at the boundaries where a pre-emption would stop it (R25 LIVE_SPARE,
R36); refused without LIVE_SPARE it answers BUSY. (assumption 91, DEDUCED; assumption 119, DESIGN CHOICE) -/
def doSpare : Perform := command false (len 8) (fun s k m =>
  let die := pl m 0 1
  let core := 128 * die + pl m 1 1
  if 8 ≤ die ∨ 128 ≤ pl m 1 1 ∨ pl m 2 6 ≠ 0 then reply s k m 4
  else if s.sparing.contains core || (!(accepted s 4) && !(allEmpty s)) then reply s k m 7
  else if 4 ≤ getAt 0 s.spares die then reply s k m 15
  else reply { s with spares := setAt 0 s.spares die (getAt 0 s.spares die + 1), sparing := core :: s.sparing } k m 0)

/-- SPARE (R36). -/
def execSpare (m : Msg) (s : State) : Host.Outcome State Fault Refusal := mgmt s m doSpare

/-- Whether nothing of a core's warps, blocks, copies and words is under way. -/
def spareReady (s : State) (core : Nat) : Bool :=
  s.warps.all (fun w => w.core != core || outOfCores w) &&
  s.blocks.all (fun b => b.core != core || b.saved || blockReady s b) &&
  s.copies.all (fun k => k.core != core || k.saved || (k.blk.isSome && !k.started)) &&
  s.l1.all (fun x => x.owner != ownerOf s core || x.st != .pending)

/-- Whether saved work of a context goes on at its core when the core is spared. -/
def goesOn (s : State) (c : Nat) : Bool := (ctxOf s c).preempt.isNone && dispatching (ctxOf s c)

/-- A saved warp comes back to its own slot. -/
def backToSlot (s : State) (w : Warp) : State :=
  if goesOn s w.ctx then reloadWarp s w w.core w.slot (if w.slot < 96 then .resident else .landed) 11 else s

/-- A block saved for a spare comes back to its place on the core. -/
def blockBack (s : State) (b : Block) : State :=
  let s := saveBlock s b
  if goesOn s b.ctx then
    match blockFind s b.ctx b.num with
    | none => s
    | some b =>
      match loadBlock s b with
      | .error k => ctxFault s b.ctx k (some b.core) none (.ofNat 64 (blockBase (ctxOf s b.ctx) b.num))
      | .ok b =>
        let s := setBlock s b
        { s with copies := s.copies.map (fun (k : Copy) => if k.ctx = b.ctx ∧ k.blk = some b.num then { k with saved := false } else k) }
  else s

/-- A spare takes the number of a core (R36, R482): the L1 is written back, views and counts leave, warps and blocks come
back, and the fenced Piste links of the cluster serve again. -/
def mapSpare (s : State) (core : Nat) : State :=
  let own := ownerOf s core
  let cl := core % 128 / 4
  let ws := s.warps.filter (fun w => w.core == core && w.place == .saved && (w.blk.isNone || s.blocks.any (fun b => b.ctx == w.ctx && some b.num == w.blk && !b.saved)))
  let s := (s.bbcs.filter (fun b => b.core == core)).foldl flushBbc s
  let s := (s.views.filter (fun v => v.core == some core)).foldl spillView s
  let s := flushOwner s own
  let s := { s with
    tlb := s.tlb.filter (fun t => t.place != core)
    fenced := s.fenced.filter (fun k => !(k == core)), sparing := s.sparing.filter (fun k => !(k == core))
    piste := s.piste.filter (fun x => !(x.1 == dieOf core && (x.2.1 == cl || x.2.2.1 == cl))) }
  let s := (s.blocks.filter (fun b => b.core == core && !b.saved)).foldl blockBack s
  ws.foldl backToSlot s

/-- Maps every spare whose core has come to rest. -/
def pumpSpares (s : State) : State := s.sparing.foldl (fun s k => if spareReady s k then mapSpare s k else s) s

/-! ## Core failure (R37) -/

/-- Requests of a lost core that no slice has begun to serve. -/
def lostRequest (s : State) (core : Nat) (m : Net) : Bool :=
  m.owner == core &&
  (match m.kind with
   | .register _ _ _ _ _ => true
   | .read _ _ _ _ _ => true
   | .replica _ _ _ _ _ _ => true
   | .forward _ _ _ _ => true
   | .forwardAnswer _ _ _ _ _ => true
   | .check _ _ _ _ _ _ _ => true
   | .atomic _ _ _ _ wa _ => !((sliceGet s wa).waiting.contains m.id)
   | .writeBack _ _ _ _ => true
   | .grant _ _ => true
   | _ => false)

/-- Whether a warp stands on a core. -/
def standsOn (core : Nat) (w : Warp) : Bool :=
  w.core == core && (match w.place with | .resident => true | .landed => true | .departing _ _ => true | _ => false)

/-- Words of a fused cluster's L1 that a core's array holds (R254, R257). -/
def loseArray (s : State) (core : Nat) : State :=
  (s.slices.filter (fun e => losesWord (ownerOf s core) e && e.wa / 16 % 4 == core % 4)).foldl
    (fun s e => loseWord s (some core) e.wa 0) s

/-- What stood on a failed core is gone. (assumption 92, DEDUCED) -/
def dropCore (s : State) (core : Nat) : State :=
  let on := s.warps.filter (standsOn core)
  let ctxs := dedup (on.map (fun w => w.ctx))
  let bs := s.blocks.filter (fun b => b.core == core && !b.saved)
  { s with
    warps := s.warps.filter (fun w => !(standsOn core w))
    blocks := s.blocks.filter (fun b => !(b.core == core && !b.saved))
    copies := s.copies.filter (fun k => !(k.core == core && !k.saved) && bs.all (fun b => !(k.ctx == b.ctx && k.target == some b.num)))
    lastWarp := s.lastWarp.filter (fun r => !(on.any (fun w => w.ctx == r.2.1 && w.num == r.2.2)))
    bbcs := s.bbcs.filter (fun b => b.core != core), tlb := s.tlb.filter (fun t => t.place != core)
    views := s.views.filter (fun v => !(v.core == some core && ctxs.contains v.ctx))
    refused := s.refused.filter (fun r => r.core != core), walks := s.walks.map (fun w => { w with waiters := w.waiters.filter (fun k => !(k == core)) })
    l1 := s.l1.filter (fun x => x.owner != core)
    net := s.net.filter (fun m => !(lostRequest s core m)) }

/-- Words that slices hold for requests that are gone become HOME again (R37). -/
def freeWaits (s : State) : State :=
  (s.slices.filter (fun e => e.st == .transfer && e.waiting.all (fun i => (netFind s i).isNone))).foldl (fun s e => homeAgain s e.wa) s

/-- CORE_FAILURE (R37, R254, R316): a sparing of the core that is under way ends, its spare used (assumption 125, DESIGN CHOICE); the contexts with a warp on the core are FAULTED first, then the registrations are lost. -/
def execCoreFailure (core : Nat) (s : State) : Host.Outcome State Fault Refusal :=
  if 1024 ≤ core ∨ s.fenced.contains core = true then .next s
  else
    let cs := dedup ((s.warps.filter (standsOn core)).map (fun w => w.ctx))
    let s := logError { s with fenced := core :: s.fenced, sparing := s.sparing.filter (fun k => !(k == core)) } 4 (quadOf core) 0 core 0 0xFF
    let s := cs.foldl (fun s c => ctxFault s c .hardware (some core) none 0) s
    let s := if isFused s core then loseArray s core else loseOwner s core core
    .next (freeWaits (dropCore s core))

/-! ## Soft errors (R38, R39) -/

/-- Whether a leaf maps a physical address. -/
def leafMaps (pa : Nat) (e : BitVec 64) : Bool := leafKind e == 0 && field e 51 12 * 4096 / 2 ^ leafLog e == pa / 2 ^ leafLog e

/-- Contexts that map the page holding a physical address (R39). -/
def mappers (s : State) (pa : Nat) : List Nat :=
  (List.range 64).filter (fun c => (ctxOf s c).st != .empty && anyLeaf s (leafMaps pa) levels (ctxOf s c).ptroot.toNat)

/-- Data without another copy is lost (R39): the log, the contexts, the frame. -/
def dataLost (s : State) (island pa : Nat) : State :=
  let cs := mappers s pa
  let s := logError s 1 island 0 0xFFFFFFFF pa 0xFF
  let s := cs.foldl (fun s c => ctxFault s c .hardware none none (.ofNat 64 pa)) s
  { s with retired := if s.retired.contains (pa / 4096) then s.retired else pa / 4096 :: s.retired }

/-- A word takes a value that nothing is known of. -/
def spoil (s : State) (wa : Nat) : State := cohStore { s with free := s.free + 1 } wa 0xF ((Config.freeDWord s.free).setWidth 32)

/-- The home slice of an address: on the die that a page mapping it names, die 0 with none. -/
def sliceIndex (s : State) (pa : Nat) : Nat :=
  let die := (allDies.find? (fun d => anyPage s (fun e => leafMaps pa e && leafHome e == d))).getD 0
  32 * die + homeSlice pa

/-- The lines of a slice that stand in a way, beside the one that is named: the part's choice (R38). (assumption 122, DESIGN CHOICE) -/
def wayLines (s : State) (slice pa : Nat) : List Nat :=
  pa / 64 :: (dedup (s.slices.map (fun e => e.wa / 16))).filter (fun ln => ln != pa / 64 && sliceOf s (64 * ln) == slice && Config.inWay s.free ln)

/-- Retires an L2 way of a slice, up to two, its lines written back or dropped (R38). (assumption 95, DEDUCED) -/
def retireWay (s : State) (pa way : Nat) : State :=
  if 12 ≤ way then s
  else
    let k := sliceIndex s pa
    let s := (wayLines s k pa).foldl clearLine { s with free := s.free + 1 }
    if s.ways.contains (k, way) || decide (2 ≤ (s.ways.filter (fun x => x.1 == k)).length) then s
    else logError { s with ways := (k, way) :: s.ways } 3 0xFF 0 k pa 0xFF

/-- The island of a memory address: its memory die, or none. -/
def memIsland (pa : Nat) : Nat :=
  let k := pa / 2 ^ 48 % 16
  if 8 ≤ k ∧ k < 12 then 24 + k else 0xFF

/-- The words of a line whose data HBM does not hold: dirty HOME words, and those REGISTERED or in TRANSFER (R39). -/
def dirtyWords (s : State) (ln : Nat) : List Nat :=
  (s.slices.filter (fun e => e.wa / 16 == ln && (e.st != .home || e.dirty))).map (fun e => e.wa)

/-- Data of HBM is lost: the 64 bits that the error strikes take a value that nothing is known of. -/
def loseMemory (s : State) (pa : Nat) : State :=
  let s := dataLost { s with free := s.free + 1 } (memIsland pa) pa
  { s with free := s.free + 1, mem := memWrite s.mem (pa / 8 * 8) (natLe 8 (Config.freeDWord s.free).toNat) }

/-- The memory at a context's address is lost as the Ringmaster comes to it. -/
def loseAt (s : State) (c va : Nat) : State :=
  match devXlate s c va false with
  | .ok (pa, _) => loseMemory s pa
  | .error _ => s

/-- A free doubleword's byte. -/
def freeByte (n i : Nat) : Byte := .ofNat 8 ((Config.freeDWord n).toNat / 256 ^ i)

/-- An error in a core's scratchpad (R39): the 64 bits take a free value, and the context of the block that has them is FAULTED. -/
def loseScratch (s : State) (core off : Nat) : State :=
  match s.blocks.find? (fun b => b.core == core && !b.saved && decide (b.scrBase ≤ off) && decide (off < b.scrBase + b.scrLen)) with
  | none => s
  | some b =>
    let s := logError { s with free := s.free + 1 } 1 (quadOf core) 0 core 0 0xFF
    let s := setBlock s (scrSet b ((off - b.scrBase) / 8 * 8) ((List.range 8).map (freeByte (s.free - 1))))
    ctxFault s b.ctx .hardware (some core) none 0

/-- An error in a view of a core's pool (R39): its value is free, and its context is FAULTED. -/
def loseView (s : State) (core place : Nat) : State :=
  match ((s.views.filter (fun v => v.core == some core)).drop place).head? with
  | none => s
  | some v =>
    let d := Config.freeDWord s.free
    let s := logError { s with free := s.free + 1 } 1 (quadOf core) 0 core 0 0xFF
    let val : ViewVal := { v.val with word := d.setWidth 32, acc := d.toInt }
    ctxFault { s with views := s.views.map (fun x => if x.id = v.id then { x with val := val } else x) } v.ctx .hardware (some core) none 0

/-- UNCORRECTABLE_SOFT_ERROR (R38, R39, R254, R334, R335). (assumption 93, DEDUCED) -/
def execUncorrectableSoftError (site : ErrorSite) (s : State) : Host.Outcome State Fault Refusal :=
  match site with
  | .l1Word core pa =>
    (match l1Find s.l1 (ownerOf s core) (pa / 4) with
     | none => .next s
     | some x =>
       match x.st with
       | .valid => .next { s with l1 := l1Drop s.l1 x.owner x.wa }
       | .registered => .next (loseWord (logError s 1 (quadOf core) 0 core pa 0xFF) (some core) (pa / 4) (.ofNat 64 (pa / 4 * 4)))
       | .pending =>
         let s := { s with free := s.free + 1, l1 := l1Put s.l1 { x with val := (Config.freeDWord s.free).setWidth 32 } }
         .next (dataLost s (quadOf core) pa))
  | .l2Line pa way =>
    let bad := dirtyWords s (pa / 64)
    let s := if bad.isEmpty then s else bad.foldl spoil (dataLost s 0xFF pa)
    .next (retireWay s pa way)
  | .replica die pa => .next (dropReplicas s (fun d => d == die) (pa / 64 * 64) 64)
  | .hbm pa =>
    if isMemory pa = false then .next s
    else if (dirtyWords s (pa / 64)).isEmpty && Config.cleanCopy s.free then .next { s with free := s.free + 1 }
    else .next (loseMemory s pa)
  | .packet n =>
    (match (queueFind s n).filter (mayAccept s) with
     | some q => .next (loseAt (packetFault s q) q.ctx (packetAt q))
     | none => .next s)
  | .record n =>
    (match (queueFind s n).filter (fun q => q.kind == 1 && q.st == 1 && !q.recs.isEmpty && decide (qCount q < qSlots q)) with
     | some q => .next (loseAt (putQueue s { q with st := 2 }) q.ctx (q.base.toNat + 32 * (q.wr.toNat % qSlots q)))
     | none => .next s)
  | .scratch core off => .next (loseScratch s core off)
  | .view core place => .next (loseView s core place)

/-- Spares an HBM row, within eight of its bank (R38). -/
def spareRow (s : State) (x : Nat × Nat × Nat) : State :=
  if s.rows.contains x || decide (8 ≤ (s.rows.filter (fun y => y.1 == x.1 && y.2.1 == x.2.1)).length) then s
  else logError { s with rows := x :: s.rows } 2 (if 8 ≤ x.1 ∧ x.1 < 12 then 24 + x.1 else 0xFF) 0 x.2.2 0 0xFF

/-- PATROL_SCRUB (R38): counts, rows with two corrections in the period, and ways. -/
def execPatrolScrub (r : ScrubReport) (s : State) : Host.Outcome State Fault Refusal :=
  let s := { s with islands := r.corrected.foldl (fun xs c =>
    let x := getAt ({} : Island) xs c.1
    setAt {} xs c.1 { x with soft := x.soft + c.2 }) s.islands }
  let s := (r.rows.filter (fun x => decide (2 ≤ (r.rows.filter (fun y => y == x)).length))).foldl spareRow s
  .next (r.ways.foldl (fun s w => retireWay s w.1 w.2) s)

end Sys2Proof.Machine
end

