-- ==== Sys2Proof/Machine/Debug.lean ====
section
/-! DEFINITION. The debugger: halts, steps, reading and writing halted warps, and samples (27_debug.md R508 to R519). -/

namespace Sys2Proof.Machine

/-! ## Halts (R306, R513 to R515) -/

/-- Whether a warp stands on a die's cores. -/
def onDie (die : Nat) (w : Warp) : Bool :=
  dieOf w.core == die && (match w.place with | .resident => true | .landed => true | .departing _ _ => true | _ => false)

/-- Whether a warp of a context is within a granule: 0 warp, 1 block, 2 die, 3 context (R500, R513). -/
def named (g n : Nat) (w : Warp) : Bool :=
  match g with
  | 0 => w.num == n
  | 1 => w.blk == some n
  | 2 => onDie n w
  | _ => true

/-- Whether a warp's state is in memory. -/
def inMemory (w : Warp) : Bool := match w.place with | .saved => true | .inTransit _ _ => true | .leapSaved _ => true | _ => false

/-- A halted warp (R513): it has no unfinished latch chain. -/
def isHalted (s : State) (w : Warp) : Bool := w.halted.isSome && (chainNext s w).isNone

/-- Halts the warps of a context that a test names; saved ones are recorded in the halt set (R245, R513, R515). -/
def haltWarps (s : State) (c : Nat) (p : Warp → Bool) : State :=
  let hit (w : Warp) : Bool := w.ctx == c && p w && w.halted.isNone
  let set := (s.warps.filter (fun w => hit w && inMemory w)).map (fun w => w.num)
  let x := ctxOf s c
  let s := setCtx s c { x with haltSet := dedup (set ++ x.haltSet) }
  offRecords { s with warps := s.warps.map (fun w => if hit w then { w with halted := some 0, haltInfo := none, yielded := false, starve := 0 } else w) }
    c (fun n => s.warps.any (fun w => w.num == n && hit w))

/-- Answers the HALTs of a context once its halted warps stand at boundaries (R499, R513). -/
def pumpHalts (s : State) (c : Nat) : State :=
  let x := ctxOf s c
  if x.halting.isEmpty || s.warps.any (fun w => w.ctx == c && w.halted.isSome && (chainNext s w).isSome) then s
  else answerAll (setCtx s c { x with halting := [] }) x.halting 0

/-- Whether the operands of a HALT or DRESUME are malformed. -/
def haltBad (m : Msg) : Bool := decide (3 < pl m 0 1) || pl m 1 3 != 0 || (pl m 0 1 == 2 && decide (8 ≤ pl m 4 4))

/-- What HALT does. (assumption 96, DEDUCED) -/
def doHalt : Perform := command true (len 8) (fun s k m =>
  let c := ctxField m
  let x := ctxOf s c
  let g := pl m 0 1
  if haltBad m then reply s k m 4
  else if x.dbgctl.getLsbD 0 = false then reply s k m 28
  else if (if g = 3 then x.st != .runnable && x.st != .running else x.st == .empty || x.st == .teardown) then reply s k m 8
  else
    let s := haltWarps s c (named g (pl m 4 4))
    let y := ctxOf s c
    let y := { y with halting := y.halting ++ [answerOf k m] }
    let y := if g = 3 then { y with st := .halted } else if g = 2 then { y with haltDies := pl m 4 4 :: y.haltDies.filter (fun d => !(d == pl m 4 4)) } else y
    pumpHalts (setCtx s c y) c)

/-- HALT (R513). -/
def execHalt (m : Msg) (s : State) : Host.Outcome State Fault Refusal := mgmt s m doHalt

/-- A warp released by the debugger: its first issue has no previous one and tests no breakpoint (R233, R510). -/
def released (w : Warp) : Warp := { w with halted := none, haltInfo := none, stepSet := none, bpSkip := true, noPrev := true }

/-- What DRESUME does (R306, R513, R515). (assumption 97, DEDUCED) -/
def doDresume : Perform := command true (len 8) (fun s k m =>
  let c := ctxField m
  let g := pl m 0 1
  let n := pl m 4 4
  let go (w : Warp) : Bool := w.ctx == c && named g n w && w.halted.isSome
  if haltBad m then reply s k m 4
  else if (ctxOf s c).st = .empty ∨ (ctxOf s c).st = .teardown then reply s k m 8
  else
    let freed := (s.warps.filter go).map (fun w => w.num)
    let s := { s with warps := s.warps.map (fun w => if go w then released w else w) }
    let x := ctxOf s c
    let out := s.warps.any (fun w => w.ctx == c && (match w.place with | .saved => false | _ => true))
    let x := { x with
      haltSet := if g = 3 then [] else x.haltSet.filter (fun v => !(freed.contains v))
      haltDies := if g = 3 then [] else if g = 2 then x.haltDies.filter (fun d => !(d == n)) else x.haltDies
      st := if g = 3 ∧ x.st = .halted then (if out then .running else .runnable) else x.st }
    reply (setCtx s c x) k m 0)

/-- DRESUME (R513). -/
def execDresume (m : Msg) (s : State) : Host.Outcome State Fault Refusal := mgmt s m doDresume

/-! ## Stepping (R516) -/

/-- Whether a copy to a Carousel would wait for a slot. (assumption 100, DEDUCED) -/
def copyParks (s : State) (w : Warp) (o : OpsS) (mx : Bool) : Bool :=
  let d := (List.range 4).map (fun j => sGet w.regs (o.sa.toNat + j))
  let im := tidRead s (dieOf w.core) w.ctx (dTid d)
  let cmd := if mx then [sGet w.regs o.sb.toNat, sGet w.regs (o.sb.toNat + 1)] else []
  dRoute d == 1 && (copyCause s w mx d cmd im).isNone &&
  (match blockOf s w with
   | none => false
   | some b => match ringClaimFor b (dScr d) (dBytes d im) with | .full => true | _ => false)

/-- Whether a group is one that R115 lists as parking, or MIGRATE (R516). -/
def wouldPark (s : State) (w : Warp) (r : Fetched) : Bool :=
  match r with
  | .group (.ok (.syncw _ _)) => true
  | .group (.ok (.rawait _ _)) => true
  | .group (.ok (.cwaitb _ _)) => true
  | .group (.ok (.tsync _ _)) => true
  | .group (.ok (.fuse _ _)) => true
  | .group (.ok (.migrate _ _)) => true
  | .group (.ok (.cpy _ o)) => copyParks s w o false
  | .group (.ok (.cpymx _ o)) => copyParks s w o true
  | _ => false

/-- A set of lanes widened to whole bound groups (R224, R516). -/
def wholeGroups (w : Warp) (x : LaneMask) : LaneMask :=
  (lanesOf x).foldl (fun m l => m ||| groupOf (boundSize w) l) x &&& live w

/-- The step set of a STEP (R516). -/
def stepLanes (w : Warp) (l mode : Nat) : LaneMask :=
  wholeGroups w (if mode = 0 then laneOne l else live w &&& mkMask (fun k => keyOf w k == keyOf w l))

/-- What STEP does: the warp is to issue one group for the step set. (assumption 98, DEDUCED) -/
def doStep : Perform := command true (len 8) (fun s k m =>
  let c := ctxField m
  let l := pl m 4 1
  if 32 ≤ l ∨ 1 < pl m 5 1 ∨ pl m 6 2 ≠ 0 then reply s k m 4
  else if (ctxOf s c).dbgctl.getLsbD 0 = false then reply s k m 28
  else
    match warpFind s c (pl m 0 4) with
    | none => reply s k m 29
    | some w =>
      if !(isHalted s w) || inMemory w || (ctxOf s c).st == .faulted || (ctxOf s c).st == .teardown then reply s k m 29
      else if !(laneBit (live w) l) then reply s k m 30
      else if wouldPark s w (fetchAt s w (getAt 0 w.pc l)) then reply s k m 31
      else reply (setWarp s { w with halted := none, haltInfo := none, stepSet := some (stepLanes w l (pl m 5 1)) }) k m 0)

/-- STEP (R516). -/
def execStep (m : Msg) (s : State) : Host.Outcome State Fault Refusal := mgmt s m doStep

/-! ## Reading and writing a halted warp (R517) -/

/-- The bytes of a register's slot: zero for one that is not mapped and not spilled. -/
def slotBytes (s : State) (w : Warp) (n : Nat) : List Byte :=
  match savedLanes s w n with
  | .ok x => if x.isEmpty then List.replicate 128 0 else laneBytes x
  | .error _ => List.replicate 128 0

/-- The frame image of a warp on a core. -/
def liveImage (s : State) (w : Warp) : List Byte :=
  frameHeader w w.haltInfo true ++ ((List.range 64).map (fun n => natLe 8 (sGet w.regs n).toNat)).flatten ++
  ((List.range 56).map (slotBytes s w)).flatten

/-- The lane that a halted warp's ordinal is of: of the split reported, else of the primary. -/
def haltLane (w : Warp) : Nat :=
  match w.haltInfo with
  | some t => ((lanesOf t.spl).head?).getD (leader w)
  | none => ((primary w).bind (fun p => (lanesOf p).head?)).getD (leader w)

/-- What a lane waits for: the kind and the number of the trailer (R517). -/
def waitOf (s : State) (w : Warp) (l : Nat) : Nat × Nat :=
  match w.parked.find? (fun p => laneBit (parkSplit w p) l) with
  | some p =>
    (match p.wait with
     | .syncw off _ _ => (1, off)
     | .rawait h _ => (2, h)
     | .cwaitb b => (3, b.toNat)
     | .tsync _ => (4, 0)
     | .fuse => (5, 0)
     | .ring h _ _ _ _ _ => (6, h))
  | none =>
    if !(laneBit (live w) l) then (0, 0)
    else
      match fetchAt s w (getAt 0 w.pc l) with
      | .group (.ok (.wait fl)) =>
        if (List.range 12).any (fun f => fl.getLsbD f && getAt 0 w.f f != 0) then (7, fl.toNat) else (0, 0)
      | _ => (0, 0)

/-- The 512 bytes of the trailer. -/
def trailer (s : State) (w : Warp) : List Byte :=
  let e := strandOf s w
  strandBytes e ++ natLe 8 (strandKey e).toNat ++ natLe 4 (ordinalOf s w.ctx (getAt 0 w.pc (haltLane w)).toNat) ++ natLe 4 0 ++
  (laneIdx.map (fun l => let (k, v) := waitOf s w l; natLe 8 (k * 2 ^ 60 + v))).flatten ++ List.replicate 80 0

/-- The 8,704 bytes that READ_WARP reads; a saved warp's frame stands in memory. -/
def warpImage (s : State) (w : Warp) : Except Cause (List Byte) :=
  if inMemory w then
    match readFrame s w with
    | .ok bs => .ok (bs ++ trailer s w)
    | .error k => .error k
  else .ok (liveImage s w ++ trailer s w)

/-- What READ_WARP does. -/
def doReadWarp : Perform := command true (len 8) (fun s k m =>
  let off := pl m 4 2
  let n := pl m 6 2
  if n % 4 ≠ 0 ∨ 4096 < n ∨ 8704 < off + n then reply s k m 4
  else
    match warpFind s (ctxField m) (pl m 0 4) with
    | none => reply s k m 29
    | some w =>
      if !(isHalted s w) then reply s k m 29
      else
        match warpImage s w with
        | .error _ => reply s k m 2
        | .ok bs => answer s (answerOf k m) 0 ((bs.drop off).take n))

/-- READ_WARP (R517). -/
def execReadWarp (m : Msg) (s : State) : Host.Outcome State Fault Refusal := mgmt s m doReadWarp

/-- The splits that stay parked when the debugger writes a warp: lanes whose entries it has not changed. (assumption 99, DEDUCED) -/
def keepParked (old new : Warp) : List Park :=
  let same (l : Nat) : Bool :=
    getAt 0 old.pc l == getAt 0 new.pc l && getAt 0 old.depth l == getAt 0 new.depth l && getAt 0 old.rep l == getAt 0 new.rep l
  let kept := live new &&& mkMask same
  (old.parked.map (fun (p : Park) => { p with lanes := parkSplit old p &&& kept })).filter (fun p => p.lanes != 0)

/-- Writes an image into a halted warp on a core (R517): all that TRET restores, but flags in flight and the handler bit. -/
def putLive (s : State) (w : Warp) (im : List Byte) : State :=
  let v := loadFrame w im
  let v := { v with f := w.f, inHandler := w.inHandler, noPrev := w.noPrev, parked := keepParked w v }
  let s := setWarp s { v with regs := { v.regs with v := noRegs, order := [] } }
  match remap s v with
  | .failed k s x => poolFault s x k
  | .noRoom => s
  | .ok s v => setWarp s v

/-- The parts of a frame that a write ignores (R517): offset and length. -/
def ignored : List (Nat × Nat) := [(164, 24), (224, 12), (244, 20), (456, 12)]

/-- Writes an image into the frame of a saved warp. -/
def putSaved (s : State) (w : Warp) (im : List Byte) : Except Cause State :=
  match readFrame s w with
  | .error k => .error k
  | .ok old =>
    let bs := ignored.foldl (fun bs r => layBytes bs r.1 ((old.drop r.1).take r.2)) (im.take 8192)
    let bs := layBytes bs 160 (natLe 4 (fr old 160 4 ||| fr im 160 4))
    match devWrite s w.ctx (frameAddr s w) bs with
    | .ok s => .ok s
    | .error (k, _) => .error k

/-- Replaces what a connection has gathered for WRITE_WARP. -/
def setImage (s : State) (k : Conn) (g : Option (Nat × Nat × List Byte)) : State :=
  { s with conns := s.conns.map (fun x => if sameConn k x then { x with ww := g } else x) }

/-- What WRITE_WARP does: chunks in order of offset, the image tested and applied after the last (R500, R517). -/
def doWriteWarp : Perform := command true (fun n => decide (8 ≤ n) && decide (n ≤ 4096)) (fun s k m =>
  let c := ctxField m
  let n := pl m 0 4
  let bs := m.payload.drop 8
  let got := k.ww.getD (c, n, [])
  if 1 < pl m 6 1 ∨ pl m 7 1 ≠ 0 then reply s k m 4
  else if got.1 ≠ c ∨ got.2.1 ≠ n ∨ pl m 4 2 ≠ got.2.2.length then reply (setImage s k none) k m 4
  else
    match warpFind s c n with
    | none => reply s k m 29
    | some w =>
      if !(isHalted s w) then reply s k m 29
      else if pl m 6 1 = 0 then reply (setImage s k (some (c, n, got.2.2 ++ bs))) k m 0
      else
        let im := got.2.2 ++ bs
        let s := setImage s k none
        if im.length ≠ 8704 then reply s k m 4
        else if frameBad w im then reply s k m 14
        else if inMemory w then
          match putSaved s w im with
          | .ok s => reply s k m 0
          | .error _ => reply s k m 2
        else reply (putLive s w im) k m 0)

/-- WRITE_WARP (R517). -/
def execWriteWarp (m : Msg) (s : State) : Host.Outcome State Fault Refusal := mgmt s m doWriteWarp

/-! ## Samples (R518, R519) -/

/-- The least number of a list above a bound, else the least. -/
def nextNum (after : Option Nat) (ns : List Nat) : Option Nat :=
  let least (xs : List Nat) : Option Nat := xs.foldl (fun m x => match m with | none => some x | some y => some (min x y)) none
  match after with
  | none => least ns
  | some a => (least (ns.filter (fun n => decide (a < n)))).or (least ns)

/-- SAMPLE_MARK (R518): the next resident warp of the context on the core, in the order of warp numbers. -/
def execSampleMark (c core : Nat) (s : State) : Host.Outcome State Fault Refusal :=
  let x := ctxOf s c
  match x.sampleRing with
  | none => .next s
  | some r =>
    let ns := (s.warps.filter (fun w => w.ctx == c && w.core == core && (match w.place with | .resident => true | .landed => true | _ => false))).map (fun w => w.num)
    match nextNum (getKey core x.marks) ns with
    | none => .next s
    | some n =>
      if r.period = 0 then .next s
      else
        let s := setCtx s c { x with marks := putKey core n x.marks }
        .next { s with warps := s.warps.map (fun w => if w.ctx = c ∧ w.num = n then { w with marked := true } else w) }

/-- The splits of a warp (R114). -/
def splitCount (w : Warp) : Nat := (dedup ((lanesOf (live w)).map (keyOf w))).length

/-- A sample record (R518). -/
def sampleBytes (s : State) (w : Warp) : List Byte :=
  let pc := match primary w with | some p => pcOf w p | none => 0
  natLe 8 s.tb.toNat ++ natLe 4 (ordinalOf s w.ctx pc.toNat) ++ natLe 4 w.num ++ natLe 2 w.core ++ natLe 1 (splitCount w) ++
  List.replicate 13 0

/-- SAMPLE_RECORD (R518): a marked warp that is about to issue a group at a stop site. -/
def dueSampleRecord (c n : Nat) (s : State) : Option State :=
  match warpFind s c n with
  | none => none
  | some w =>
    if w.marked && running w && atStopSite s w then
      let (s, r) := ringRecord s c (ctxOf s c).sampleRing (sampleBytes s w)
      let x := ctxOf s c
      let s := setCtx s c { x with sampleRing := r }
      some { s with warps := s.warps.map (fun w => if w.ctx = c ∧ w.num = n then { w with marked := false } else w) }
    else none

/-- SAMPLE_RECORD, which takes place where it is due. -/
def execSampleRecord (c n : Nat) (s : State) : Host.Outcome State Fault Refusal := takes s (dueSampleRecord c n s)

/-- SAMPLE_MARK_DROP (R518, R519). -/
def execSampleMarkDrop (c n : Nat) (s : State) : Host.Outcome State Fault Refusal :=
  match warpFind s c n with
  | none => .next s
  | some w =>
    if w.marked then
      let s := match (ctxOf s c).sampleRing with | some r => ringDrop s c r.base.toNat | none => s
      .next { s with warps := s.warps.map (fun w => if w.ctx = c ∧ w.num = n then { w with marked := false } else w) }
    else .next s

end Sys2Proof.Machine
end

