-- ==== Sys2Proof/Machine/Settle.lean ====
section
/-! DEFINITION. What follows at once from a step of the machine, with no event of its own in the opcode table: parked splits
whose wait has ended, completed warps and blocks, messages that waited behind others, answers now due, contexts that run out
of work (04_thread.md R115, R121, R123; 15_context.md R306; 16_queue.md R335; 22_copy.md R413, R432; 26_link.md R492 to
R495). -/

namespace Sys2Proof.Machine

/-! ## Messages that waited (R493, R495, R500) -/

/-- What a management message does, by its code (R500); any other code is BAD. -/
def performMgmt (op : Nat) : Perform :=
  match op with
  | 0x02 => doClose
  | 0x03 => doRegread
  | 0x04 => doRegwrite
  | 0x08 => doClaim
  | 0x09 => doHandover
  | 0x0A => doRelease
  | 0x0B => doCancel
  | 0x0C => doReset
  | 0x0D => doAttest
  | 0x10 => doFwStage
  | 0x11 => doFwActivate
  | 0x12 => doFwAdvance
  | 0x13 => doSpare
  | 0x15 => doInvalidate
  | 0x16 => doAnswer false
  | 0x17 => doAnswer true
  | 0x20 => doBuild
  | 0x21 => doRun
  | 0x22 => doPreempt
  | 0x23 => doResume
  | 0x24 => doTeardown
  | 0x28 => doQCreate
  | 0x29 => doQReset
  | 0x2A => doQDestroy
  | 0x2C => doLoadGraph
  | 0x2D => doUnloadGraph
  | 0x30 => doSetTid
  | 0x31 => doSetFabwin
  | 0x32 => doSetSafept
  | 0x33 => doSetBbc
  | 0x34 => doSetRing
  | 0x38 => doHalt
  | 0x39 => doDresume
  | 0x3A => doStep
  | 0x3B => doReadWarp
  | 0x3C => doWriteWarp
  | _ => fun s k m => (reply s k m 4, true)

/-- What a message does, by its TYPE (R488). -/
def performMsg (ty : Nat) (m : Msg) : Perform :=
  match ty with
  | 1 => doRead
  | 2 => doWrite
  | 3 => doWriteRel
  | 4 => doAtomic
  | 5 => doTrigger
  | 7 => doCompletion
  | _ => performMgmt m.op.toNat

/-- Performs the messages of a connection that no longer wait, in order; `n` bounds their number. -/
def pumpConn (s : State) (k : Conn) : Nat → State
  | 0 => s
  | n + 1 =>
    match connNow s k with
    | none => s
    | some x =>
      match x.queue with
      | [] => s
      | (ty, m) :: rest =>
        if !x.waits.isEmpty then s
        else
          let late := decide (0 < x.late) && !(ty == 6 && m.op == 8)
          let y : Conn := { x with queue := rest, late := x.late - 1, owner := x.owner || late, lateKey := if late then x.lateKey else none }
          let put (s : State) (f : Conn → Conn) : State := { s with conns := s.conns.map (fun z => if sameConn k z then f z else z) }
          let (s, ok) := performMsg ty m (put s (fun _ => y)) y m
          let s := if late then put s (fun z => { z with owner := x.owner, lateKey := x.lateKey }) else s
          if ok then pumpConn (put s (fun z => { z with bad := [] })) k n
          else put s (fun z => { z with queue := (ty, m) :: z.queue, late := x.late })

/-- Performs what waited on every connection. -/
def pumpConns (s : State) : State :=
  (s.conns.filter (fun k => !k.queue.isEmpty && k.waits.isEmpty)).foldl (fun s k => pumpConn s k k.queue.length) s

/-! ## Warps and blocks -/

/-- Tests a parked split that waits for its warp or its batches (R121, R375, R413, R430). -/
def testOwn (s : State) (c n : Nat) (p : Park) : State :=
  match warpFind s c n with
  | none => s
  | some w =>
    if !(running w) || !(w.parked.contains p) then s
    else
      match p.wait with
      | .fuse => if belowSplit w (parkSplit w p) then s else setWarp s (unpark w p)
      | .cwaitb b =>
        (match testCwaitb w b with
         | .stay => s
         | .pass => setWarp s (unpark w p)
         | .fault b => batchFault s (unpark w p) b)
      | .tsync _ => testTsync s c n p
      | .ring _ _ _ _ _ _ => testRing s c n p
      | _ => s

/-- What follows for one warp: the counts of an ended chain, a trap whose landings are done, its parked splits. -/
def settleWarp (s : State) (c n : Nat) : State :=
  match warpFind s c n with
  | none => s
  | some w =>
    let s := pumpTrap (endChain s w) c n
    let s := match warpFind s c n with
      | some v => if v.chain.isNone then trimCap s v else s
      | none => s
    w.parked.foldl (fun s p => testOwn s c n p) s

/-- A warp that has completed leaves. -/
def endWarp (s : State) (c n : Nat) : State :=
  match warpFind s c n with
  | none => s
  | some w => if warpOver s w then completeWarp s w else s

/-- What follows for one block: its parked splits, and its oldest follow-on command. -/
def settleBlock (s : State) (c n : Nat) : State :=
  let s := testBlock s c n
  match blockFind s c n with
  | some b => if b.follows.isEmpty then s else pumpFollow s b
  | none => s

/-! ## Contexts -/

/-- Whether a context has work (R306): a warp, a run, a task. -/
def hasWork (s : State) (c : Nat) : Bool :=
  s.warps.any (fun w => w.ctx == c) || s.insts.any (fun x => x.ctx == c) || s.tasks.any (fun t => t.ctx == c && t.st == .queued)

/-- What follows for one context: halts now complete, the runs of a FAULTED context ended with their records (R335), RUNNABLE
when the work runs out (R306). -/
def settleCtx (s : State) (c : Nat) : State :=
  let s := pumpHalts s c
  match (ctxOf s c).st with
  | .faulted => (s.insts.filter (fun x => x.ctx == c)).foldl (fun s x => abortInst s x 1) s
  | .running =>
    if hasWork s c then s
    else
      let x := ctxOf s c
      setCtx s c { x with st := .runnable }
  | _ => s

/-- Everything that follows at once from a step. -/
def settle (s : State) : State :=
  let ws := s.warps.map (fun w => (w.ctx, w.num))
  let s := ws.foldl (fun s w => settleWarp s w.1 w.2) s
  let s := (s.blocks.map (fun b => (b.ctx, b.num))).foldl (fun s b => settleBlock s b.1 b.2) s
  let s := ws.foldl (fun s w => endWarp s w.1 w.2) s
  let s := reapBlocks s
  let s := reapConns (pumpConns (answerWrites s))
  (List.range 64).foldl settleCtx (endAborted (pumpSpares s))

end Sys2Proof.Machine
end

