-- ==== Sys2Proof/Machine/Next.lean ====
section
/-! DEFINITION. Which agent acts next: the warp an issue slot chooses and its split, the second split of a pair, and the
events of the machine's own agents that are due (04_thread.md R116 to R118; 05_register.md R154; 11_issue.md R230 to R243;
27_debug.md R513, R516, R518). The order in which agents act is the model's own (assumption 2). -/

namespace Sys2Proof.Machine

/-! ## Eligible warps (R232) -/

/-- Whether a context's warps may issue (R306, R308). -/
def issuing (s : State) (c : Nat) : Bool :=
  match (ctxOf s c).st with
  | .running => true
  | .runnable => true
  | .halted => true
  | _ => false

/-- The split that a warp issues: a debugger's step set, the split of an unfinished chain, or the primary. -/
def chosenSplit (s : State) (w : Warp) : Option LaneMask :=
  match w.stepSet with
  | some t => if t &&& live w = 0 then none else some (t &&& live w)
  | none =>
    match chainNext s w with
    | some p => some p
    | none => primary w

/-- The group that a warp issues next. -/
def nextShape (s : State) (w : Warp) : Option Shape := (chosenSplit s w).bind (fun p => shapeNext (groupNext s w p))

/-- Whether a warp is eligible, its slot and the cycle apart (R232 items 1 to 3 and 5). -/
def eligible (s : State) (w : Warp) : Bool :=
  running w && issuing s w.ctx && w.holds.isEmpty && !w.desched && !(mustStop s w) && (chosenSplit s w).isSome &&
  (match (nextShape s w).bind waitFlags with | some fl => flagsZero w fl | none => true)

/-- The first cycle of its slot in which a warp is eligible (R232 items 4 and 5): a deferred cause waits for no distance. -/
def dueAt (s : State) (w : Warp) : Nat :=
  if !w.deferred.isEmpty && mayDeliver s w then 0
  else match nextShape s w with | some sh => dueTime w sh | none => 0

/-- Whether a warp stands in an unfinished latch chain that it is to go on with at once (R154 rule 4): nothing else issues on
its slot. -/
def inChain (s : State) (w : Warp) : Bool :=
  (w.place == .resident || w.place == .landed) && w.trapping.isNone && (chainNext s w).isSome && (issuing s w.ctx || (ctxOf s w.ctx).st == .faulted)

/-! ## Choosing a warp (R240 to R243) -/

/-- The eligible warps of a slot, the cycle apart. -/
def candidates (s : State) (slot : Nat) : List Warp :=
  let on := s.warps.filter (fun w => issueSlot w == slot)
  if on.any (fun w => inChain s w) then [] else on.filter (eligible s)

/-- The next cycle of a slot in which one of some warps is eligible: the slot idles through the cycles before. -/
def nextCycle (s : State) (slot : Nat) (ws : List Warp) : Nat :=
  match ws.map (dueAt s) with
  | [] => clockOf s slot + 1
  | t :: ts => max (clockOf s slot + 1) (ts.foldl min t)

/-- A slot's cycles up to one in which it issues; an idle cycle clears its record (R240). -/
def idleTo (s : State) (slot cycle : Nat) : State :=
  if cycle ≤ clockOf s slot + 1 then s
  else { s with clocks := putKey slot (cycle - 1) s.clocks, lastWarp := s.lastWarp.filter (fun r => !(r.1 == slot)) }

/-- The first in slot order from a place on, wrapping (R242). -/
def inOrder (after : Option Nat) (ws : List Warp) : Option Warp :=
  let low (xs : List Warp) : Option Warp := xs.foldl (fun m w => match m with | none => some w | some v => some (if w.slot < v.slot then w else v)) none
  match after with
  | none => low ws
  | some a => (low (ws.filter (fun w => decide (a < w.slot)))).or (low ws)

/-- The warp of a slot's last-warp record. -/
def recorded (s : State) (slot : Nat) : Option Warp :=
  (s.lastWarp.find? (fun r => r.1 == slot)).bind (fun r => warpFind s r.2.1 r.2.2)

/-- Whether a slot uses RR (R240). -/
def usesRR (s : State) (slot : Nat) : Bool :=
  (s.warps.filter (fun w => issueSlot w == slot && onCore w.core w)).all (fun w => (ctxOf s w.ctx).pol)

/-- The warp that a slot issues among its eligible ones (R241, R242). -/
def choose (s : State) (slot : Nat) (ws : List Warp) : Option Warp :=
  let starved := oldest (ws.filter (fun w => decide (256 ≤ w.starve)))
  let fresh := ws.filter (fun w => !w.yielded)
  let last := recorded s slot
  if usesRR s slot then
    let a := last.map (fun w => w.slot)
    starved.or ((inOrder a fresh).or (inOrder a ws))
  else
    starved.or ((last.bind (fun l => fresh.find? (fun w => w.ctx == l.ctx && w.num == l.num))).or ((oldest fresh).or (oldest ws)))

/-- The slots that have an eligible warp, from the one after the slot served last on. -/
def readySlots (s : State) : List Nat :=
  let xs := dedup ((s.warps.filter (eligible s)).map issueSlot)
  xs.filter (fun x => !(candidates s x).isEmpty)

/-- The slot to serve next: slots take turns. -/
def nextSlot (s : State) (xs : List Nat) : Option Nat :=
  let key (x : Nat) : Nat := (x + 4096 - s.slotNow) % 4096
  xs.foldl (fun m x => match m with | none => some x | some y => some (if key x < key y then x else y)) none

/-! ## Issuing (R113, R117, R118, R287) -/

/-- A fetch that meets a cause raises it precisely (R287, R526). (assumption 101, DEDUCED) -/
def fetchCause (s : State) (w : Warp) (split : LaneMask) (k : Cause) : State :=
  let s := endBbc s w
  let w := { w with chain := none, attempt := {} }
  raiseAt (setWarp s w) w { cause := k, spl := split, act := split } (pcOf w split)

/-- A fetch that meets an absent page posts it, and the warp is fault-parked (R194, R297). -/
def fetchAbsent (s : State) (w : Warp) (level va : Nat) : State :=
  setWarp (postFault s w.ctx level va kFetch (.warp w.ctx w.num))
    { w with holds := .fault [faultKey level va] :: w.holds, attempt := { w.attempt with xlate := [] } }

/-- A fetch that misses in the core's TLB waits for the page (R289). -/
def fetchMiss (s : State) (w : Warp) (page : Nat) : State := setWarp s { w with holds := .xlate [page] :: w.holds }

/-- Whether a group at an offset reads a latch. -/
def latchAt (s : State) (w : Warp) (pc : BitVec 32) : Bool :=
  match fetchAt s w pc with
  | .group (.ok i) => (match shapeOf i with | some sh => !(latchReads sh.code).isEmpty | none => false)
  | _ => false

/-- Whether no quad holds lanes of both splits (R117). -/
def quadsApart (a b : LaneMask) : Bool :=
  (List.range 8).all (fun q => (List.range 4).all (fun i => !(laneBit a (4 * q + i))) || (List.range 4).all (fun i => !(laneBit b (4 * q + i))))

/-- Whether an instruction of a split may be one of a co-issued pair (R117). -/
def pairable (s : State) (w : Warp) (split : LaneMask) (i : Instr) : Bool :=
  coIssuable i &&
  (match shapeOf i with
   | none => false
   | some sh => (latchReads sh.code).isEmpty && !(latchAt s w (pcOf w split + .ofNat 32 sh.len)))

/-- The registers as the first of a pair reads them: ready, and before its writes (R118). -/
def prepared (s : State) (w : Warp) (split : LaneMask) (i : Instr) : Regs :=
  match shapeOf i with
  | none => w.regs
  | some sh =>
    let p : Issue := ⟨w.ctx, w.num, split, none⟩
    match operandsReady s sh.code (issOf s p sh (atIssue s p w sh)) with
    | .ok _ v => v.regs
    | _ => w.regs

/-- The second split of a pair with its instruction, its own distance met by a cycle (R117). -/
def secondOf (s : State) (w : Warp) (split : LaneMask) (i : Instr) (cycle : Nat) : Option (LaneMask × Instr) :=
  if w.stepSet.isSome || (chainNext s w).isSome then none
  else
    match nextSplit w split with
    | none => none
    | some q =>
      match groupNext s w q with
      | .group (.ok j) =>
        if quadsApart split q && pairable s w split i && pairable s w q j &&
            (shapeOf j).any (fun sh => decide (dueTime w sh ≤ cycle)) then some (q, j) else none
      | _ => none

/-- Eligible warps of a slot that another's issue has passed over (R243). -/
def passOver (s : State) (slot : Nat) (w : Warp) (was : List Warp) : State :=
  { s with warps := s.warps.map (fun x =>
      if issueSlot x = slot ∧ was.any (fun y => y.ctx == x.ctx && y.num == x.num) ∧ !(x.ctx == w.ctx && x.num == w.num) then
        { x with starve := x.starve + 1 } else x) }

end Sys2Proof.Machine
end

