-- ==== Sys2Proof/Machine/Events.lean ====
section
/-! DEFINITION. The events of the machine's own agents that may be due in a state: messages between cores and slices,
landings, translations, copies, matrix commands, dispatch, completion records, stops and saves. Each is tried by its own
meaning, which says whether it is due; what the outside world does, and the ends of timers, come from the agenda (assumption
2). -/

namespace Sys2Proof.Machine

/-- An event ready to be tried. -/
abbrev Try := State → Option State

/-- The events of messages in the network (R250, R251). -/
def netEvents (s : State) : List Try :=
  s.net.map (fun m =>
    match m.kind with
    | .read _ _ _ _ _ => dueSliceRead m.id []
    | .replica _ _ _ _ _ _ => dueSliceRead m.id []
    | .register _ _ _ _ _ => dueRegistrationRequest m.id []
    | .grant _ _ => dueGrant m.id
    | .revoke _ => dueRevocation m.id
    | .revokeAnswer _ _ _ => dueRevocationAnswer m.id
    | .forward _ _ _ _ => dueForwardedRead m.id
    | .forwardAnswer _ _ _ _ _ => dueForwardedReadAnswer m.id
    | .writeBack _ _ _ _ => dueWriteBack m.id
    | .atomic _ _ _ _ _ _ => dueSliceAtomic m.id
    | .check _ _ _ _ _ _ _ => dueCheckRequest m.id)

/-- The landings of a warp's operations (R140). -/
def landEvents (w : Warp) : List Try :=
  w.pend.flatMap (fun p =>
    [dueLoadDataLands w.ctx w.num p.id [], dueSfuResultLands w.ctx w.num p.id, dueLongResultLands w.ctx w.num p.id,
     dueAtomicResultLands w.ctx w.num p.id])

/-- Translations that a warp is held for (R289). -/
def missEvents (w : Warp) : List Try :=
  w.holds.flatMap (fun h =>
    match h with
    | .xlate ps => ps.map (fun p => dueTlbMissRequest w.core w.ctx p)
    | _ => [])

/-- The events of a warp. -/
def warpEvents (w : Warp) : List Try :=
  landEvents w ++ missEvents w ++ w.arrivals.map (fun a => dueSyncaArrival w.ctx w.num a.id) ++
  [dueReleaseActionDone w.ctx w.num, dueAcquireActionDone w.ctx w.num, dueRupdApply w.ctx w.num, dueRegisterRefill w.ctx w.num,
   dueWarpPreemptStop w.ctx w.num, dueMigrateDepart w.ctx w.num, dueMigrateLand w.ctx w.num, dueMigrateSettle w.ctx w.num]

/-- The events of translation and of the fault buffers (R290, R299). -/
def walkEvents (s : State) : List Try :=
  s.walks.map (fun w => duePageWalkDone w.ctx w.page) ++ s.refused.map (fun r => dueTranslationRefusalRetry r.core r.ctx r.page) ++
  s.heldFaults.map (fun f => dueFaultBufferRetry f.die)

/-- The events of multicasts (R293, R295, R448, R483, R484). -/
def castEvents (s : State) : List Try :=
  s.casts.flatMap (fun k =>
    [dueMulticastResidualSend k.id k.residual] ++ k.reached.map (fun d => dueInvalidateDieDone k.id d) ++
    k.reached.map (fun d => dueCollapseNotice k.id d) ++ k.done.map (fun d => dueCollapseAck k.id d) ++
    k.done.map (fun d => dueMulticastAck k.id d) ++ [dueCollapseComplete k.id])

/-- The events of a block's scratchpad and matrix unit. -/
def blockEvents (b : Block) : List Try :=
  [dueScratchpadWriteDone b.ctx b.num, dueMatrixCommandStart b.ctx b.num] ++
  (b.queue.filter (fun q => q.running)).map (fun q => dueMatrixCommandDone b.ctx b.num q.id)

/-- The events of a copy. -/
def copyEvents (k : Copy) : List Try :=
  if isLaneCopy k then [dueCpy16LaneLands k.id] else k.chunks.map (fun n => dueCopyChunkLands k.id n)

/-- The cores of a cluster that a node's group would take: the first that fit. -/
def coresIn (s : State) (n : Node) (k cl : Nat) : List Nat :=
  (((List.range 4).map (fun j => 4 * cl + j)).filter (coreFits s n)).take k

/-- Grants of a launch: to the first clusters that have room, of its next die, or anywhere for a group that was saved. -/
def grantEvents (s : State) (l : Launch) : List Try :=
  match nodeOf s l with
  | none => []
  | some n =>
    let saved := (savedGroup s n l).length
    let k := if saved = 0 then n.cblocks else saved
    let cls := if saved = 0 then (List.range 32).map (fun i => 32 * nextDie n l + i) else List.range 256
    match cls.find? (fun cl => clusterFits s n k cl) with
    | some cl => [dueBlockGrant l.id (coresIn s n k cl)]
    | none => []

/-- The events of launches, runs and queues (R334 to R337, R346). -/
def launchEvents (s : State) : List Try :=
  s.launches.flatMap (fun l => grantEvents s l ++ [dueLaunchComplete l.id]) ++
  s.insts.flatMap (fun x => [dueInstanceStart x.ctx x.graph] ++ x.flying.map (fun r => dueRecordArrival r.1)) ++
  s.queues.flatMap (fun q => [duePacketAccept q.num, dueCompletionRecordWrite q.num, dueQueueDestroyDone q.num])

/-- A free general slot of a core. -/
def firstSlot (s : State) (core : Nat) : Nat := ((freeSlots s core).head?).getD 0

/-- Dispatch of tasks: a core's own, a core near it that steals, and one farther off that the steps pass in turn; a saved
warp likewise (R329, R376, R377). -/
def dispatchEvents (s : State) : List Try :=
  let own := s.deques.flatMap (fun d =>
    if d.2.isEmpty then []
    else
      let near := (List.range 4).map (fun j => d.1 / 4 * 4 + j)
      let far := (d.1 + s.tick) % 1024
      dueTaskDispatch d.1 (firstSlot s d.1) none :: ((near ++ [far]).filter (fun c => c != d.1)).map (fun c => dueTaskDispatch c (firstSlot s c) (some d.1)))
  let saved := (s.warps.filter (fun w => w.place == .saved)).flatMap (fun w =>
    [w.core, (w.core + s.tick) % 1024].map (fun c => dueTaskDispatch c (firstSlot s c) none))
  own ++ saved

/-- The events of tasks, views and tags (R259, R371, R395). -/
def taskEvents (s : State) : List Try :=
  s.tasks.flatMap (fun t => [dueTaskComplete t.ctx t.id, dueViewMerge t.ctx t.id, dueViewMergeDone t.ctx t.id]) ++
  (List.range 64).flatMap (fun c => (ctxOf s c).strands.flatMap (fun e => e.acks.map (fun a => dueTagClearAck c e.tag a)))

/-- The ends of saves, teardowns and island transitions (R34, R308, R325). -/
def endEvents (s : State) : List Try :=
  (List.range 64).flatMap (fun c =>
    (if (ctxOf s c).preempt.isSome then [duePreemptComplete c] else []) ++ (if (ctxOf s c).st = .teardown then [dueTeardownDone c] else [])) ++
  ((List.range 40).filter (fun n => (getAt ({} : Island) s.islands n).busy)).map dueIslandTransitionDone

/-- Every event that may be due, group by group. -/
def events (s : State) : List Try :=
  netEvents s ++ s.warps.flatMap warpEvents ++ walkEvents s ++ castEvents s ++ s.blocks.flatMap blockEvents ++ s.copies.flatMap copyEvents ++
  launchEvents s ++ dispatchEvents s ++ taskEvents s ++ endEvents s

/-- The first event of a list that is due, and the state after it. -/
def firstDue (s : State) : List Try → Option State
  | [] => none
  | f :: fs =>
    match f s with
    | some s => some s
    | none => firstDue s fs

/-- The state after the event whose turn it is: the list is taken up at a place that moves from step to step, so that none waits
for ever. -/
def nextEvent (s : State) : Option State :=
  let es := events s
  let k := s.tick % (es.length + 1)
  firstDue s (es.drop k ++ es.take k)

end Sys2Proof.Machine
end

