-- ==== Sys2Proof/Machine/Fence.lean ====
section
/-! DEFINITION. The fences (13_consistency.md R278 to R280): what each waits for and which later accesses it holds. Their
release and acquire actions end in RELEASE_ACTION_DONE and ACQUIRE_ACTION_DONE. -/

namespace Sys2Proof.Machine

/-- The range that a ranged fence names (R278). -/
def fenceRange (i : Iss) (o : OpsF) : Range := ⟨i.s o.sa.toNat, i.s o.sb.toNat⟩

/-- A fence: at thread and warp scope it is complete at once; behind a fence still in progress it is held (R279). -/
def fenceAs (acquiring : Bool) (f : State → Iss → OpsF → Nat → Warp → Warp) (s : State) (i : Iss) : Res :=
  match i.c.body with
  | .F o =>
    let w := if acquiring then acquires i.w else i.w
    let scope := o.scope.toNat
    if scope ≤ 1 then .ok { s := s, w := w }
    else if i.w.rel.isSome ∨ i.w.acq.isSome then .held s (retryHold i.w)
    else .ok { s := s, w := f s i o scope w }
  | _ => .held s i.w

/-- A release action that holds later accesses. -/
def relFence (s : State) (w : Warp) (scope : Nat) (r : Option Range) (holds : Option Range) (acq : Option Nat) : Warp :=
  { w with rel := some { relActOf s w scope r .none with acq := acq, holds := some holds } }

/-- The loads that an acquire waits for. -/
def loadsOut (w : Warp) : List Nat := (w.pend.filter isLoad).map (fun p => p.id)

/-- FENCE (R279). -/
def execFence (g : Grp) (o : OpsF) (s : State) : Host.Outcome State Fault Refusal :=
  issueAs s (.fence g o) (fenceAs true (fun s _ _ scope w => relFence s w scope none none (some scope)))

/-- FENCER (R279). -/
def execFencer (g : Grp) (o : OpsF) (s : State) : Host.Outcome State Fault Refusal :=
  issueAs s (.fencer g o) (fenceAs false (fun s i o scope w =>
    relFence s w scope (some (fenceRange i o)) (some (fenceRange i o)) none))

/-- ACQ (R279). -/
def execAcq (g : Grp) (o : OpsF) (s : State) : Host.Outcome State Fault Refusal :=
  issueAs s (.acq g o) (fenceAs true (fun _ _ _ scope w => { w with acq := some ⟨scope, loadsOut w, none, false⟩ }))

/-- ACQR (R255, R279). -/
def execAcqr (g : Grp) (o : OpsF) (s : State) : Host.Outcome State Fault Refusal :=
  issueAs s (.acqr g o) (fenceAs true (fun _ i o scope w => { w with acq := some ⟨scope, loadsOut w, some (fenceRange i o), false⟩ }))

/-- REL (R279). -/
def execRel (g : Grp) (o : OpsF) (s : State) : Host.Outcome State Fault Refusal :=
  issueAs s (.rel g o) (fenceAs false (fun s _ _ scope w => relFence s w scope none none none))

/-- RELR (R279). -/
def execRelr (g : Grp) (o : OpsF) (s : State) : Host.Outcome State Fault Refusal :=
  issueAs s (.relr g o) (fenceAs false (fun s i o scope w => relFence s w scope (some (fenceRange i o)) none none))

end Sys2Proof.Machine
end

