-- ==== Sys2Proof/Machine/Dispatch.lean ====
section
/-! DEFINITION. One arm for each instruction, operation and event: its meaning. -/

namespace Sys2Proof.Machine

/-- The meaning of an instruction, operation or event. -/
def exec (i : Instr) (s : State) : Host.Outcome State Fault Refusal :=
  match i with
  | .iadd g o => Sys2Proof.Machine.execIadd g o s
  | .isub g o => Sys2Proof.Machine.execIsub g o s
  | .imul g o => Sys2Proof.Machine.execImul g o s
  | .imulh g o => Sys2Proof.Machine.execImulh g o s
  | .imulhu g o => Sys2Proof.Machine.execImulhu g o s
  | .imad g o => Sys2Proof.Machine.execImad g o s
  | .idiv g o => Sys2Proof.Machine.execIdiv g o s
  | .irem g o => Sys2Proof.Machine.execIrem g o s
  | .imin g o => Sys2Proof.Machine.execImin g o s
  | .imax g o => Sys2Proof.Machine.execImax g o s
  | .umin g o => Sys2Proof.Machine.execUmin g o s
  | .umax g o => Sys2Proof.Machine.execUmax g o s
  | .and g o => Sys2Proof.Machine.execAnd g o s
  | .or g o => Sys2Proof.Machine.execOr g o s
  | .xor g o => Sys2Proof.Machine.execXor g o s
  | .andn g o => Sys2Proof.Machine.execAndn g o s
  | .shl g o => Sys2Proof.Machine.execShl g o s
  | .shr g o => Sys2Proof.Machine.execShr g o s
  | .sar g o => Sys2Proof.Machine.execSar g o s
  | .rotl g o => Sys2Proof.Machine.execRotl g o s
  | .bfx g o => Sys2Proof.Machine.execBfx g o s
  | .bfi g o => Sys2Proof.Machine.execBfi g o s
  | .sel g o => Sys2Proof.Machine.execSel g o s
  | .iaddImm g o => Sys2Proof.Machine.execIaddImm g o s
  | .imulImm g o => Sys2Proof.Machine.execImulImm g o s
  | .andImm g o => Sys2Proof.Machine.execAndImm g o s
  | .orImm g o => Sys2Proof.Machine.execOrImm g o s
  | .xorImm g o => Sys2Proof.Machine.execXorImm g o s
  | .shlImm g o => Sys2Proof.Machine.execShlImm g o s
  | .shrImm g o => Sys2Proof.Machine.execShrImm g o s
  | .sarImm g o => Sys2Proof.Machine.execSarImm g o s
  | .movi g o => Sys2Proof.Machine.execMovi g o s
  | .movh g o => Sys2Proof.Machine.execMovh g o s
  | .icmp g o => Sys2Proof.Machine.execIcmp g o s
  | .fadd g o => Sys2Proof.Machine.execFadd g o s
  | .fsub g o => Sys2Proof.Machine.execFsub g o s
  | .fmul g o => Sys2Proof.Machine.execFmul g o s
  | .ffma g o => Sys2Proof.Machine.execFfma g o s
  | .fmin g o => Sys2Proof.Machine.execFmin g o s
  | .fmax g o => Sys2Proof.Machine.execFmax g o s
  | .fcmp g o => Sys2Proof.Machine.execFcmp g o s
  | .mov g o => Sys2Proof.Machine.execMov g o s
  | .not g o => Sys2Proof.Machine.execNot g o s
  | .ineg g o => Sys2Proof.Machine.execIneg g o s
  | .iabs g o => Sys2Proof.Machine.execIabs g o s
  | .popc g o => Sys2Proof.Machine.execPopc g o s
  | .clz g o => Sys2Proof.Machine.execClz g o s
  | .brev g o => Sys2Proof.Machine.execBrev g o s
  | .movs g o => Sys2Proof.Machine.execMovs g o s
  | .fneg g o => Sys2Proof.Machine.execFneg g o s
  | .fabs g o => Sys2Proof.Machine.execFabs g o s
  | .frcp g o => Sys2Proof.Machine.execFrcp g o s
  | .frsq g o => Sys2Proof.Machine.execFrsq g o s
  | .fsqrt g o => Sys2Proof.Machine.execFsqrt g o s
  | .fexp2 g o => Sys2Proof.Machine.execFexp2 g o s
  | .flog2 g o => Sys2Proof.Machine.execFlog2 g o s
  | .fsin g o => Sys2Proof.Machine.execFsin g o s
  | .fcos g o => Sys2Proof.Machine.execFcos g o s
  | .ftanh g o => Sys2Proof.Machine.execFtanh g o s
  | .ffloor g o => Sys2Proof.Machine.execFfloor g o s
  | .fceil g o => Sys2Proof.Machine.execFceil g o s
  | .frint g o => Sys2Proof.Machine.execFrint g o s
  | .fcvti g o => Sys2Proof.Machine.execFcvti g o s
  | .icvtf g o => Sys2Proof.Machine.execIcvtf g o s
  | .fclass g o => Sys2Proof.Machine.execFclass g o s
  | .rand g o => Sys2Proof.Machine.execRand g o s
  | .matchLanes g o => Sys2Proof.Machine.execMatchLanes g o s
  | .sadd g o => Sys2Proof.Machine.execSadd g o s
  | .ssub g o => Sys2Proof.Machine.execSsub g o s
  | .smul g o => Sys2Proof.Machine.execSmul g o s
  | .sand g o => Sys2Proof.Machine.execSand g o s
  | .sor g o => Sys2Proof.Machine.execSor g o s
  | .sxor g o => Sys2Proof.Machine.execSxor g o s
  | .sshl g o => Sys2Proof.Machine.execSshl g o s
  | .sshr g o => Sys2Proof.Machine.execSshr g o s
  | .ssar g o => Sys2Proof.Machine.execSsar g o s
  | .smov g o => Sys2Proof.Machine.execSmov g o s
  | .srdl g o => Sys2Proof.Machine.execSrdl g o s
  | .scmp g o => Sys2Proof.Machine.execScmp g o s
  | .smovi g o => Sys2Proof.Machine.execSmovi g o s
  | .smovh g o => Sys2Proof.Machine.execSmovh g o s
  | .sld g o => Sys2Proof.Machine.execSld g o s
  | .sst g o => Sys2Proof.Machine.execSst g o s
  | .ladd g o => Sys2Proof.Machine.execLadd g o s
  | .lsub g o => Sys2Proof.Machine.execLsub g o s
  | .ladc g o => Sys2Proof.Machine.execLadc g o s
  | .lmuls g o => Sys2Proof.Machine.execLmuls g o s
  | .lshl g o => Sys2Proof.Machine.execLshl g o s
  | .lshr g o => Sys2Proof.Machine.execLshr g o s
  | .lcmp g o => Sys2Proof.Machine.execLcmp g o s
  | .lneg g o => Sys2Proof.Machine.execLneg g o s
  | .mand g o => Sys2Proof.Machine.execMand g o s
  | .mor g o => Sys2Proof.Machine.execMor g o s
  | .mxor g o => Sys2Proof.Machine.execMxor g o s
  | .mnot g o => Sys2Proof.Machine.execMnot g o s
  | .mmov g o => Sys2Proof.Machine.execMmov g o s
  | .mrd g o => Sys2Proof.Machine.execMrd g o s
  | .mpopc g o => Sys2Proof.Machine.execMpopc g o s
  | .mffs g o => Sys2Proof.Machine.execMffs g o s
  | .xrd g o => Sys2Proof.Machine.execXrd g o s
  | .xbfly g o => Sys2Proof.Machine.execXbfly g o s
  | .xbcast g o => Sys2Proof.Machine.execXbcast g o s
  | .xup g o => Sys2Proof.Machine.execXup g o s
  | .xdn g o => Sys2Proof.Machine.execXdn g o s
  | .ld g o => Sys2Proof.Machine.execLd g o s
  | .ldByte g o => Sys2Proof.Machine.execLdByte g o s
  | .lda g o => Sys2Proof.Machine.execLda g o s
  | .st g o => Sys2Proof.Machine.execSt g o s
  | .str g o => Sys2Proof.Machine.execStr g o s
  | .stf g o => Sys2Proof.Machine.execStf g o s
  | .ldl g o => Sys2Proof.Machine.execLdl g o s
  | .stl g o => Sys2Proof.Machine.execStl g o s
  | .atomAdd g o => Sys2Proof.Machine.execAtomAdd g o s
  | .atomAnd g o => Sys2Proof.Machine.execAtomAnd g o s
  | .atomOr g o => Sys2Proof.Machine.execAtomOr g o s
  | .atomXor g o => Sys2Proof.Machine.execAtomXor g o s
  | .atomMin g o => Sys2Proof.Machine.execAtomMin g o s
  | .atomMax g o => Sys2Proof.Machine.execAtomMax g o s
  | .atomUmin g o => Sys2Proof.Machine.execAtomUmin g o s
  | .atomUmax g o => Sys2Proof.Machine.execAtomUmax g o s
  | .atomXchg g o => Sys2Proof.Machine.execAtomXchg g o s
  | .atomCas g o => Sys2Proof.Machine.execAtomCas g o s
  | .atomFadd g o => Sys2Proof.Machine.execAtomFadd g o s
  | .atomSub g o => Sys2Proof.Machine.execAtomSub g o s
  | .atomlAdd g o => Sys2Proof.Machine.execAtomlAdd g o s
  | .atomlAnd g o => Sys2Proof.Machine.execAtomlAnd g o s
  | .atomlOr g o => Sys2Proof.Machine.execAtomlOr g o s
  | .atomlXor g o => Sys2Proof.Machine.execAtomlXor g o s
  | .atomlMin g o => Sys2Proof.Machine.execAtomlMin g o s
  | .atomlMax g o => Sys2Proof.Machine.execAtomlMax g o s
  | .atomlUmin g o => Sys2Proof.Machine.execAtomlUmin g o s
  | .atomlUmax g o => Sys2Proof.Machine.execAtomlUmax g o s
  | .atomlXchg g o => Sys2Proof.Machine.execAtomlXchg g o s
  | .atomlCas g o => Sys2Proof.Machine.execAtomlCas g o s
  | .atomlFadd g o => Sys2Proof.Machine.execAtomlFadd g o s
  | .atomlSub g o => Sys2Proof.Machine.execAtomlSub g o s
  | .cpy16 g o => Sys2Proof.Machine.execCpy16 g o s
  | .fence g o => Sys2Proof.Machine.execFence g o s
  | .fencer g o => Sys2Proof.Machine.execFencer g o s
  | .acq g o => Sys2Proof.Machine.execAcq g o s
  | .acqr g o => Sys2Proof.Machine.execAcqr g o s
  | .rel g o => Sys2Proof.Machine.execRel g o s
  | .relr g o => Sys2Proof.Machine.execRelr g o s
  | .bra g o => Sys2Proof.Machine.execBra g o s
  | .call g o => Sys2Proof.Machine.execCall g o s
  | .brx g o => Sys2Proof.Machine.execBrx g o s
  | .callx g o => Sys2Proof.Machine.execCallx g o s
  | .ret g o => Sys2Proof.Machine.execRet g o s
  | .exit g o => Sys2Proof.Machine.execExit g o s
  | .fuse g o => Sys2Proof.Machine.execFuse g o s
  | .yield g o => Sys2Proof.Machine.execYield g o s
  | .trap g o => Sys2Proof.Machine.execTrap g o s
  | .tret g o => Sys2Proof.Machine.execTret g o s
  | .brk g o => Sys2Proof.Machine.execBrk g o s
  | .lbind g o => Sys2Proof.Machine.execLbind g o s
  | .lfree g o => Sys2Proof.Machine.execLfree g o s
  | .nop g o => Sys2Proof.Machine.execNop g o s
  | .tspawn g o => Sys2Proof.Machine.execTspawn g o s
  | .tsync g o => Sys2Proof.Machine.execTsync g o s
  | .pgrd g o => Sys2Proof.Machine.execPgrd g o s
  | .pgkey g o => Sys2Proof.Machine.execPgkey g o s
  | .palloc g o => Sys2Proof.Machine.execPalloc g o s
  | .tlog g o => Sys2Proof.Machine.execTlog g o s
  | .qemit g o => Sys2Proof.Machine.execQemit g o s
  | .qread g o => Sys2Proof.Machine.execQread g o s
  | .rdecl g o => Sys2Proof.Machine.execRdecl g o s
  | .rupd g o => Sys2Proof.Machine.execRupd g o s
  | .rget g o => Sys2Proof.Machine.execRget g o s
  | .cpy g o => Sys2Proof.Machine.execCpy g o s
  | .cpymx g o => Sys2Proof.Machine.execCpymx g o s
  | .cpynb g o => Sys2Proof.Machine.execCpynb g o s
  | .cseal g o => Sys2Proof.Machine.execCseal g o s
  | .cwaitb g o => Sys2Proof.Machine.execCwaitb g o s
  | .synci g o => Sys2Proof.Machine.execSynci g o s
  | .synca g o => Sys2Proof.Machine.execSynca g o s
  | .syncw g o => Sys2Proof.Machine.execSyncw g o s
  | .synct g o => Sys2Proof.Machine.execSynct g o s
  | .ringi g o => Sys2Proof.Machine.execRingi g o s
  | .rawait g o => Sys2Proof.Machine.execRawait g o s
  | .rrel g o => Sys2Proof.Machine.execRrel g o s
  | .tidset g o => Sys2Proof.Machine.execTidset g o s
  | .cbload g o => Sys2Proof.Machine.execCbload g o s
  | .mxls g o => Sys2Proof.Machine.execMxls g o s
  | .mxswap g o => Sys2Proof.Machine.execMxswap g o s
  | .mxstr g o => Sys2Proof.Machine.execMxstr g o s
  | .mxzero g o => Sys2Proof.Machine.execMxzero g o s
  | .mxrd g o => Sys2Proof.Machine.execMxrd g o s
  | .mxwr g o => Sys2Proof.Machine.execMxwr g o s
  | .mxst g o => Sys2Proof.Machine.execMxst g o s
  | .mxflags g o => Sys2Proof.Machine.execMxflags g o s
  | .tstamp g o => Sys2Proof.Machine.execTstamp g o s
  | .ppoint g o => Sys2Proof.Machine.execPpoint g o s
  | .csrr g o => Sys2Proof.Machine.execCsrr g o s
  | .csrw g o => Sys2Proof.Machine.execCsrw g o s
  | .time g o => Sys2Proof.Machine.execTime g o s
  | .bbc g o => Sys2Proof.Machine.execBbc g o s
  | .migrate g o => Sys2Proof.Machine.execMigrate g o s
  | .iaddC o => Sys2Proof.Machine.execIaddC o s
  | .isubC o => Sys2Proof.Machine.execIsubC o s
  | .imulC o => Sys2Proof.Machine.execImulC o s
  | .andC o => Sys2Proof.Machine.execAndC o s
  | .orC o => Sys2Proof.Machine.execOrC o s
  | .xorC o => Sys2Proof.Machine.execXorC o s
  | .shlC o => Sys2Proof.Machine.execShlC o s
  | .shrC o => Sys2Proof.Machine.execShrC o s
  | .sarC o => Sys2Proof.Machine.execSarC o s
  | .movC o => Sys2Proof.Machine.execMovC o s
  | .faddC o => Sys2Proof.Machine.execFaddC o s
  | .fsubC o => Sys2Proof.Machine.execFsubC o s
  | .fmulC o => Sys2Proof.Machine.execFmulC o s
  | .fminC o => Sys2Proof.Machine.execFminC o s
  | .fmaxC o => Sys2Proof.Machine.execFmaxC o s
  | .iminC o => Sys2Proof.Machine.execIminC o s
  | .nopC => Sys2Proof.Machine.execNopC s
  | .yieldC => Sys2Proof.Machine.execYieldC s
  | .wait flags => Sys2Proof.Machine.execWait flags s
  | .powerInputValid => Sys2Proof.Machine.execPowerInputValid s
  | .resetRelease => Sys2Proof.Machine.execResetRelease s
  | .selfTestDone pass => Sys2Proof.Machine.execSelfTestDone pass s
  | .powerRemoved => Sys2Proof.Machine.execPowerRemoved s
  | .thermalTrip socket => Sys2Proof.Machine.execThermalTrip socket s
  | .thermalWarning socket temp => Sys2Proof.Machine.execThermalWarning socket temp s
  | .powerCapExceeded watts => Sys2Proof.Machine.execPowerCapExceeded watts s
  | .energyInterval samples => Sys2Proof.Machine.execEnergyInterval samples s
  | .temperatureReport temps power => Sys2Proof.Machine.execTemperatureReport temps power s
  | .claimNonceExpiry port conn => Sys2Proof.Machine.execClaimNonceExpiry port conn s
  | .handoverTimeout => Sys2Proof.Machine.execHandoverTimeout s
  | .openConn m => Sys2Proof.Machine.execOpenConn m s
  | .close m => Sys2Proof.Machine.execClose m s
  | .regread m => Sys2Proof.Machine.execRegread m s
  | .regwrite m => Sys2Proof.Machine.execRegwrite m s
  | .featacceptWrite m => Sys2Proof.Machine.execFeatacceptWrite m s
  | .islandGo m => Sys2Proof.Machine.execIslandGo m s
  | .islandTransitionDone island => Sys2Proof.Machine.execIslandTransitionDone island s
  | .portEnable m => Sys2Proof.Machine.execPortEnable m s
  | .portDisable m => Sys2Proof.Machine.execPortDisable m s
  | .debugRegisterWrite m => Sys2Proof.Machine.execDebugRegisterWrite m s
  | .claim m => Sys2Proof.Machine.execClaim m s
  | .handover m => Sys2Proof.Machine.execHandover m s
  | .release m => Sys2Proof.Machine.execRelease m s
  | .cancel m => Sys2Proof.Machine.execCancel m s
  | .reset m => Sys2Proof.Machine.execReset m s
  | .attest m => Sys2Proof.Machine.execAttest m s
  | .fwStage m => Sys2Proof.Machine.execFwStage m s
  | .fwActivate m => Sys2Proof.Machine.execFwActivate m s
  | .fwAdvance m => Sys2Proof.Machine.execFwAdvance m s
  | .spare m => Sys2Proof.Machine.execSpare m s
  | .coreFailure core => Sys2Proof.Machine.execCoreFailure core s
  | .uncorrectableSoftError site => Sys2Proof.Machine.execUncorrectableSoftError site s
  | .patrolScrub report => Sys2Proof.Machine.execPatrolScrub report s
  | .invalidate m => Sys2Proof.Machine.execInvalidate m s
  | .invalidateDieDone op die => Sys2Proof.Machine.execInvalidateDieDone op die s
  | .multicastAck op dest => Sys2Proof.Machine.execMulticastAck op dest s
  | .multicastResidualSend op dests => Sys2Proof.Machine.execMulticastResidualSend op dests s
  | .resolve m => Sys2Proof.Machine.execResolve m s
  | .unresolvable m => Sys2Proof.Machine.execUnresolvable m s
  | .build m => Sys2Proof.Machine.execBuild m s
  | .run m => Sys2Proof.Machine.execRun m s
  | .preempt m => Sys2Proof.Machine.execPreempt m s
  | .resume m => Sys2Proof.Machine.execResume m s
  | .teardown m => Sys2Proof.Machine.execTeardown m s
  | .teardownDone ctx => Sys2Proof.Machine.execTeardownDone ctx s
  | .slicePreemption ctx => Sys2Proof.Machine.execSlicePreemption ctx s
  | .preemptForce ctx warp => Sys2Proof.Machine.execPreemptForce ctx warp s
  | .warpPreemptStop ctx warp => Sys2Proof.Machine.execWarpPreemptStop ctx warp s
  | .preemptComplete ctx => Sys2Proof.Machine.execPreemptComplete ctx s
  | .deferredCauseDelivery ctx warp => Sys2Proof.Machine.execDeferredCauseDelivery ctx warp s
  | .strandTable ctx => Sys2Proof.Machine.execStrandTable ctx s
  | .qCreate m => Sys2Proof.Machine.execQCreate m s
  | .qReset m => Sys2Proof.Machine.execQReset m s
  | .qDestroy m => Sys2Proof.Machine.execQDestroy m s
  | .queueDestroyDone queue => Sys2Proof.Machine.execQueueDestroyDone queue s
  | .loadGraph m => Sys2Proof.Machine.execLoadGraph m s
  | .unloadGraph m => Sys2Proof.Machine.execUnloadGraph m s
  | .setTid m => Sys2Proof.Machine.execSetTid m s
  | .setFabwin m => Sys2Proof.Machine.execSetFabwin m s
  | .setSafept m => Sys2Proof.Machine.execSetSafept m s
  | .setBbc m => Sys2Proof.Machine.execSetBbc m s
  | .setRing m => Sys2Proof.Machine.execSetRing m s
  | .halt m => Sys2Proof.Machine.execHalt m s
  | .dresume m => Sys2Proof.Machine.execDresume m s
  | .step m => Sys2Proof.Machine.execStep m s
  | .readWarp m => Sys2Proof.Machine.execReadWarp m s
  | .writeWarp m => Sys2Proof.Machine.execWriteWarp m s
  | .read m => Sys2Proof.Machine.execRead m s
  | .write m => Sys2Proof.Machine.execWrite m s
  | .writeRel m => Sys2Proof.Machine.execWriteRel m s
  | .atomic m => Sys2Proof.Machine.execAtomic m s
  | .trigger m => Sys2Proof.Machine.execTrigger m s
  | .completion m => Sys2Proof.Machine.execCompletion m s
  | .retransmitTimeout port conn => Sys2Proof.Machine.execRetransmitTimeout port conn s
  | .portTrainingDone port good => Sys2Proof.Machine.execPortTrainingDone port good s
  | .portTrainingTimeout port => Sys2Proof.Machine.execPortTrainingTimeout port s
  | .portRetrain port => Sys2Proof.Machine.execPortRetrain port s
  | .laneFailure port lane => Sys2Proof.Machine.execLaneFailure port lane s
  | .laneRestore port good => Sys2Proof.Machine.execLaneRestore port good s
  | .pisteBeatCrcFail die src dst => Sys2Proof.Machine.execPisteBeatCrcFail die src dst s
  | .packetAccept queue => Sys2Proof.Machine.execPacketAccept queue s
  | .instanceStart ctx graph => Sys2Proof.Machine.execInstanceStart ctx graph s
  | .launchComplete launch => Sys2Proof.Machine.execLaunchComplete launch s
  | .recordArrival record => Sys2Proof.Machine.execRecordArrival record s
  | .completionRecordWrite queue => Sys2Proof.Machine.execCompletionRecordWrite queue s
  | .blockGrant launch cores => Sys2Proof.Machine.execBlockGrant launch cores s
  | .grantWaitExpiry launch => Sys2Proof.Machine.execGrantWaitExpiry launch s
  | .taskDispatch core slot victim => Sys2Proof.Machine.execTaskDispatch core slot victim s
  | .taskComplete ctx task => Sys2Proof.Machine.execTaskComplete ctx task s
  | .tagClearAck ctx tag slice => Sys2Proof.Machine.execTagClearAck ctx tag slice s
  | .viewMerge ctx parent => Sys2Proof.Machine.execViewMerge ctx parent s
  | .viewMergeDone ctx parent => Sys2Proof.Machine.execViewMergeDone ctx parent s
  | .rupdApply ctx warp => Sys2Proof.Machine.execRupdApply ctx warp s
  | .registerRefill ctx warp => Sys2Proof.Machine.execRegisterRefill ctx warp s
  | .loadDataLands ctx warp op evict => Sys2Proof.Machine.execLoadDataLands ctx warp op evict s
  | .sfuResultLands ctx warp op => Sys2Proof.Machine.execSfuResultLands ctx warp op s
  | .longResultLands ctx warp op => Sys2Proof.Machine.execLongResultLands ctx warp op s
  | .atomicResultLands ctx warp op => Sys2Proof.Machine.execAtomicResultLands ctx warp op s
  | .releaseActionDone ctx warp => Sys2Proof.Machine.execReleaseActionDone ctx warp s
  | .sliceRead msg evict => Sys2Proof.Machine.execSliceRead msg evict s
  | .registrationRequest msg evict => Sys2Proof.Machine.execRegistrationRequest msg evict s
  | .grant msg => Sys2Proof.Machine.execGrant msg s
  | .revocation msg => Sys2Proof.Machine.execRevocation msg s
  | .revocationAnswer msg => Sys2Proof.Machine.execRevocationAnswer msg s
  | .forwardedRead msg => Sys2Proof.Machine.execForwardedRead msg s
  | .forwardedReadAnswer msg => Sys2Proof.Machine.execForwardedReadAnswer msg s
  | .writeBack msg => Sys2Proof.Machine.execWriteBack msg s
  | .sliceAtomic msg => Sys2Proof.Machine.execSliceAtomic msg s
  | .checkRequest msg => Sys2Proof.Machine.execCheckRequest msg s
  | .tlbMissRequest core ctx page => Sys2Proof.Machine.execTlbMissRequest core ctx page s
  | .pageWalkDone ctx page => Sys2Proof.Machine.execPageWalkDone ctx page s
  | .translationRefusalRetry core ctx page => Sys2Proof.Machine.execTranslationRefusalRetry core ctx page s
  | .faultBufferRetry die => Sys2Proof.Machine.execFaultBufferRetry die s
  | .collapseNotice op die => Sys2Proof.Machine.execCollapseNotice op die s
  | .collapseAck op die => Sys2Proof.Machine.execCollapseAck op die s
  | .collapseComplete op => Sys2Proof.Machine.execCollapseComplete op s
  | .migrateDepart ctx warp => Sys2Proof.Machine.execMigrateDepart ctx warp s
  | .migrateLand ctx warp => Sys2Proof.Machine.execMigrateLand ctx warp s
  | .migrateSettle ctx warp => Sys2Proof.Machine.execMigrateSettle ctx warp s
  | .syncaArrival ctx warp op => Sys2Proof.Machine.execSyncaArrival ctx warp op s
  | .copyChunkLands copy chunk => Sys2Proof.Machine.execCopyChunkLands copy chunk s
  | .cpy16LaneLands copy => Sys2Proof.Machine.execCpy16LaneLands copy s
  | .matrixCommandStart ctx block => Sys2Proof.Machine.execMatrixCommandStart ctx block s
  | .matrixCommandDone ctx block cmd => Sys2Proof.Machine.execMatrixCommandDone ctx block cmd s
  | .sampleMark ctx core => Sys2Proof.Machine.execSampleMark ctx core s
  | .sampleRecord ctx warp => Sys2Proof.Machine.execSampleRecord ctx warp s
  | .sampleMarkDrop ctx warp => Sys2Proof.Machine.execSampleMarkDrop ctx warp s
  | .illegalEncoding e => Sys2Proof.Machine.execIllegalEncoding e s
  | .completionQueueRdWrite m => Sys2Proof.Machine.execCompletionQueueRdWrite m s
  | .acquireActionDone ctx warp => Sys2Proof.Machine.execAcquireActionDone ctx warp s
  | .scratchpadWriteDone ctx block => Sys2Proof.Machine.execScratchpadWriteDone ctx block s

end Sys2Proof.Machine
end

