-- ==== Sys2Proof/Machine/Cycle.lean ====
section
/-! DEFINITION. One step of the machine: the group that goes on with a latch chain, an entry of the agenda, the issue of the warp
whose turn it is, or an event of the machine's own agents; then what follows at once (04_thread.md R113 to R118; 05_register.md
R154; 11_issue.md R230 to R243; 27_debug.md R521). Which agent acts when is the model's own (assumption 2). -/

namespace Sys2Proof.Machine

/-! ## Issuing a group -/

/-- Issues an instruction for a split of a warp; `pre` for the second of a pair (R118). -/
def issueFor (s : State) (c n : Nat) (split : LaneMask) (pre : Option Regs) (i : Instr) : State :=
  match exec i { s with issue := some ⟨c, n, split, pre⟩ } with
  | .next t => t
  | _ => s

/-- Issues a group that the decoder refuses (R99, R100). -/
def issueBad (s : State) (c n : Nat) (split : LaneMask) (e : BadGroup) : State :=
  match execIllegalEncoding e { s with issue := some ⟨c, n, split, none⟩ } with
  | .next t => t
  | _ => s

/-- A group that may stand only as a chain's last member, followed by one of its split that reads a latch (R154 rules 3, 5 and 6):
LATCH_CHAIN at the second, with nothing of the chain done. `t` is the machine after the first. -/
def overrun (s : State) (w : Warp) (t : State) : Option State :=
  match (warpFind t w.ctx w.num).bind (fun v => v.chain.map (fun ch => (v, ch))) with
  | none => none
  | some (v, ch) =>
    if !ch.closed || w.stepSet.isSome then none
    else
      match (lanesOf (ch.split &&& readyLanes v)).head? with
      | none => none
      | some l =>
        match groupNext s v (splitOf v l) with
        | .group (.ok j) =>
          if (shapeOf j).all (fun sh => (latchReads sh.code).isEmpty) then none
          else
            let fresh : Chain := { ch with snap := w.regs, members := [], luskip := 0, bbc := [], snapPend := w.pend.map (fun p => (p.id, p.overtaken, p.release)) }
            let head : Chain := if ch.len = 1 then fresh else { w.chain.getD fresh with closed := true }
            some (issueFor (setWarp s { w with chain := some head, pc := v.pc, depth := v.depth, rep := v.rep }) w.ctx w.num (splitOf v l) none j)
        | _ => none

/-- Whether the first of a pair has completed, so that the second issues with it (R118). -/
def completed (w v : Warp) : Bool := v.chain.isSome && v.trapping.isNone && v.inHandler == w.inHandler

/-- Issues the next group of a split, and with it the second of a pair (R113, R117, R118); where only the second is held or faults, the first
has issued all the same. -/
def issueGroup (s : State) (w : Warp) (split : LaneMask) : State :=
  match groupNext s w split with
  | .absent lv va => fetchAbsent s w lv va
  | .miss page => fetchMiss s w page
  | .cause k => fetchCause s w split k
  | .group (.error e) => issueBad s w.ctx w.num split e
  | .group (.ok i) =>
    let t := issueFor s w.ctx w.num split none i
    match t.issue, warpFind t w.ctx w.num with
    | none, some v =>
      if completed w v then
        match overrun s w t, secondOf s w split i v.now with
        | some u, _ => u
        | none, some (q, j) => { issueFor t w.ctx w.num q (some (prepared s w split i)) j with issue := none }
        | none, none => t
      else t
    | _, _ => t

/-- The next issue of a warp: a deferred cause (R316) or a sample (R518) goes before it. -/
def issueWarp (s : State) (w : Warp) : State :=
  if !w.deferred.isEmpty && mayDeliver s w then
    (dueDeferredCauseDelivery w.ctx w.num s).getD s
  else if w.marked && running w && atStopSite s w then
    (dueSampleRecord w.ctx w.num s).getD s
  else
    match chosenSplit s w with
    | some p => issueGroup s w p
    | none => s

/-- Whether an issue was held, so that nothing has changed for the others. -/
def held (t : State) : Bool := t.issue.isSome

/-- Whether a slot has issued a group between two states. -/
def hasIssued (s t : State) (slot : Nat) : Bool := clockOf t slot != clockOf s slot

/-- One slot issues, in the next cycle in which one of its warps is eligible (R232, R240 to R244). -/
def serveSlot (s : State) (slot : Nat) : Option State :=
  let ws := candidates s slot
  let cycle := nextCycle s slot ws
  let ws := ws.filter (fun w => decide (dueAt s w ≤ cycle))
  let s := idleTo s slot cycle
  match choose s slot ws with
  | none => none
  | some w =>
    let t := issueWarp { s with slotNow := slot + 1 } w
    some (if held t then { t with issue := none } else if hasIssued s t slot then passOver (wake t) slot w ws else wake t)

/-- The slots take turns; the record of a slot with nothing to issue is cleared (R240). (assumption 102, DEDUCED) -/
def serveNext (s : State) : Option State :=
  let xs := readySlots s
  match nextSlot s xs with
  | none => none
  | some slot => serveSlot { s with lastWarp := s.lastWarp.filter (fun r => xs.contains r.1) } slot

/-! ## A step -/

/-- An entry of the agenda. -/
def act (s : State) (a : Act) : Option State :=
  match a with
  | .ev i => (match exec i s with | .next t => some (wake { t with issue := none }) | _ => none)
  | .issue slot => serveSlot s slot

/-- The warp that goes on with its latch chain before anything else (R154 rule 4). -/
def chained (s : State) : Option Warp := s.warps.find? (fun w => inChain s w && w.holds.isEmpty && !w.desched)

/-- The machine's own agents: an issue or an event, by turns, the other when the one has nothing. -/
def ownStep (s : State) : State :=
  let ev := (nextEvent s).map wake
  (if s.turn then ev.or (serveNext s) else (serveNext s).or ev).getD (wake s)

/-- What a step does, before what follows at once. -/
def body (s : State) : State :=
  match chained s with
  | some w =>
    let t := issueWarp s w
    if held t then { t with issue := none } else wake t
  | none =>
    match s.agenda with
    | a :: rest => (act { s with agenda := rest } a).getD { s with agenda := rest }
    | [] => ownStep s

/-- What follows at once, and the time that passes (R521). -/
def finish (s t : State) : State :=
  let t := settle { t with issue := none }
  { t with tick := s.tick + 1, turn := !s.turn, tb := t.tb + .ofNat 64 (Config.ticks s.tick) }

/-- A step of the machine. -/
def cycle (s : State) : State := finish s (body s)

end Sys2Proof.Machine
end

