-- ==== Sys2Proof/Machine/Boot.lean ====
section
/-! DEFINITION. A machine about to issue a given group: what the owner, the Ringmaster and the loader do before a program's
first group issues (01_device.md R16, R24; 15_context.md R306; 17_kernel.md R346; 18_group.md R350 to R358; assumption 10). -/

namespace Sys2Proof.Machine

/-- The physical address of the code, and its virtual address. -/
def bootPa : Nat := 2 ^ 51 + 0x100000
def bootVa : Nat := 0x100000

/-- A leaf of 1 GiB, readable, writable, executable and cacheable, homed on die 0 (R285). -/
def bootLeaf : BitVec 64 := 0x030800000000001F

/-- Context 0 while it runs. -/
def bootCtx : Ctx :=
  { st := .running, codebase := .ofNat 64 bootVa, trapvec := 0x200000, trapctl := 0, framebase := 0x10000000, savebase := 0x20000000
    ptroot := .ofNat 64 (2 ^ 51 + 0x1000), ctxlim := .ofNat 64 (16 * 2 ^ 32 + 64), regback := 0x18000000, arena := 0x30000000
    raceEn := true
    bp := List.replicate 8 0, wpbase := List.replicate 8 0, wpctl := List.replicate 8 0
    roots := [(0, { ped := [0], st := 1 })] }

/-- One block of one warp with tiles and a scratchpad. -/
def bootBlock : Block :=
  { scrLen := 65536, tiles := 4, tile := List.replicate 4 {}, warps := [0], liveWarps := 1, launch := 0 }

/-- Its warp: 32 lanes at code offset 0. -/
def bootWarp : Warp :=
  { newWarp bootCtx 0 0 0 0 with blk := some 0, task := some 0, stream := true, age := ⟨0, false, 0⟩ }

/-- Its root task, its launch, the run that formed it, the queue of its record. -/
def bootTask : Task := { id := 0, ctx := 0, launch := 0, st := .running, warp := some 0 }
def bootLaunch : Launch := { id := 0, ctx := 0, inst := 0, node := 0, seq := 0, key := 0, dies := [0], next := 1, liveBlocks := 1, rootsOpen := 1 }

/-- A machine that issues the group of some bytes next. -/
def booted (s : State) (bs : List Byte) : State :=
  { s with
    dev := .owned, featAccept := 0x1FF, featWritten := true
    ctxs := setAt {} s.ctxs 0 bootCtx
    warps := [bootWarp], blocks := [bootBlock], tasks := [bootTask], launches := [bootLaunch]
    tlb := [⟨0, 0, 0, 30, bootLeaf⟩]
    mem := memWrite s.mem bootPa bs
    agenda := [], turn := false, issue := none
    fresh := max s.fresh 1 }

end Sys2Proof.Machine
end

