-- ==== Sys2Proof/Machine/Step.lean ====
section
/-! DEFINITION. The step of the machine, and a state about to issue a given instruction. -/

namespace Sys2Proof.Machine

/-- One step. It always answers a next state: what a program does wrong is an exception of the hardware, and a message or event
that is not due changes nothing. -/
def step (s : State) : Host.Outcome State Fault Refusal := .next (cycle s)

/-- A state whose next step fetches, decodes and issues the instruction of a word of the opcode table (assumption 10). (assumption 10, DESIGN CHOICE) -/
def State.withFetchWord (s : State) (nbits w : Nat) : State := booted s (leBytes 12 (w % 2 ^ nbits))

end Sys2Proof.Machine
end

