-- ==== Sys2Proof/Safety.lean ====
section
/-! DEFINITION. What a safe run is, and the terms in which statements speak of one instruction: that it issues, that it completes,
what it leaves in its warp's registers and what it leaves alone. -/

namespace Sys2Proof

/-- What every state of a run keeps: memory and every block's scratchpad are in canonical form. -/
def Safe (s : Machine.State) : Prop :=
  Machine.Memory.wf s.mem = true ∧ ∀ b ∈ s.blocks, Machine.Memory.wf b.scr = true

/-- A run of n steps that never stops. -/
def runs : Nat → Machine.State → Option Machine.State
  | 0, s => some s
  | n + 1, s =>
    match Machine.step s with
    | .next t => runs n t
    | _ => none

namespace Machine

/-! ## Issuing -/

/-- The instruction issues in s: an issue names its warp and split; the group meets none of the causes of R524 1 to 6 and no
hold of R228; the registers that it names are ready (R144 to R147), which leaves s1; x is the issue as it then stands. -/
def Issued (i : Instr) (s : State) (sh : Shape) (s1 : State) (x : Iss) : Prop :=
  ∃ p w w2, s.issue = some p ∧ warpFind s p.ctx p.warp = some w ∧ shapeOf i = some sh ∧
    firstCause s (issOf s p sh (atIssue s p w sh)) sh true = none ∧
    longHold (issOf s p sh (atIssue s p w sh)) = false ∧
    operandsReady s sh.code (issOf s p sh (atIssue s p w sh)) = .ok s1 w2 ∧
    x = issOf s1 p sh (syncSnap w2)

/-- The registers to which an issue's effects apply: the warp's, or in a latch chain what the chain's members so far leave of those
before it (R154 rule 5). -/
def basis (x : Iss) : Regs :=
  match x.chained, x.w.chain with
  | true, some ch => applyMembers { x.w.regs with v := ch.snap.v, order := ch.snap.order, s := ch.snap.s } ch.members
  | _, _ => x.w.regs

/-- The vector registers that the group's last-use bits release now: not those whose result is still out (R140, R141). -/
def freedV (sh : Shape) (x : Iss) : List Nat := (releasedV sh.code x).filter (fun n => !(outstanding x.w n))

/-! ## Completing -/

/-- What the group has left of its warp's registers: the warp w' stands in t and no issue is in progress; vector registers but
`dv`, scalar registers but `ds` and masks but `dm` are as before, last-use releases apart; FLAGS gained `fl`. -/
structure Leaves (sh : Shape) (x : Iss) (t : State) (w' : Warp) (dv ds dm : List Nat) (fl : BitVec 32) : Prop where
  found : warpFind t x.w.ctx x.w.num = some w'
  done : t.issue = none
  vector : ∀ n, n ∉ dv → vEntry w'.regs n = if n ∈ freedV sh x then {} else vEntry (basis x) n
  scalar : ∀ n, n ∉ ds → sGet w'.regs n = if n ∈ releasedS sh.code x then 0 else sGet (basis x) n
  mask : ∀ n, n ∉ dm → mGet w'.regs n = mGet x.w.regs n
  flags : w'.regs.flags = x.w.regs.flags ||| fl

/-- Each lane of the split stands past the group, or at its next repetition; every other lane where it stood (R92, R113). -/
structure Steps (x : Iss) (w' : Warp) : Prop where
  pc : ∀ l, l < 32 → getAt 0 w'.pc l =
    if laneBit x.split l = true ∧ x.last = true then getAt 0 x.w.pc l + .ofNat 32 x.len else getAt 0 x.w.pc l
  rep : ∀ l, l < 32 → getAt 0 w'.rep l =
    if laneBit x.split l = true then (if x.last = true then 0 else .ofNat 6 (x.j + 1)) else getAt 0 x.w.rep l

/-- The group has issued and completed: registers and PC as `Leaves` and `Steps` say; memory, scratchpads, tasks, copies and
views are as they were. -/
structure Completes (sh : Shape) (x : Iss) (s1 t : State) (w' : Warp) (dv ds dm : List Nat) (fl : BitVec 32) : Prop
    extends Leaves sh x t w' dv ds dm fl, Steps x w' where
  memory : ∀ a, cohByte t a = cohByte s1 a
  scratch : t.blocks = s1.blocks
  others : t.tasks = s1.tasks ∧ t.copies = s1.copies ∧ t.views = s1.views

/-- What a group that writes no such state leaves of its warp: call depths, EXITED, the binding and CARRYX, the completion flags,
the strand tag, the open batch, the private window, the draw counter. -/
structure KeepsRest (x : Iss) (w' : Warp) : Prop where
  depth : w'.depth = x.w.depth
  exited : w'.exited = x.w.exited
  limbst : w'.limbst = x.w.limbst
  carryx : w'.carryx = x.w.carryx
  counts : w'.f = x.w.f
  tag : w'.tag = x.w.tag
  openb : w'.openb = x.w.openb
  window : w'.privbase = x.w.privbase ∧ w'.stackMax = x.w.stackMax ∧ w'.stackLim = x.w.stackLim
  draw : w'.regs.draw = x.w.regs.draw

/-- The result of a lane instruction (R139, R142, R153, R155): in the lanes written f, or zero outside ACTIVE; in the others what the
register held, or zero where it was not MAPPED or is released by the same group; code 60 writes the latches only. -/
structure LaneResult (sh : Shape) (x : Iss) (w' : Warp) (d : BitVec 6) (f : Nat → Word) : Prop where
  mapped : d ≠ 60 → (vEntry w'.regs d.toNat).st = .mapped
  lanes : d ≠ 60 → ∀ l, l < 32 → lane (vGet w'.regs d.toNat) l =
    if laneBit x.written l = true then (if laneBit x.act l = true then f l else 0)
    else if d.toNat ∈ releasedV sh.code x then 0 else lane (vGet (basis x) d.toNat) l
  latch : ∀ l, laneBit x.written l = true → lane (getAt [] w'.x 0) l = if laneBit x.act l = true then f l else 0

/-- An operation that completes later is out after the issue (R137, R140): it is the newest of the warp, born in the issue's cycle (R234), under a fresh number;
nothing has overtaken it; its flag counts one more, or the warp is held for it; its destination is MAPPED and reads as before. -/
structure GoesOut (sh : Shape) (x : Iss) (s1 : State) (w' : Warp) (op : POp) : Prop where
  out : w'.pend.getLast? = some { op with born := x.w.now }
  fresh : op.id = s1.fresh
  overtaken : op.overtaken = 0 ∧ op.release = false
  counts : ∀ n, getAt 0 w'.f n = getAt 0 x.w.f n + (if op.flag = some n then 1 else 0)
  dest : ∀ n, op.vdst = some n → (vEntry w'.regs n).st = .mapped ∧ ∀ l, l < 32 →
    lane (vGet w'.regs n) l = if n ∈ releasedV sh.code x then 0 else lane (vGet (basis x) n) l

/-- An operation of a warp has landed (R140, R142, R183): its values stand in the lanes that no later write has overtaken, unless a
release waited for it; its masks and flags are written; its completion flag counts one less; nothing waits for it. -/
structure HasLanded (w : Warp) (p : POp) (w' : Warp) : Prop where
  gone : ∀ q ∈ w'.pend, q.id ≠ p.id
  others : ∀ r, p.vdst ≠ some r → vEntry w'.regs r = vEntry w.regs r
  lanes : ∀ r, p.vdst = some r → r ≤ 55 → (vEntry w.regs r).st = .mapped → p.release = false →
    (vEntry w'.regs r).st = .mapped ∧ ∀ l, l < 32 → lane (vGet w'.regs r) l =
      if laneBit p.lanes l = true ∧ laneBit p.overtaken l = false then (getAt none p.vals l).getD (lane (vGet w.regs r) l)
      else lane (vGet w.regs r) l
  released : ∀ r, p.vdst = some r → r ≤ 55 → p.release = true → (∀ q ∈ w.pend, q.id ≠ p.id → q.vdst ≠ some r) →
    vEntry w'.regs r = {}
  flags : w'.regs.flags = w.regs.flags ||| p.flagsOr
  counts : ∀ n, getAt 0 w'.f n = getAt 0 w.f n - (if p.flag = some n then 1 else 0)
  goes : Hold.op p.id ∉ w'.holds

/-- A control transfer has completed (R113, R125 to R128): registers as `Leaves` says, each lane at the PC and call depth given. -/
structure Transfers (sh : Shape) (x : Iss) (t : State) (w' : Warp) (pc : Nat → BitVec 32) (depth : Nat → BitVec 8) : Prop
    extends Leaves sh x t w' [] [] [] 0 where
  pcs : ∀ l, l < 32 → getAt 0 w'.pc l = pc l
  depths : ∀ l, l < 32 → getAt 0 w'.depth l = depth l
  reps : ∀ l, l < 32 → getAt 0 w'.rep l = if laneBit x.split l = true then 0 else getAt 0 x.w.rep l

/-- The result of a comparison or mask instruction in the lanes given, in the other lanes the old mask; m0 keeps all ones (R135,
R163). -/
def MaskResult (x : Iss) (w' : Warp) (d : Nat) (lanes : LaneMask) (f : Nat → Bool) : Prop :=
  d ≠ 0 → ∀ l, l < 32 → laneBit (mGet w'.regs d) l = if laneBit lanes l = true then f l else laneBit (mGet x.w.regs d) l

end Machine

end Sys2Proof
end

