-- ==== Sys2Proof/Certificates/Slice0/Obligations.lean ====
section
/-! DEFINITION. The statements for the provers, each a Prop of its own, and before them the tables of results that they speak of,
written from the rules of the instructions. -/

namespace Sys2Proof.Claim

open Sys2Proof.Machine

/-! ## Results of lane and scalar instructions, in the numbers of the rules -/

/-- The count of a 64-bit or 32-bit shift acts whole (R159, R168): a × 2^n, or 0 where every bit leaves. -/
def timesPow {k : Nat} (a : BitVec k) (n : Nat) : BitVec k := if k ≤ n then 0 else .ofNat k (a.toNat * 2 ^ n)

/-- a div 2^n, unsigned (R159, R168). -/
def overPow {k : Nat} (a : BitVec k) (n : Nat) : BitVec k := .ofNat k (a.toNat / 2 ^ n)

/-- floor(a / 2^n), signed (R159, R168). -/
def floorPow {k : Nat} (a : BitVec k) (n : Nat) : BitVec k := if k ≤ n then (if a.msb then .allOnes k else 0) else .ofInt k (a.toInt / 2 ^ n)

/-- The lesser of two signed words, and the greater (R158). -/
def lesser (a b : Word) : Word := if a.toInt ≤ b.toInt then a else b
def greater (a b : Word) : Word := if a.toInt ≤ b.toInt then b else a

/-- BFX (R160): position p in bits 4 to 0 and length in bits 13 to 8 of the control word, the length cut at bit 31. -/
def bfx (a b : Word) : Word :=
  let p := b.toNat % 32
  .ofNat 32 (a.toNat / 2 ^ p % 2 ^ min (b.toNat / 256 % 64) (32 - p))

/-- BFI (R160), bit by bit. -/
def bfi (a b c : Word) : Word :=
  let p := c.toNat % 32
  let n := min (c.toNat / 256 % 64) (32 - p)
  mkMask (fun k => if p ≤ k ∧ k < p + n then b.getLsbD (k - p) else a.getLsbD k)

/-- res[l] of the instructions with two sources (R77, R158 to R160, R178). -/
def twoSource : Instr → Option (Word → Word → Word)
  | .iadd _ _ => some (fun a b => .ofNat 32 (a.toNat + b.toNat))
  | .isub _ _ => some (fun a b => .ofInt 32 (a.toInt - b.toInt))
  | .imul _ _ => some (fun a b => .ofNat 32 (a.toNat * b.toNat))
  | .imulh _ _ => some (fun a b => .ofInt 32 (a.toInt * b.toInt / 2 ^ 32))
  | .imulhu _ _ => some (fun a b => .ofNat 32 (a.toNat * b.toNat / 2 ^ 32))
  | .imin _ _ => some lesser
  | .imax _ _ => some greater
  | .umin _ _ => some (fun a b => .ofNat 32 (min a.toNat b.toNat))
  | .umax _ _ => some (fun a b => .ofNat 32 (max a.toNat b.toNat))
  | .and _ _ => some (fun a b => a &&& b)
  | .or _ _ => some (fun a b => a ||| b)
  | .xor _ _ => some (fun a b => a ^^^ b)
  | .andn _ _ => some (fun a b => a &&& ~~~ b)
  | .shl _ _ => some (fun a b => timesPow a b.toNat)
  | .shr _ _ => some (fun a b => overPow a b.toNat)
  | .sar _ _ => some (fun a b => floorPow a b.toNat)
  | .rotl _ _ => some (fun a b => mkMask (fun k => a.getLsbD ((k + 32 - b.toNat % 32) % 32)))
  | .bfx _ _ => some bfx
  | .fmin _ _ => some fminOp
  | .fmax _ _ => some fmaxOp
  | .iaddC _ => some (fun a b => .ofNat 32 (a.toNat + b.toNat))
  | .isubC _ => some (fun a b => .ofInt 32 (a.toInt - b.toInt))
  | .imulC _ => some (fun a b => .ofNat 32 (a.toNat * b.toNat))
  | .andC _ => some (fun a b => a &&& b)
  | .orC _ => some (fun a b => a ||| b)
  | .xorC _ => some (fun a b => a ^^^ b)
  | .shlC _ => some (fun a b => timesPow a b.toNat)
  | .shrC _ => some (fun a b => overPow a b.toNat)
  | .sarC _ => some (fun a b => floorPow a b.toNat)
  | .iminC _ => some lesser
  | .fminC _ => some fminOp
  | .fmaxC _ => some fmaxOp
  | _ => none

/-- res[l] of the instructions that read c (R158, R160). -/
def threeSource : Instr → Option (Word → Word → Word → Word)
  | .imad _ _ => some (fun a b c => .ofNat 32 (a.toNat * b.toNat + c.toNat))
  | .bfi _ _ => some bfi
  | .sel _ _ => some (fun a b c => if c = 0 then b else a)
  | _ => none

/-- The immediate forms (R161): the operation, and whether the immediate is a count of 5 bits. -/
def immediate : Instr → Option (Bool × (Word → Word → Word))
  | .iaddImm _ _ => some (false, fun a b => .ofNat 32 (a.toNat + b.toNat))
  | .imulImm _ _ => some (false, fun a b => .ofNat 32 (a.toNat * b.toNat))
  | .andImm _ _ => some (false, fun a b => a &&& b)
  | .orImm _ _ => some (false, fun a b => a ||| b)
  | .xorImm _ _ => some (false, fun a b => a ^^^ b)
  | .shlImm _ _ => some (true, fun a b => timesPow a b.toNat)
  | .shrImm _ _ => some (true, fun a b => overPow a b.toNat)
  | .sarImm _ _ => some (true, fun a b => floorPow a b.toNat)
  | _ => none

/-- The unary functions (R77, R164, R180). -/
def unary : Instr → Option (Word → Word)
  | .mov _ _ => some (fun a => a)
  | .movC _ => some (fun a => a)
  | .not _ _ => some (fun a => .ofNat 32 (2 ^ 32 - 1 - a.toNat))
  | .ineg _ _ => some (fun a => .ofInt 32 (0 - a.toInt))
  | .iabs _ _ => some (fun a => if 0 ≤ a.toInt then a else .ofInt 32 (0 - a.toInt))
  | .popc _ _ => some (fun a => .ofNat 32 (laneIdx.filter (fun k => a.getLsbD k)).length)
  | .clz _ _ => some (fun a => .ofNat 32 (((List.range 33).find? (fun n => n == 32 || a.getLsbD (31 - n))).getD 32))
  | .brev _ _ => some (fun a => mkMask (fun k => a.getLsbD (31 - k)))
  | .fneg _ _ => some fnegOp
  | .fabs _ _ => some fabsOp
  | .ffloor _ _ => some (frintOp { mode := 2 })
  | .fceil _ _ => some (frintOp { mode := 3 })
  | .fclass _ _ => some fclassOp
  | _ => none

/-- The conditions of ICMP and SCMP (R96, R163, R170), in the numbers compared. -/
def condHolds {k : Nat} (cond : Nat) (a b : BitVec k) : Bool :=
  match cond with
  | 0 => decide (a = b)
  | 1 => decide (a ≠ b)
  | 2 => decide (a.toInt < b.toInt)
  | 3 => decide (a.toInt ≤ b.toInt)
  | 4 => decide (b.toInt < a.toInt)
  | 5 => decide (b.toInt ≤ a.toInt)
  | 6 => decide (a.toNat < b.toNat)
  | _ => decide (b.toNat ≤ a.toNat)

/-- The comparisons of lanes (R163, R179), by the three bits of their condition. -/
def laneCompare : Instr → Option (Nat → Word → Word → Bool)
  | .icmp _ _ => some condHolds
  | .fcmp _ _ => some fcmpOp
  | _ => none

/-- Scalar arithmetic (R168). -/
def scalarTwo : Instr → Option (DWord → DWord → DWord)
  | .sadd _ _ => some (fun a b => .ofNat 64 (a.toNat + b.toNat))
  | .ssub _ _ => some (fun a b => .ofInt 64 (a.toInt - b.toInt))
  | .smul _ _ => some (fun a b => .ofNat 64 (a.toNat * b.toNat))
  | .sand _ _ => some (fun a b => a &&& b)
  | .sor _ _ => some (fun a b => a ||| b)
  | .sxor _ _ => some (fun a b => a ^^^ b)
  | .sshl _ _ => some (fun a b => timesPow a b.toNat)
  | .sshr _ _ => some (fun a b => overPow a b.toNat)
  | .ssar _ _ => some (fun a b => floorPow a b.toNat)
  | .smov _ _ => some (fun a _ => a)
  | _ => none

/-- Mask instructions that write a mask (R135), from the masks ma and mb and the scalar. -/
def maskWrite : Instr → Option (LaneMask → LaneMask → DWord → Nat → Bool)
  | .mand _ _ => some (fun a b _ l => laneBit a l && laneBit b l)
  | .mor _ _ => some (fun a b _ l => laneBit a l || laneBit b l)
  | .mxor _ _ => some (fun a b _ l => laneBit a l != laneBit b l)
  | .mnot _ _ => some (fun a _ _ l => !(laneBit a l))
  | .mmov _ _ => some (fun _ _ x l => x.getLsbD l)
  | _ => none

/-- Mask instructions that write a scalar (R135). -/
def maskCountOf : Instr → Option (LaneMask → LaneMask → Nat)
  | .mrd _ _ => some (fun a _ => a.toNat)
  | .mpopc _ _ => some (fun a b => (laneIdx.filter (fun l => laneBit a l && laneBit b l)).length)
  | .mffs _ _ => some (fun a b => ((laneIdx.find? (fun l => laneBit a l && laneBit b l))).getD 32)
  | _ => none

/-- The source lane of an exchange (R211), with XRD's own b and the immediate n. -/
def sourceLane : Instr → Option (Lanes → Nat → Nat → Option Nat)
  | .xrd _ _ => some (fun b _ l => some ((lane b l).toNat % 32))
  | .xbfly _ _ => some (fun _ n l => some (l ^^^ n))
  | .xbcast _ _ => some (fun _ n _ => some n)
  | .xup _ _ => some (fun _ n l => if n ≤ l then some (l - n) else none)
  | .xdn _ _ => some (fun _ n l => if l + n < 32 then some (l + n) else none)
  | _ => none

/-- The result of an exchange in one lane (R212, R213). -/
def exchanged (act : LaneMask) (a old : Lanes) (fill : Nat) (src : Option Nat) (l : Nat) : Word :=
  match src with
  | some j => if laneBit act j = true then lane a j else (if fill = 0 then 0 else if fill = 1 then lane old l else lane a l)
  | none => if fill = 0 then 0 else if fill = 1 then lane old l else lane a l

/-- Floating-point instructions with two sources that round (R77, R176, R177), each lane with its result and flags. -/
def floatTwo : Instr → Option (Rnd → Word → Word → FRes)
  | .fadd _ _ => some faddOp
  | .fsub _ _ => some fsubOp
  | .fmul _ _ => some fmulOp
  | .faddC _ => some faddOp
  | .fsubC _ => some fsubOp
  | .fmulC _ => some fmulOp
  | _ => none

/-- Floating-point functions of one source that round (R180). -/
def floatOne : Instr → Option (Rnd → Word → FRes)
  | .frint _ _ => some (fun r a => (frintOp r a, 0))
  | .fcvti _ _ => some fcvtiOp
  | .icvtf _ _ => some icvtfOp
  | _ => none

/-- The SFU functions (R183 to R186), and whether they round. -/
def sfuOne : Instr → Option (Bool × (Rnd → Word → FRes))
  | .frcp _ _ => some (false, fun _ a => frcpOp a)
  | .frsq _ _ => some (false, fun _ a => frsqOp a)
  | .fsqrt _ _ => some (true, fsqrtOp)
  | .fexp2 _ _ => some (false, fun _ a => fexp2Op a)
  | .flog2 _ _ => some (false, fun _ a => flog2Op a)
  | .fsin _ _ => some (false, fun _ a => ftrigOp 15 a)
  | .fcos _ _ => some (false, fun _ a => ftrigOp 16 a)
  | .ftanh _ _ => some (false, fun _ a => ftanhOp a)
  | _ => none

/-- R, F and E of R226 for numbers a, b, d of n limbs, limb 0 of b, the carry c and the scalar, and the carry limb of R229. -/
def longResult : Instr → Option (Nat → Nat → Nat → Nat → Nat → Nat → Nat → Nat × Bool × Bool × Nat)
  | .ladd _ _ => some (fun n a b _ _ _ _ => ((a + b) % 2 ^ (32 * n), decide (2 ^ (32 * n) ≤ a + b), false, 0))
  | .lsub _ _ => some (fun n a b _ _ _ _ => ((a + 2 ^ (32 * n) - b) % 2 ^ (32 * n), decide (a < b), false, 0))
  | .ladc _ _ => some (fun n a b _ _ c _ => ((a + b + c) % 2 ^ (32 * n), decide (2 ^ (32 * n) ≤ a + b + c), false, 0))
  | .lmuls _ _ => some (fun n a _ _ d _ sc =>
      ((d + a * sc) % 2 ^ (32 * n), decide (2 ^ (32 * n) ≤ d + a * sc), false, (d + a * sc) / 2 ^ (32 * n)))
  | .lshl _ _ => some (fun n a _ b0 _ _ _ =>
      (a * 2 ^ (b0 % 32) % 2 ^ (32 * n), decide (2 ^ (32 * n) ≤ a * 2 ^ (b0 % 32)), false, 0))
  | .lshr _ _ => some (fun _ a _ b0 _ _ _ => (a / 2 ^ (b0 % 32), decide (a % 2 ^ (b0 % 32) ≠ 0), false, 0))
  | .lcmp _ _ => some (fun _ a b _ _ _ _ => (0, decide (a < b), decide (a = b), 0))
  | .lneg _ _ => some (fun n a _ _ _ _ _ => ((2 ^ (32 * n) - a) % 2 ^ (32 * n), decide (a ≠ 0), false, 0))
  | _ => none

/-- LMULS, LCMP and LNEG read and write other operands than the rest (R226). -/
def isLmuls : Instr → Bool
  | .lmuls _ _ => true
  | _ => false

def isLcmp : Instr → Bool
  | .lcmp _ _ => true
  | _ => false

def isLneg : Instr → Bool
  | .lneg _ _ => true
  | _ => false

/-- The rounding of one lane of an issue (R50 to R52): the PREFIX's mode, RNDMODE under dyn, RNE without a PREFIX; under SRK with
the draw of the strand's key, the SRK counter and the lane. -/
def roundingAt (s : State) (x : Iss) (l : Nat) : Rnd :=
  let m := match x.c.grp.pfx with
    | some p => if p.rnd = 6 then (ctxOf s x.w.ctx).rndmode.toNat else p.rnd.toNat
    | none => 0
  if m = 5 then ⟨5, (drawBits (strandKey (strandOf s x.w)) (0x40000000#32 ||| (x.w.regs.q &&& 0x3FFFFFFF#32)) l).toNat⟩
  else ⟨m, 0⟩

/-- The value order of binary32 numbers, −0 below +0 (R57): bit 31 makes a number negative. -/
def valueKey (a : Word) : Int := if a.toNat < 2 ^ 31 then (a.toNat : Int) else (2 ^ 31 - 1 : Int) - (a.toNat : Int)

/-- Whether a binary32 word is no NaN. -/
def isNumber (a : Word) : Bool := decide (a.toNat % 2 ^ 31 ≤ 0x7F800000)

/-- R57: two numbers give one of them, a NaN and a number the number, two NaNs 0x7FC00000. -/
def numberOr (pick : Word → Word → Word) (a b : Word) : Word :=
  match isNumber a, isNumber b with
  | true, true => pick a b
  | true, false => a
  | false, true => b
  | false, false => 0x7FC00000#32

/-- FMIN and FMAX, in full and in the short form (R77, R178). -/
def extremum : Instr → Option (Word → Word → Word)
  | .fmin _ _ => some (numberOr (fun a b => if valueKey a ≤ valueKey b then a else b))
  | .fminC _ => some (numberOr (fun a b => if valueKey a ≤ valueKey b then a else b))
  | .fmax _ _ => some (numberOr (fun a b => if valueKey a ≤ valueKey b then b else a))
  | .fmaxC _ => some (numberOr (fun a b => if valueKey a ≤ valueKey b then b else a))
  | _ => none

/-- FLAGS of an issue (R58): what any lane of ACTIVE sets. -/
def SetsFlags (x : Iss) (fl : BitVec 32) (f : Nat → BitVec 32) : Prop :=
  ∀ k, k < 32 → (fl.getLsbD k = true ↔ ∃ l, laneBit x.act l = true ∧ (f l).getLsbD k = true)

end Sys2Proof.Claim

open Sys2Proof Sys2Proof.Machine Sys2Proof.Claim

/-! ## Lane instructions (06_integer.md R155 to R164; 07_float.md R178, R180) -/

/-- R77, R88, R155, R158 to R162, R164, R178, R180: a lane instruction with two sources, with a third source c, with an immediate in
every lane of b, with a constant, or of one source completes, with its result in the lanes that R155 gives it, and leaves the rest
as `Completes` and `KeepsRest` say.

R163, R179: ICMP and FCMP write the mask bit of each lane of ACTIVE, and zero the rest of the split under mz; no other state but
the PC changes. -/
def Obligations.LaneInstructions : Prop :=
  ((∀ (i : Instr) (f : Word → Word → Word), twoSource i = some f →
    ∀ (s s1 : State) (sh : Shape) (x : Iss) (o : OpsA), Issued i s sh s1 x → x.c.body = .A o →
    ∃ t w', Sys2Proof.Machine.exec i s = .next t ∧ Completes sh x s1 t w' [o.d.toNat] [] [] 0 ∧ KeepsRest x w' ∧
      LaneResult sh x w' o.d (fun l => f (lane (x.v o.a) l) (lane (x.v o.b) l))) ∧
  (∀ (i : Instr) (f : Word → Word → Word → Word), threeSource i = some f →
    ∀ (s s1 : State) (sh : Shape) (x : Iss) (o : OpsA), Issued i s sh s1 x → x.c.body = .A o →
    ∃ t w', Sys2Proof.Machine.exec i s = .next t ∧ Completes sh x s1 t w' [o.d.toNat] [] [] 0 ∧ KeepsRest x w' ∧
      LaneResult sh x w' o.d (fun l => f (lane (x.v o.a) l) (lane (x.v o.b) l) (lane x.cv l))) ∧
  (∀ (i : Instr) (sh5 : Bool) (f : Word → Word → Word), immediate i = some (sh5, f) →
    ∀ (s s1 : State) (sh : Shape) (x : Iss) (o : OpsI), Issued i s sh s1 x → x.c.body = .I o →
    ∃ t w', Sys2Proof.Machine.exec i s = .next t ∧ Completes sh x s1 t w' [o.d.toNat] [] [] 0 ∧ KeepsRest x w' ∧
      LaneResult sh x w' o.d (fun l => f (lane (x.v o.a) l)
        (if sh5 then .ofNat 32 (o.imm.toNat % 32) else .ofInt 32 o.imm.toInt))) ∧
  (∀ (i : Instr) (high : Bool), (∃ g o, i = if high then .movh g o else .movi g o) →
    ∀ (s s1 : State) (sh : Shape) (x : Iss) (o : OpsK), Issued i s sh s1 x → x.c.body = .K o →
    ∃ t w', Sys2Proof.Machine.exec i s = .next t ∧ Completes sh x s1 t w' [o.d.toNat] [] [] 0 ∧ KeepsRest x w' ∧
      LaneResult sh x w' o.d (fun l =>
        if high then .ofNat 32 (o.imm.toNat * 2 ^ 16 + (lane (x.v o.d) l).toNat % 2 ^ 16) else .ofInt 32 o.imm.toInt)) ∧
  (∀ (i : Instr) (f : Word → Word), unary i = some f →
    ∀ (s s1 : State) (sh : Shape) (x : Iss) (o : OpsU), Issued i s sh s1 x → x.c.body = .U o →
    ∃ t w', Sys2Proof.Machine.exec i s = .next t ∧ Completes sh x s1 t w' [o.d.toNat] [] [] 0 ∧ KeepsRest x w' ∧
      LaneResult sh x w' o.d (fun l => f (lane (x.v o.a) l)))) ∧
  (∀ (i : Instr) (f : Nat → Word → Word → Bool), laneCompare i = some f →
  ∀ (s s1 : State) (sh : Shape) (x : Iss) (o : OpsC), Issued i s sh s1 x → x.c.body = .C o →
  ∃ t w', Sys2Proof.Machine.exec i s = .next t ∧ Completes sh x s1 t w' [] [] [o.md.toNat] 0 ∧ KeepsRest x w' ∧
    MaskResult x w' o.md.toNat x.written (fun l => laneBit x.act l && f o.cond.toNat (lane (x.v o.a) l) (lane (x.v o.b) l)))

/-! ## Scalar and mask instructions (06_integer.md R166 to R171; 04_thread.md R135) -/

/-- R166, R168 to R171: scalar arithmetic writes one scalar register, for the whole warp, and nothing else; MOVS copies the low half of a
scalar to the lanes, SRDL reads one lane, SMOVI and SMOVH build constants, SCMP writes all bits of a mask.

R135: the mask instructions, the bits of the split's lanes or the scalar of the whole warp. -/
def Obligations.ScalarsAndMasks : Prop :=
  ((∀ (i : Instr) (f : DWord → DWord → DWord), scalarTwo i = some f →
    ∀ (s s1 : State) (sh : Shape) (x : Iss) (o : OpsA), Issued i s sh s1 x → x.c.body = .A o →
    ∃ t w', Sys2Proof.Machine.exec i s = .next t ∧ Completes sh x s1 t w' [] [o.d.toNat] [] 0 ∧ KeepsRest x w' ∧
      sGet w'.regs o.d.toNat = f (x.s o.a.toNat) (x.s o.b.toNat)) ∧
  ((∀ g o0 (s s1 : State) (sh : Shape) (x : Iss) (o : OpsU), Issued (.movs g o0) s sh s1 x → x.c.body = .U o →
      ∃ t w', Sys2Proof.Machine.exec (.movs g o0) s = .next t ∧ Completes sh x s1 t w' [o.d.toNat] [] [] 0 ∧ KeepsRest x w' ∧
        LaneResult sh x w' o.d (fun _ => .ofNat 32 ((x.s o.a.toNat).toNat % 2 ^ 32))) ∧
    (∀ g o0 (s s1 : State) (sh : Shape) (x : Iss) (o : OpsA), Issued (.srdl g o0) s sh s1 x → x.c.body = .A o →
      ∃ t w', Sys2Proof.Machine.exec (.srdl g o0) s = .next t ∧ Completes sh x s1 t w' [] [o.d.toNat] [] 0 ∧ KeepsRest x w' ∧
        sGet w'.regs o.d.toNat = .ofNat 64 (lane (x.v o.a) ((x.s o.b.toNat).toNat % 32)).toNat) ∧
    (∀ g o0 (s s1 : State) (sh : Shape) (x : Iss) (o : OpsK), Issued (.smovi g o0) s sh s1 x → x.c.body = .K o →
      ∃ t w', Sys2Proof.Machine.exec (.smovi g o0) s = .next t ∧ Completes sh x s1 t w' [] [o.d.toNat] [] 0 ∧ KeepsRest x w' ∧
        sGet w'.regs o.d.toNat = .ofInt 64 o.imm.toInt) ∧
    (∀ g o0 (s s1 : State) (sh : Shape) (x : Iss) (o : OpsK), Issued (.smovh g o0) s sh s1 x → x.c.body = .K o →
      ∃ t w', Sys2Proof.Machine.exec (.smovh g o0) s = .next t ∧ Completes sh x s1 t w' [] [o.d.toNat] [] 0 ∧ KeepsRest x w' ∧
        sGet w'.regs o.d.toNat = .ofNat 64 ((x.s o.d.toNat).toNat * 2 ^ 16 + o.imm.toNat)) ∧
    (∀ g o0 (s s1 : State) (sh : Shape) (x : Iss) (o : OpsC), Issued (.scmp g o0) s sh s1 x → x.c.body = .C o →
      ∃ t w', Sys2Proof.Machine.exec (.scmp g o0) s = .next t ∧ Completes sh x s1 t w' [] [] [o.md.toNat] 0 ∧ KeepsRest x w' ∧
        MaskResult x w' o.md.toNat 0xFFFFFFFF#32 (fun _ => condHolds o.cond.toNat (x.s o.a.toNat) (x.s o.b.toNat))))) ∧
  ((∀ (i : Instr) (f : LaneMask → LaneMask → DWord → Nat → Bool), maskWrite i = some f →
    ∀ (s s1 : State) (sh : Shape) (x : Iss) (o : OpsM), Issued i s sh s1 x → x.c.body = .M o →
    ∃ t w', Sys2Proof.Machine.exec i s = .next t ∧ Completes sh x s1 t w' [] [] [o.md.toNat] 0 ∧ KeepsRest x w' ∧
      MaskResult x w' o.md.toNat x.split (f (x.m o.ma.toNat) (x.m o.mb.toNat) (x.s o.s.toNat))) ∧
  (∀ (i : Instr) (f : LaneMask → LaneMask → Nat), maskCountOf i = some f →
    ∀ (s s1 : State) (sh : Shape) (x : Iss) (o : OpsM), Issued i s sh s1 x → x.c.body = .M o →
    ∃ t w', Sys2Proof.Machine.exec i s = .next t ∧ Completes sh x s1 t w' [] [o.s.toNat] [] 0 ∧ KeepsRest x w' ∧
      sGet w'.regs o.s.toNat = .ofNat 64 (f (x.m o.ma.toNat) (x.m o.mb.toNat))))

/-! ## The cross-lane network and RAND (09_crosslane.md R211 to R217; 19_task.md R382) -/

/-- R211 to R213, R217, R382: an exchange gives each lane of ACTIVE the a value of its source lane where that is in ACTIVE, else its
fill; MATCH the set of ACTIVE lanes of equal value; RAND the draws of the strand at the draw counter, which it advances, and at
2^30 draws it raises PEDIGREE_RANK. -/
def Obligations.CrossLaneResults : Prop :=
  (∀ (i : Instr) (src : Lanes → Nat → Nat → Option Nat), sourceLane i = some src →
    ∀ (s s1 : State) (sh : Shape) (x : Iss) (o : OpsX), Issued i s sh s1 x → x.c.body = .X o →
    ∃ t w', Sys2Proof.Machine.exec i s = .next t ∧ Completes sh x s1 t w' [o.d.toNat] [] [] 0 ∧ KeepsRest x w' ∧
      LaneResult sh x w' o.d (fun l =>
        exchanged x.act (x.v o.a) (x.v o.d) o.fill.toNat (src (x.v o.b) (o.b.toNat % 32) l) l)) ∧
  ((∀ g o0 (s s1 : State) (sh : Shape) (x : Iss) (o : OpsU), Issued (.matchLanes g o0) s sh s1 x → x.c.body = .U o →
      ∃ t w', Sys2Proof.Machine.exec (.matchLanes g o0) s = .next t ∧ Completes sh x s1 t w' [o.d.toNat] [] [] 0 ∧ KeepsRest x w' ∧
        LaneResult sh x w' o.d (fun l => mkMask (fun j => laneBit x.act j && decide (lane (x.v o.a) j = lane (x.v o.a) l)))) ∧
    (∀ g o0 (s s1 : State) (sh : Shape) (x : Iss) (o : OpsU), Issued (.rand g o0) s sh s1 x → x.c.body = .U o →
      (x.w.regs.draw ≠ 0x40000000#32 →
        ∃ t w', Sys2Proof.Machine.exec (.rand g o0) s = .next t ∧ Completes sh x s1 t w' [o.d.toNat] [] [] 0 ∧
          w'.regs.draw = x.w.regs.draw + 1 ∧
          LaneResult sh x w' o.d (fun l => drawBits (strandKey (strandOf s1 x.w)) x.w.regs.draw l)) ∧
      (x.w.regs.draw = 0x40000000#32 → Sys2Proof.Machine.exec (.rand g o0) s =
        .next (raiseIssue s1 x.w x.split x.act sh x.j x.chained x.pc .pedigreeRank none 0 0))))

/-! ## Floating point (07_float.md R174 to R186) -/

/-- R57: FMIN and FMAX complete, and give in each lane the lesser or the greater number of the two, −0 below +0; the number where
one operand is a NaN; 0x7FC00000 where both are. No flag is set. -/
def Obligations.MinimumAndMaximum : Prop :=
  ∀ (i : Instr) (f : Word → Word → Word), extremum i = some f →
  ∀ (s s1 : State) (sh : Shape) (x : Iss) (o : OpsA), Issued i s sh s1 x → x.c.body = .A o →
  ∃ t w', Sys2Proof.Machine.exec i s = .next t ∧ Completes sh x s1 t w' [o.d.toNat] [] [] 0 ∧ KeepsRest x w' ∧
    LaneResult sh x w' o.d (fun l => f (lane (x.v o.a) l) (lane (x.v o.b) l))

/-- R88, R174, R176, R177, R180: FADD, FSUB, FMUL, FFMA, FRINT and the conversions round each lane as R50 to R52 say, and set the FLAGS
of the lanes of ACTIVE; SRK rounding counts one draw. -/
def Obligations.FloatResults : Prop :=
  (∀ (i : Instr) (f : Rnd → Word → Word → FRes), floatTwo i = some f →
    ∀ (s s1 : State) (sh : Shape) (x : Iss) (o : OpsA), Issued i s sh s1 x → x.c.body = .A o →
    ∃ t w' fl, Sys2Proof.Machine.exec i s = .next t ∧ Completes sh x s1 t w' [o.d.toNat] [] [] fl ∧ KeepsRest x w' ∧
      LaneResult sh x w' o.d (fun l => (f (roundingAt s1 x l) (lane (x.v o.a) l) (lane (x.v o.b) l)).1) ∧
      SetsFlags x fl (fun l => (f (roundingAt s1 x l) (lane (x.v o.a) l) (lane (x.v o.b) l)).2) ∧
      w'.regs.q = x.w.regs.q + (if (roundingAt s1 x 0).mode = 5 then 1 else 0)) ∧
  (∀ g o0 (s s1 : State) (sh : Shape) (x : Iss) (o : OpsA), Issued (.ffma g o0) s sh s1 x → x.c.body = .A o →
    ∃ t w' fl, Sys2Proof.Machine.exec (.ffma g o0) s = .next t ∧ Completes sh x s1 t w' [o.d.toNat] [] [] fl ∧ KeepsRest x w' ∧
      LaneResult sh x w' o.d (fun l => (ffmaOp (roundingAt s1 x l) (lane (x.v o.a) l) (lane (x.v o.b) l) (lane x.cv l)).1) ∧
      SetsFlags x fl (fun l => (ffmaOp (roundingAt s1 x l) (lane (x.v o.a) l) (lane (x.v o.b) l) (lane x.cv l)).2) ∧
      w'.regs.q = x.w.regs.q + (if (roundingAt s1 x 0).mode = 5 then 1 else 0)) ∧
  (∀ (i : Instr) (f : Rnd → Word → FRes), floatOne i = some f →
    ∀ (s s1 : State) (sh : Shape) (x : Iss) (o : OpsU), Issued i s sh s1 x → x.c.body = .U o →
    ∃ t w' fl, Sys2Proof.Machine.exec i s = .next t ∧ Completes sh x s1 t w' [o.d.toNat] [] [] fl ∧ KeepsRest x w' ∧
      LaneResult sh x w' o.d (fun l => (f (roundingAt s1 x l) (lane (x.v o.a) l)).1) ∧
      SetsFlags x fl (fun l => (f (roundingAt s1 x l) (lane (x.v o.a) l)).2) ∧
      w'.regs.q = x.w.regs.q + (if (roundingAt s1 x 0).mode = 5 then 1 else 0))

/-- R140, R183 to R186: an SFU function issues with its flag's count below 63; its result, in the lanes that R155 gives it, is out
until the warp's clock has moved 12 cc on, and a warp without a flag is held for it. -/
def Obligations.SfuFunctionsIssue : Prop :=
  ∀ (i : Instr) (rounds : Bool) (f : Rnd → Word → FRes), sfuOne i = some (rounds, f) →
  ∀ (s s1 : State) (sh : Shape) (x : Iss) (o : OpsU), Issued i s sh s1 x → x.c.body = .U o →
  (∀ n, flagOf x.c = some n → getAt 0 x.w.f n < 63) →
  ∃ t w' op, Sys2Proof.Machine.exec i s = .next t ∧ Completes sh x s1 t w' [o.d.toNat] [] [] 0 ∧ GoesOut sh x s1 w' op ∧
    op.kind = .sfu ∧ op.flag = flagOf x.c ∧ op.vdst = (if o.d = 60 then none else some o.d.toNat) ∧
    op.ready = some (x.w.now + 12) ∧ (flagOf x.c = none → .op op.id ∈ w'.holds) ∧ op.lanes = x.written ∧
    (∀ l, laneBit x.written l = true → getAt none op.vals l =
      some (if laneBit x.act l = true then (f (roundingAt s1 x l) (lane (x.v o.a) l)).1 else 0)) ∧
    SetsFlags x op.flagsOr (fun l => (f (roundingAt s1 x l) (lane (x.v o.a) l)).2) ∧
    w'.regs.q = x.w.regs.q + (if rounds = true ∧ (roundingAt s1 x 0).mode = 5 then 1 else 0)

/-! ## Bound lanes (10_limbs.md R218 to R229) -/

/-- R226 to R229: a long-integer instruction issues on f11; each lane of ACTIVE receives its limb of R, m15 receives F of each
group at its lowest lane, LCMP's m14 E, and LMULS's CARRYX the carry limb; operands are as R228 forwards them. -/
def Obligations.LongIntegersIssue : Prop :=
  ∀ (i : Instr) (f : Nat → Nat → Nat → Nat → Nat → Nat → Nat → Nat × Bool × Bool × Nat), longResult i = some f →
  ∀ (s s1 : State) (sh : Shape) (x : Iss) (o : OpsA), Issued i s sh s1 x → x.c.body = .A o → getAt 0 x.w.f 11 < 63 →
  let n := boundSize x.w
  let res (l : Nat) := f n (limbs (longV x o.a) (l / n * n) n)
    (if isLmuls i || isLneg i then 0 else limbs (longV x o.b) (l / n * n) n)
    (if isLmuls i || isLneg i then 0 else (lane (longV x o.b) (l / n * n)).toNat)
    (if isLmuls i then limbs (longV x o.d) (l / n * n) n else 0) (bit (laneBit (longC x) (l / n * n)))
    (if isLmuls i then (x.s o.b.toNat).toNat % 2 ^ 32 else 0)
  ∃ t w' op, Sys2Proof.Machine.exec i s = .next t ∧
    Completes sh x s1 t w' (if isLcmp i then [] else [o.d.toNat]) [] [] 0 ∧ GoesOut sh x s1 w' op ∧
    op.kind = .long ∧ op.flag = some 11 ∧ op.vdst = (if isLcmp i = true ∨ o.d = 60 then none else some o.d.toNat) ∧
    (∀ r, op.vdst = some r → op.lanes = x.written ∧ ∀ l, laneBit x.written l = true → getAt none op.vals l =
      some (if laneBit x.act l = true then .ofNat 32 ((res l).1 / 2 ^ (32 * (l % n))) else 0)) ∧
    (∃ fm, (15, x.written, fm) ∈ op.mres ∧ ∀ l, l < 32 →
      laneBit fm l = (laneBit x.act l && decide (l % n = 0) && (res l).2.1)) ∧
    (isLcmp i = true → ∃ em, (14, x.written, em) ∈ op.mres ∧ ∀ l, l < 32 →
      laneBit em l = (laneBit x.act l && decide (l % n = 0) && (res l).2.2.1)) ∧
    (∀ l, laneBit x.act l = true → isLmuls i = true →
      (l, .ofNat 32 (if l % n = 0 then (res l).2.2.2 else 0)) ∈ op.carry) ∧
    ∃ r, op.ready = some r ∧ x.w.now + 6 ≤ r

/-- R220, R221: LBIND and LFREE, by a split of every LIVE lane with f11 at zero, set the size of the bound groups; LBIND clears
CARRYX and meets BOUND_MASK where LIVE holds a group in part; by a smaller split both raise BOUND_DIVERGE at the lowest LIVE lane
left out. -/
def Obligations.BindAndFree : Prop :=
  (∀ g o (s s1 : State) (sh : Shape) (x : Iss), Issued (.lbind g o) s sh s1 x → getAt 0 x.w.f 11 = 0 →
    (x.split &&& live x.w = live x.w → tornLane o.imm.toNat 0xFFFFFFFF#32 (live x.w) = none →
      ∃ t w', Sys2Proof.Machine.exec (.lbind g o) s = .next t ∧ Completes sh x s1 t w' [] [] [] 0 ∧
        w'.limbst = .ofNat 3 (Nat.log2 o.imm.toNat) ∧ (∀ l, l < 32 → getAt 0 w'.carryx l = 0) ∧ w'.exited = x.w.exited) ∧
    (x.split &&& live x.w = live x.w → ∀ l, tornLane o.imm.toNat 0xFFFFFFFF#32 (live x.w) = some l →
      Sys2Proof.Machine.exec (.lbind g o) s =
        .next (raiseIssue s1 x.w x.split x.act sh x.j x.chained x.pc .boundMask (some l) 0 0)) ∧
    (x.split &&& live x.w ≠ live x.w → ∃ l, laneBit (live x.w) l = true ∧ laneBit x.split l = false ∧
      (∀ k, k < l → laneBit (live x.w) k = true → laneBit x.split k = true) ∧ Sys2Proof.Machine.exec (.lbind g o) s =
        .next (raiseIssue s1 x.w x.split x.act sh x.j x.chained x.pc .boundDiverge (some l) 0 0))) ∧
  (∀ g o (s s1 : State) (sh : Shape) (x : Iss), Issued (.lfree g o) s sh s1 x → getAt 0 x.w.f 11 = 0 →
    (x.split &&& live x.w = live x.w →
      ∃ t w', Sys2Proof.Machine.exec (.lfree g o) s = .next t ∧ Completes sh x s1 t w' [] [] [] 0 ∧
        w'.limbst = 0 ∧ w'.carryx = x.w.carryx ∧ w'.exited = x.w.exited) ∧
    (x.split &&& live x.w ≠ live x.w → ∃ l, laneBit (live x.w) l = true ∧ laneBit x.split l = false ∧
      (∀ k, k < l → laneBit (live x.w) k = true → laneBit x.split k = true) ∧ Sys2Proof.Machine.exec (.lfree g o) s =
        .next (raiseIssue s1 x.w x.split x.act sh x.j x.chained x.pc .boundDiverge (some l) 0 0)))

/-! ## Control transfer (04_thread.md R113, R121 to R129; 11_issue.md R237, R244) -/

/-- R125, R126, R128: BRA takes the lanes whose mask bit equals its sense to its target, BRX each lane to its own; the other lanes
of the split go on; an odd target and a bound group that would part are causes at their lowest lane. -/
def Obligations.BranchesTransfer : Prop :=
  ∀ (i : Instr) (s s1 : State) (sh : Shape) (x : Iss) (t : LaneMask) (target : Nat → BitVec 32), Issued i s sh s1 x →
  ((∃ g o0 o, i = .bra g o0 ∧ x.c.body = .B o ∧ t = x.split &&& (if o.sense then x.m o.mask.toNat else ~~~ x.m o.mask.toNat) ∧
      ∀ l, target l = x.pc + .ofInt 32 (2 * o.off.toInt)) ∨
    (∃ g o0 o, i = .brx g o0 ∧ x.c.body = .T o ∧ t = x.split ∧ ∀ l, target l = lane (x.v o.a) l)) →
  let pc (l : Nat) : BitVec 32 :=
    if laneBit t l = true then target l else if laneBit x.split l = true then x.pc + 4 else getAt 0 x.w.pc l
  ((∀ l, laneBit t l = true → (target l).getLsbD 0 = false) →
    divergeLane x.w (laneIdx.map pc) (laneIdx.map (fun l => getAt 0 x.w.depth l)) = none →
    ∃ u w', Sys2Proof.Machine.exec i s = .next u ∧ Transfers sh x u w' pc (fun l => getAt 0 x.w.depth l) ∧
      (∀ a, cohByte u a = cohByte s1 a) ∧ w'.exited = x.w.exited ∧ w'.stack = x.w.stack) ∧
  (∀ l, laneBit t l = true → (target l).getLsbD 0 = true → (∀ k, k < l → laneBit t k = true → (target k).getLsbD 0 = false) →
    Sys2Proof.Machine.exec i s =
      .next (raiseIssue s1 x.w x.split x.act sh x.j x.chained x.pc .misaligned (some l) ((target l).setWidth 64) 0)) ∧
  ((∀ l, laneBit t l = true → (target l).getLsbD 0 = false) →
    ∀ l, divergeLane x.w (laneIdx.map pc) (laneIdx.map (fun l => getAt 0 x.w.depth l)) = some l →
    Sys2Proof.Machine.exec i s =
      .next (raiseIssue s1 x.w x.split x.act sh x.j x.chained x.pc .boundDiverge (some l) 0 0))

/-- R125 to R128, R133: CALL and CALLX, in lanes below the limits of their call depth whose return-stack words lie in the private
window and pass the checks of R189, enter their targets one deeper, the address of the next group in each lane's word of the stack
cache and nowhere else; a lane at its limit is STACK_LIMIT at the lowest.

R127, R128, R133: RET, in lanes at a depth above 0 whose return-stack words the core finds, takes each to the address that its
word holds, one shallower; at depth 0 it is STACK_LIMIT. -/
def Obligations.CallsAndReturns : Prop :=
  (∀ (i : Instr) (s s1 : State) (sh : Shape) (x : Iss) (t : LaneMask) (target : Nat → BitVec 32), Issued i s sh s1 x →
  ((∃ g o0 o, i = .call g o0 ∧ x.c.body = .B o ∧ t = x.split &&& (if o.sense then x.m o.mask.toNat else ~~~ x.m o.mask.toNat) ∧
      ∀ l, target l = x.pc + .ofInt 32 (2 * o.off.toInt)) ∨
    (∃ g o0 o, i = .callx g o0 ∧ x.c.body = .T o ∧ t = x.split ∧ ∀ l, target l = lane (x.v o.a) l)) →
  let pc (l : Nat) : BitVec 32 :=
    if laneBit t l = true then target l else if laneBit x.split l = true then x.pc + 4 else getAt 0 x.w.pc l
  let depth (l : Nat) : BitVec 8 := if laneBit t l = true then getAt 0 x.w.depth l + 1 else getAt 0 x.w.depth l
  let word (l : Nat) : Nat := (x.w.privbase.toNat + ((getAt 0 x.w.depth l).toNat * 32 + l) * 4) % 2 ^ 64
  (∀ s2 es, t ≠ 0 → (∀ l, laneBit t l = true → getAt 0 x.w.depth l ≠ 255 ∧ (getAt 0 x.w.depth l).toNat < x.w.stackLim.toNat) →
    gate s1 x.w { size := 4, align := 4, rd := false, wr := true, kind := kStore, watch := false }
      ((lanesOf t).map (fun l => (l, word l))) = .go s2 es →
    (∀ e ∈ es, leafKind e.2.2 = 0 ∧ inPriv x.w e.2.1 = true) → anyPending s2 x.w es = false →
    stackRows x.w.stack + (lanesOf t).length ≤ 32 →
    (∀ l, laneBit t l = true → (target l).getLsbD 0 = false) →
    divergeLane x.w (laneIdx.map pc) (laneIdx.map depth) = none →
    ∃ u w', Sys2Proof.Machine.exec i s = .next u ∧ Transfers sh x u w' pc depth ∧ (∀ a, cohByte u a = cohByte s1 a) ∧
      (∀ l, laneBit t l = true → getKey (word l) w'.stack = some (x.pc + 4)) ∧
      (∀ k, (∀ l, laneBit t l = true → word l ≠ k) → getKey k w'.stack = getKey k x.w.stack)) ∧
  (t = 0 → divergeLane x.w (laneIdx.map pc) (laneIdx.map depth) = none →
    ∃ u w', Sys2Proof.Machine.exec i s = .next u ∧ Transfers sh x u w' pc depth ∧ (∀ a, cohByte u a = cohByte s1 a) ∧
      w'.stack = x.w.stack) ∧
  (∀ l, laneBit t l = true → (getAt 0 x.w.depth l = 255 ∨ x.w.stackLim.toNat ≤ (getAt 0 x.w.depth l).toNat) →
    (∀ k, k < l → laneBit t k = true → getAt 0 x.w.depth k ≠ 255 ∧ (getAt 0 x.w.depth k).toNat < x.w.stackLim.toNat) →
    Sys2Proof.Machine.exec i s =
      .next (raiseIssue s1 x.w x.split x.act sh x.j x.chained x.pc .stackLimit (some l) (.ofNat 64 (word l)) 0))) ∧
  (∀ g o (s s1 : State) (sh : Shape) (x : Iss), Issued (.ret g o) s sh s1 x →
  let word (l : Nat) : Nat := (x.w.privbase.toNat + (((getAt 0 x.w.depth l).toNat + 2 ^ 57 - 1) * 32 + l) * 4) % 2 ^ 64
  (∀ s2 es (back : Nat → Word),
    (∀ l, laneBit x.split l = true → getAt 0 x.w.depth l ≠ 0 ∧ (getAt 0 x.w.depth l).toNat ≤ x.w.stackLim.toNat) →
    gate s1 x.w { size := 4, align := 4, rd := true, wr := false, kind := kLoad, watch := false }
      ((lanesOf x.split).map (fun l => (l, word l))) = .go s2 es →
    anyPending s2 x.w es = false →
    (∀ l, laneBit x.split l = true → ∃ e, es.find? (fun y => y.1 == l) = some e ∧ findWord s2 x.w e.2.2 e.2.1 15#4 = .val (back l) ∧
      (back l).getLsbD 0 = false) →
    let pc (l : Nat) : BitVec 32 := if laneBit x.split l = true then back l else getAt 0 x.w.pc l
    let depth (l : Nat) : BitVec 8 := if laneBit x.split l = true then getAt 0 x.w.depth l - 1 else getAt 0 x.w.depth l
    divergeLane x.w (laneIdx.map pc) (laneIdx.map depth) = none →
    ∃ u w', Sys2Proof.Machine.exec (.ret g o) s = .next u ∧ Transfers sh x u w' pc depth ∧ (∀ a, cohByte u a = cohByte s1 a) ∧
      w'.stack = x.w.stack) ∧
  (∀ l, laneBit x.split l = true → (getAt 0 x.w.depth l = 0 ∨ x.w.stackLim.toNat < (getAt 0 x.w.depth l).toNat) →
    (∀ k, k < l → laneBit x.split k = true →
      getAt 0 x.w.depth k ≠ 0 ∧ (getAt 0 x.w.depth k).toNat ≤ x.w.stackLim.toNat) →
    Sys2Proof.Machine.exec (.ret g o) s =
      .next (raiseIssue s1 x.w x.split x.act sh x.j x.chained x.pc .stackLimit (some l) (.ofNat 64 (word l)) 0)))

/-- R121, R122, R129, R237, R244: NOP does nothing, YIELD sets the yield mark, WAIT goes on once its flags read zero, EXIT ends the
split's lanes where they stand, and FUSE goes on when no LIVE lane stands below it, else it parks its split there. -/
def Obligations.PlainControl : Prop :=
  (∀ i, (i = .nopC ∨ ∃ g o, i = .nop g o) → ∀ (s s1 : State) (sh : Shape) (x : Iss), Issued i s sh s1 x →
    ∃ t w', Sys2Proof.Machine.exec i s = .next t ∧ Completes sh x s1 t w' [] [] [] 0 ∧ KeepsRest x w' ∧ w'.parked = x.w.parked) ∧
  (∀ i, (i = .yieldC ∨ ∃ g o, i = .yield g o) → ∀ (s s1 : State) (sh : Shape) (x : Iss), Issued i s sh s1 x → x.w.stepSet = none →
    ∃ t w', Sys2Proof.Machine.exec i s = .next t ∧ Completes sh x s1 t w' [] [] [] 0 ∧ KeepsRest x w' ∧ w'.yielded = true) ∧
  (∀ fl (s s1 : State) (sh : Shape) (x : Iss), Issued (.wait fl) s sh s1 x →
    (∀ n, n < 12 → fl.getLsbD n = true → getAt 0 x.w.f n = 0) →
    ∃ t w', Sys2Proof.Machine.exec (.wait fl) s = .next t ∧ Completes sh x s1 t w' [] [] [] 0 ∧ KeepsRest x w') ∧
  (∀ fl (s s1 : State) (sh : Shape) (x : Iss), Issued (.wait fl) s sh s1 x →
    (∃ n, n < 12 ∧ fl.getLsbD n = true ∧ getAt 0 x.w.f n ≠ 0) →
    ∃ t, Sys2Proof.Machine.exec (.wait fl) s = .next t ∧ t.issue = s1.issue ∧
      ∀ w', warpFind t x.w.ctx x.w.num = some w' → w'.pc = x.w.pc ∧ w'.regs = x.w.regs) ∧
  (∀ g o (s s1 : State) (sh : Shape) (x : Iss), Issued (.exit g o) s sh s1 x →
    ∃ t w', Sys2Proof.Machine.exec (.exit g o) s = .next t ∧
      Transfers sh x t w' (fun l => getAt 0 x.w.pc l) (fun l => getAt 0 x.w.depth l) ∧ w'.exited = x.w.exited ||| x.split ∧
      (∀ a, cohByte t a = cohByte s1 a)) ∧
  (∀ g o (s s1 : State) (sh : Shape) (x : Iss), Issued (.fuse g o) s sh s1 x →
    (belowSplit x.w x.split = false → ∃ t w', Sys2Proof.Machine.exec (.fuse g o) s = .next t ∧
      Completes sh x s1 t w' [] [] [] 0 ∧ KeepsRest x w' ∧ w'.parked = x.w.parked) ∧
    (belowSplit x.w x.split = true → ∃ t w' p, Sys2Proof.Machine.exec (.fuse g o) s = .next t ∧ Leaves sh x t w' [] [] [] 0 ∧
      w'.pc = x.w.pc ∧ w'.parked = x.w.parked ++ [p] ∧ p.lanes = x.split ∧ p.wait = .fuse))

/-! ## Exceptions and their return (15_context.md R315 to R323; 03_encoding.md R99 to R101, R524) -/

/-- R101, R165, R322: IDIV and IREM raise UNIMPL, TRAP and BRK their cause with the immediate as CODE, each precisely. -/
def Obligations.TrapInstructions : Prop :=
  (∀ i, (∃ g o, i = .idiv g o ∨ i = .irem g o) → ∀ (s s1 : State) (sh : Shape) (x : Iss), Issued i s sh s1 x →
    Sys2Proof.Machine.exec i s = .next (raiseIssue s1 x.w x.split x.act sh x.j x.chained x.pc .unimpl none 0 0)) ∧
  (∀ g o0 (s s1 : State) (sh : Shape) (x : Iss) (o : OpsT), Issued (.trap g o0) s sh s1 x → x.c.body = .T o →
    Sys2Proof.Machine.exec (.trap g o0) s = .next (raiseIssue s1 x.w x.split x.act sh x.j x.chained x.pc .trap none 0 o.imm)) ∧
  (∀ g o0 (s s1 : State) (sh : Shape) (x : Iss) (o : OpsT), Issued (.brk g o0) s sh s1 x → x.c.body = .T o →
    Sys2Proof.Machine.exec (.brk g o0) s = .next (raiseIssue s1 x.w x.split x.act sh x.j x.chained x.pc .brk none 0 o.imm))

/-- R99, R100, R524: a group that the decoder refuses raises ILLEGAL precisely when it issues, but for a breakpoint that names it,
which comes first (R510).

R9, R510, R524: of the causes that a legal group of the stream meets before it executes, the first in the order is raised, and
nothing of the group is done: a breakpoint, ILLEGAL, LATCH_CHAIN, UNMAPPED_READ under STALETRAP, BOUND_MASK at its lowest lane,
SINGULAR_SPLIT. -/
def Obligations.FirstCauses : Prop :=
  (∀ (e : BadGroup) (s : State) (p : Issue) (w : Warp), s.issue = some p → warpFind s p.ctx p.warp = some w →
  let x := issOf s p (badShape e) (atIssue s p w (badShape e))
  let stopped := if (badShape e).code.grp.stop && !x.w.bpSkip && x.w.stepSet.isNone
    then breakAt s x.w.ctx x.pc.toNat (ctxOf s x.w.ctx).bp 0 else none
  (stopped = none → Sys2Proof.Machine.exec (.illegalEncoding e) s =
    .next (raiseIssue s x.w p.split x.act (badShape e) x.j x.chained x.pc .illegal none 0 0)) ∧
  (∀ n, stopped = some n → Sys2Proof.Machine.exec (.illegalEncoding e) s =
    .next (raiseIssue s x.w p.split x.act (badShape e) x.j false x.pc .brk none 0 (.ofNat 8 n)))) ∧
  ((∀ (i : Instr) (sh : Shape) (s : State) (p : Issue) (w : Warp), shapeOf i = some sh → s.issue = some p →
    warpFind s p.ctx p.warp = some w →
    let x := issOf s p sh (atIssue s p w sh)
    ∀ k l code, firstCause s x sh true = some (k, l, code) → Sys2Proof.Machine.exec i s =
      .next (raiseIssue s x.w p.split x.act sh x.j (x.chained && k != .brk) x.pc k l 0 code)) ∧
  (∀ (s : State) (x : Iss) (sh : Shape), (sh.code.grp.stop = false ∨ x.w.bpSkip = true ∨ x.w.stepSet.isSome = true) →
    (sh.len = 2 ∨ Legal.illegal sh.code = none) → x.j < repeats sh.code →
    (illegalHere s x.w x.c = true → firstCause s x sh true = some (.illegal, none, 0)) ∧
    (illegalHere s x.w x.c = false → latchReads x.c ≠ [] → x.w.chain = none →
      firstCause s x sh true = some (.latchChain, none, 0)) ∧
    (illegalHere s x.w x.c = false → latchReads x.c = [] → (ctxOf s x.w.ctx).staletrap = true →
      (∃ n, n ∈ readsOf x.c ∧ (vEntry x.regs n).st = .unmapped) → firstCause s x sh true = some (.unmappedRead, none, 0)) ∧
    (illegalHere s x.w x.c = false → latchReads x.c = [] → (ctxOf s x.w.ctx).staletrap = false →
      hasVector x.c = true → 1 < boundSize x.w → ∀ l, tornLane (boundSize x.w) (live x.w) x.act = some l →
      firstCause s x sh true = some (.boundMask, some l, 0)) ∧
    (illegalHere s x.w x.c = false → latchReads x.c = [] → (ctxOf s x.w.ctx).staletrap = false → boundSize x.w ≤ 1 →
      isSingular x.c = true → laneBit x.split (leader x.w) = false → firstCause s x sh true = some (.singularSplit, none, 0)) ∧
    (illegalHere s x.w x.c = false → latchReads x.c = [] → (ctxOf s x.w.ctx).staletrap = false → boundSize x.w ≤ 1 →
      (isSingular x.c = true → laneBit x.split (leader x.w) = true) → firstCause s x sh true = none)))

/-- R316 to R319: a cause whose class the context handles, in a quiet warp outside its handler, enters the handler: every LIVE lane
at the class's entry of the vector at depth 0 and repetition 0, every vector register UNMAPPED, s62 the frame's address, s63 the
cause word, FLAGS, LIMBST and the completion flags zero; the other scalars, the masks and the EXITED lanes as they were. -/
def Obligations.TrapEntry : Prop :=
  ∀ (s s' : State) (w : Warp) (t : TrapInfo) (pc : BitVec 32) (cls entry : Nat), (warpFind s w.ctx w.num).isSome →
  w.inHandler = false → causeClass t.cause = some cls → (cls ≠ 5 ∨ (ctxOf s w.ctx).dbgctl.getLsbD 0 = false) →
  (ctxOf s w.ctx).trapctl.getLsbD cls = true → quiet w = true → w.rupds = [] →
  writeFrame (setWarp s { w with trapping := some t }) { w with trapping := some t } (some t) = .ok s' →
  vectorEntry s' w.ctx cls = .ok entry →
  ∃ w', warpFind (raiseAt s w t pc) w.ctx w.num = some w' ∧ w'.inHandler = true ∧ w'.exited = w.exited ∧
    (∀ l, l < 32 → laneBit w.exited l = false →
      getAt 0 w'.pc l = .ofNat 32 entry ∧ getAt 0 w'.depth l = 0 ∧ getAt 0 w'.rep l = 0) ∧
    (∀ n, (vEntry w'.regs n).st = .unmapped) ∧
    sGet w'.regs 62 = .ofNat 64 (frameAddr s w) ∧ sGet w'.regs 63 = (causeWord t).setWidth 64 ∧
    (∀ n, n < 62 → sGet w'.regs n = sGet w.regs n) ∧ (∀ n, mGet w'.regs n = mGet w.regs n) ∧
    w'.regs.flags = 0 ∧ w'.limbst = 0 ∧ (∀ n, getAt 0 w'.f n = 0) ∧ w'.parked = [] ∧ w'.carryx = w.carryx ∧
    (∀ a, cohByte (raiseAt s w t pc) a = cohByte s' a)

/-- R316, R321: a cause that the context does not handle, that has no class, or that strikes in the handler (then as DOUBLE_TRAP)
is context-level: the context is FAULTED, its record names the cause, and every warp, and memory with the frame in it, stands as it
stood, but that a warp whose cause lets it go past the group (TRAP, BREAK) is past it. -/
def Obligations.UnhandledCauseFaults : Prop :=
  ∀ (s : State) (w : Warp) (t : TrapInfo) (pc : BitVec 32),
  ((ctxOf s w.ctx).st = .running ∨ (ctxOf s w.ctx).st = .halted) →
  (w.inHandler = true ∨ causeClass t.cause = none ∨
    ∃ cls, causeClass t.cause = some cls ∧ (cls ≠ 5 ∨ (ctxOf s w.ctx).dbgctl.getLsbD 0 = false) ∧
      (ctxOf s w.ctx).trapctl.getLsbD cls = false) →
  (ctxOf (raiseAt s w t pc) w.ctx).st = .faulted ∧
  fr (ctxOf (raiseAt s w t pc) w.ctx).faultrec 0 1 = w.ctx % 256 ∧
  fr (ctxOf (raiseAt s w t pc) w.ctx).faultrec 1 1 = (if w.inHandler then 0x3E else causeCode t.cause) ∧
  fr (ctxOf (raiseAt s w t pc) w.ctx).faultrec 4 4 = w.core % 2 ^ 32 ∧
  fr (ctxOf (raiseAt s w t pc) w.ctx).faultrec 8 4 = w.num % 2 ^ 32 ∧
  fr (ctxOf (raiseAt s w t pc) w.ctx).faultrec 16 8 = t.faddr.toNat ∧
  (raiseAt s w t pc).warps = (if t.skip = 0 then s.warps else (setWarp s (pastTrap w t)).warps) ∧ (∀ a, cohByte (raiseAt s w t pc) a = cohByte s a)

/-- R319, R320: the layout of a frame's header. -/
def Obligations.FrameHeaderLayout : Prop :=
  ∀ (w : Warp) (t : TrapInfo) (flagCounts : Bool),
  let h := frameHeader w (some t) flagCounts
  h.length = 512 ∧
  (∀ l, l < 32 → fr h (4 * l) 4 =
    ((if laneBit t.spl l = true then getAt 0 w.pc l + .ofNat 32 t.skip else getAt 0 w.pc l).toNat)) ∧
  (∀ l, l < 32 → fr h (128 + l) 1 = (getAt 0 w.depth l).toNat) ∧
  fr h 160 4 = w.exited.toNat ∧ fr h 164 4 = t.spl.toNat ∧ fr h 168 4 = t.act.toNat ∧ fr h 172 4 = (causeWord t).toNat ∧
  fr h 176 4 = t.insn.toNat ∧ fr h 180 4 = t.pfxw.toNat ∧ fr h 184 4 = t.ginfo.toNat ∧ fr h 188 4 = w.regs.flags.toNat ∧
  fr h 192 8 = t.faddr.toNat ∧ (∀ n, n < 56 → (fr h 200 8 / 2 ^ n % 2 = 1 ↔ (vEntry w.regs n).st ≠ .unmapped)) ∧
  fr h 208 8 = w.privbase.toNat ∧ fr h 216 2 = w.stackLim.toNat ∧ fr h 218 2 = w.stackMax.toNat ∧
  fr h 220 4 = w.limbst.toNat ∧ (∀ n, n < 12 → fr h (224 + n) 1 = if flagCounts then getAt 0 w.f n % 256 else 0) ∧
  fr h 236 4 = w.regs.q.toNat ∧ fr h 240 4 = w.regs.draw.toNat ∧ fr h 244 2 = w.tag.toNat ∧ fr h 248 4 = w.openb.toNat ∧
  fr h 252 4 % 4 = w.role.toNat ∧ fr h 256 8 = w.age.seq.toNat ∧
  (∀ n, n < 16 → fr h (264 + 4 * n) 4 = (mGet w.regs n).toNat) ∧
  (∀ n, n < 32 → fr h (328 + 4 * n) 4 = (getAt 0 w.carryx n).toNat) ∧
  fr h 456 8 = w.age.ord.toNat ∧ fr h 464 4 = bit w.age.cls ∧ (∀ l, l < 32 → fr h (468 + l) 1 = (getAt 0 w.rep l).toNat)

/-- R318, R323, R329: what a frame holds of a warp, a reload of the same warp restores: in its LIVE lanes the PC, the call depth and
the repetition, the scalars, the masks, FLAGS, the SRK and draw counters, LIMBST, CARRYX, and the lanes of each register that was
not UNMAPPED. -/
def Obligations.FrameRestoresWarp : Prop :=
  ∀ (w : Warp) (bs : List Byte) (v : Nat → Lanes),
  bs.take 1024 = frameHeader w none false ++ (List.range 64).flatMap (fun n => natLe 8 (sGet w.regs n).toNat) →
  (∀ n, n < 56 → (vEntry w.regs n).st ≠ .unmapped → (bs.drop (1024 + 128 * n)).take 128 = laneBytes (v n)) →
  w.regs.flags.toNat < 64 → w.stackLim.toNat ≤ w.stackMax.toNat →
  let u := loadFrame { w with regs := {}, limbst := 0, carryx := [], pc := [], depth := [], rep := [] } bs
  u.exited = w.exited ∧ u.inHandler = false ∧ u.limbst = w.limbst ∧ u.stackLim = w.stackLim ∧
  (∀ l, l < 32 → laneBit w.exited l = false →
    getAt 0 u.pc l = getAt 0 w.pc l ∧ getAt 0 u.depth l = getAt 0 w.depth l ∧ getAt 0 u.rep l = getAt 0 w.rep l) ∧
  (∀ n, n < 64 → sGet u.regs n = sGet w.regs n) ∧ (∀ n, n < 16 → mGet u.regs n = mGet w.regs n) ∧
  u.regs.flags = w.regs.flags ∧ u.regs.q = w.regs.q ∧ u.regs.draw = w.regs.draw ∧
  (∀ n, n < 32 → getAt 0 u.carryx n = getAt 0 w.carryx n) ∧
  (∀ n, n < 56 → (vEntry w.regs n).st = .unmapped → (vEntry u.regs n).st = .unmapped) ∧
  (∀ n, n < 56 → (vEntry w.regs n).st ≠ .unmapped → (vEntry u.regs n).st = .mapped ∧
    ∀ l, l < 32 → lane (vGet u.regs n) l = lane (v n) l)

/-- R323: TRET, by a split of every LIVE lane of a warp in its handler with nothing under way, whose frame is in order and whose
registers the pool takes back, restores the frame and leaves the handler; outside a handler it is ILLEGAL; a smaller split and a
frame out of order are DOUBLE_TRAP. -/
def Obligations.TrapReturn : Prop :=
  ∀ g o (s s1 : State) (sh : Shape) (x : Iss), Issued (.tret g o) s sh s1 x →
  (x.w.inHandler = false → Sys2Proof.Machine.exec (.tret g o) s =
    .next (raiseIssue s1 x.w x.split x.act sh x.j x.chained x.pc .illegal none 0 0)) ∧
  (x.w.inHandler = true → x.split ≠ live x.w → Sys2Proof.Machine.exec (.tret g o) s =
    .next (ctxFault (setWarp s1 x.w) x.w.ctx .doubleTrap (some x.w.core) (some x.w.num) 0)) ∧
  (x.w.inHandler = true → x.split = live x.w → quiet x.w = true → x.w.stores = [] → x.w.relq = [] →
    ∀ bs, readFrame s1 x.w = .ok bs →
    (frameBad x.w bs = true → Sys2Proof.Machine.exec (.tret g o) s =
      .next (ctxFault (setWarp s1 x.w) x.w.ctx .doubleTrap (some x.w.core) (some x.w.num) 0)) ∧
    (frameBad x.w bs = false → ∀ s2 v,
      remap (setWarp s1 { x.w with regs := { x.w.regs with v := noRegs, order := [] } }) (loadFrame x.w bs) = .ok s2 v →
      ∃ t w', Sys2Proof.Machine.exec (.tret g o) s = .next t ∧ warpFind t x.w.ctx x.w.num = some w' ∧ t.issue = none ∧
        w'.inHandler = false ∧ w'.exited = x.w.exited ||| .ofNat 32 (fr bs 160 4) ∧
        (∀ l, l < 32 → laneBit x.w.exited l = false → getAt 0 w'.pc l = .ofNat 32 (fr bs (4 * l) 4) ∧
          getAt 0 w'.depth l = .ofNat 8 (fr bs (128 + l) 1) ∧ getAt 0 w'.rep l = .ofNat 6 (fr bs (468 + l) 1)) ∧
        (∀ n, n < 64 → sGet w'.regs n = .ofNat 64 (fr bs (512 + 8 * n) 8)) ∧
        (∀ n, 0 < n → n < 16 → mGet w'.regs n = .ofNat 32 (fr bs (264 + 4 * n) 4)) ∧
        w'.regs.flags = .ofNat 32 (fr bs 188 4 % 64) ∧ w'.limbst = .ofNat 3 (fr bs 220 4) ∧
        (∀ n, n < 56 → (vEntry w'.regs n).st = .mapped → ∀ l, l < 32 →
          lane (vGet w'.regs n) l = .ofNat 32 (leNat ((bs.drop (1024 + 128 * n + 4 * l)).take 4)))))

/-- R147, R149: the refill of a descheduled warp, once F covers its registers, a register that its held instruction is to map, and no
older warp waits, reads each SPILLED register
back from its slot of the backing area, and the warp goes on. -/
def Obligations.RefillReturnsRegisters : Prop :=
  ∀ (c n : Nat) (s t0 : State) (w v : Warp) (slot : Nat → List Byte), warpFind s c n = some w → w.desched = true →
  onCore w.core w = true →
  (∀ x ∈ residents s w.core, x.desched = true → older x w = true → x.ctx = c ∧ x.num = n) →
  max (spilledCount w.regs + bit (firstWrite s w)) w.floor ≤ freeRegs s w →
  (∀ r, r < 56 → (vEntry w.regs r).st = .spilled → devRead s c (backAddr s w + 128 * r) 128 = .ok (slot r)) →
  refillList s w (List.range 56) = .ok v → writeMap s v false = .ok t0 →
  ∃ t w', Sys2Proof.Machine.exec (.registerRefill c n) s = .next t ∧ warpFind t c n = some w' ∧
    w'.desched = false ∧ w'.noPrev = true ∧ Hold.refill ∉ w'.holds ∧ w'.pc = w.pc ∧
    (∀ r, r < 56 → (vEntry w.regs r).st = .spilled → (vEntry w'.regs r).st = .mapped ∧ ∀ l, l < 32 →
      lane (vGet w'.regs r) l = .ofNat 32 (leNat (((slot r).drop (4 * l)).take 4))) ∧
    (∀ r, r < 56 → (vEntry w.regs r).st ≠ .spilled → vEntry w'.regs r = vEntry w.regs r) ∧
    (∀ k, sGet w'.regs k = sGet w.regs k) ∧ (∀ k, mGet w'.regs k = mGet w.regs k)

/-! ## Memory access (08_access.md R187 to R209; 06_integer.md R172, R173; 04_thread.md R130 to R134) -/

namespace Sys2Proof.Claim

/-- A load of lanes from memory (R196 to R200, R46): the payload's fields, as this instruction reads them: destination, address
register, base, format, flag, and LDA's scope. -/
def loadForm (i : Instr) (c : Code) (d a : BitVec 6) (base fmt flag : Nat) (acq : Option Nat) : Prop :=
  (∃ g o0 o, i = .ld g o0 ∧ c.body = .LD o ∧ d = o.d ∧ a = o.a ∧ base = o.s.toNat ∧ flag = o.flag.toNat ∧ acq = none ∧
    fmt = (if c.major = 0x1E then o.fmt.toNat + 3 else if o.fmt = 3 then 7 else o.fmt.toNat)) ∨
  (∃ g o0 o, i = .ldByte g o0 ∧ c.body = .LD o ∧ d = o.d ∧ a = o.a ∧ base = o.s.toNat ∧ flag = o.flag.toNat ∧ acq = none ∧
    fmt = (if c.major = 0x1E then o.fmt.toNat + 3 else if o.fmt = 3 then 7 else o.fmt.toNat)) ∨
  (∃ g o0 o, i = .lda g o0 ∧ c.body = .LDA o ∧ d = o.d ∧ a = o.a ∧ base = o.s.toNat ∧ flag = o.flag.toNat ∧
    acq = some o.scope.toNat ∧ fmt = 0)

/-- A store of lanes to memory (R196 to R202): the data register, the address register, base, format, an STF's consumer. -/
def storeForm (i : Instr) (x : Iss) (d a : BitVec 6) (base fmt : Nat) (fwd : Option Nat) : Prop :=
  (∃ g o0 o, i = .st g o0 ∧ x.c.body = .ST o ∧ d = o.d ∧ a = o.a ∧ base = o.s.toNat ∧ fmt = o.fmt.toNat ∧ fwd = none) ∨
  (∃ g o0 o, i = .stf g o0 ∧ x.c.body = .STF o ∧ d = o.d ∧ a = o.a ∧ base = o.s.toNat ∧ fmt = 0 ∧
    fwd = some ((x.s o.cons.toNat).toNat % 256))

/-- The addresses of the lanes of ACTIVE (R187), in lane order. -/
def addresses (x : Iss) (base : Nat) (a : BitVec 6) : List (Nat × Nat) :=
  (lanesOf x.act).map (fun l => (l, ((x.s base).toNat + (lane (x.v a) l).toNat) % 2 ^ 64))

/-- The atomic operations (R207) on the old value, the operand and the comparand: for memory, and for the scratchpad. -/
def atomic : Instr → Option (Bool × (Word → Word → Word → Word))
  | .atomAdd _ _ => some (false, fun m v _ => .ofNat 32 (m.toNat + v.toNat))
  | .atomAnd _ _ => some (false, fun m v _ => m &&& v)
  | .atomOr _ _ => some (false, fun m v _ => m ||| v)
  | .atomXor _ _ => some (false, fun m v _ => m ^^^ v)
  | .atomMin _ _ => some (false, fun m v _ => lesser m v)
  | .atomMax _ _ => some (false, fun m v _ => greater m v)
  | .atomUmin _ _ => some (false, fun m v _ => .ofNat 32 (min m.toNat v.toNat))
  | .atomUmax _ _ => some (false, fun m v _ => .ofNat 32 (max m.toNat v.toNat))
  | .atomXchg _ _ => some (false, fun _ v _ => v)
  | .atomCas _ _ => some (false, fun m v c => if m = c then v else m)
  | .atomFadd _ _ => some (false, fun m v _ => (faddOp {} m v).1)
  | .atomSub _ _ => some (false, fun m v _ => .ofInt 32 (m.toInt - v.toInt))
  | .atomlAdd _ _ => some (true, fun m v _ => .ofNat 32 (m.toNat + v.toNat))
  | .atomlAnd _ _ => some (true, fun m v _ => m &&& v)
  | .atomlOr _ _ => some (true, fun m v _ => m ||| v)
  | .atomlXor _ _ => some (true, fun m v _ => m ^^^ v)
  | .atomlMin _ _ => some (true, fun m v _ => lesser m v)
  | .atomlMax _ _ => some (true, fun m v _ => greater m v)
  | .atomlUmin _ _ => some (true, fun m v _ => .ofNat 32 (min m.toNat v.toNat))
  | .atomlUmax _ _ => some (true, fun m v _ => .ofNat 32 (max m.toNat v.toNat))
  | .atomlXchg _ _ => some (true, fun _ v _ => v)
  | .atomlCas _ _ => some (true, fun m v c => if m = c then v else m)
  | .atomlFadd _ _ => some (true, fun m v _ => (faddOp {} m v).1)
  | .atomlSub _ _ => some (true, fun m v _ => .ofInt 32 (m.toInt - v.toInt))
  | _ => none

/-- A group of operations in lane order on bytes of a scratchpad (R192, R207): its bytes afterwards and each lane's old value. -/
def scratchAtomics (f : Word → Word → Word → Word) (v c : Lanes) (m : List Host.Cell) : List (Nat × Nat) → List Host.Cell × List (Nat × Word)
  | [] => (m, [])
  | (l, a) :: r =>
    let old : Word := .ofNat 32 (leNat (memRead m a 4))
    let rest := scratchAtomics f v c (memWrite m a (natLe 4 (f old (lane v l) (lane c l)).toNat)) r
    (rest.1, (l, old) :: rest.2)

/-- What the machine's side of a group of stores is (R191, R198): the memory, the L1s, the slices and the messages, as `storeWords`
leaves them. -/
def StoredAs (s2 t : State) : Prop :=
  t.mem = s2.mem ∧ t.slices = s2.slices ∧ t.l1 = s2.l1 ∧ t.net = s2.net ∧
  t.blocks = s2.blocks ∧ t.copies = s2.copies ∧ t.tasks = s2.tasks

end Sys2Proof.Claim

/-- R187 to R200: LD of every format and LDA, in lanes whose accesses pass the checks of R189, with the flag's count below 63: the
operation is out with its lanes; a lane whose word the core holds has its element already, widened (R59); nothing of memory, L1s or
slices changes; LDA's later accesses wait for its acquire (R200). -/
def Obligations.LoadsIssue : Prop :=
  ∀ (i : Instr) (s s1 : State) (sh : Shape) (x : Iss) (d a : BitVec 6) (base fmt flag : Nat) (acq : Option Nat),
  Issued i s sh s1 x → loadForm i x.c d a base fmt flag acq → x.act ≠ 0 → getAt 0 x.w.f flag < 63 →
  ∀ es, gate s1 x.w { size := fmtBytes fmt, align := fmtBytes fmt, rd := true, wr := false, kind := kLoad, plain := acq.isNone }
    (addresses x base a) = .go s1 es → behindOwn s1 x.w es = false →
  ∃ t w' op, Sys2Proof.Machine.exec i s = .next t ∧ Leaves sh x t w' [d.toNat] [] [] 0 ∧ Steps x w' ∧ GoesOut sh x s1 w' op ∧
    op.kind = .load fmt acq ∧ op.flag = some flag ∧ op.vdst = (if d = 60 then none else some d.toNat) ∧ op.lanes = x.written ∧
    op.srcs = es.map (fun e => ⟨e.1, physOf e.2.2 e.2.1 / 4, e.2.1 % 4⟩) ∧
    (∀ l, laneBit x.written l = true → laneBit x.act l = false → getAt none op.vals l = some 0) ∧
    (∀ held : Nat → Word, (∀ e ∈ es, findWord s1 x.w e.2.2 (e.2.1 / 4 * 4) (neededBytes es (fmtBytes fmt) (e.2.1 / 4 * 4)) =
        .val (held (physOf e.2.2 e.2.1 / 4))) →
      ∀ l va e, es.find? (fun y => y.1 == l) = some (l, va, e) → getAt none op.vals l =
        some (widen fmt ((held (physOf e va / 4)).toNat / 256 ^ (va % 4) % 256 ^ fmtBytes fmt))) ∧
    (∀ sc, acq = some sc → ∃ q, w'.acq = some q ∧ sc ≤ q.scope ∧ op.id ∈ q.ops) ∧
    t.mem = s1.mem ∧ t.slices = s1.slices ∧ t.l1 = s1.l1 ∧ t.blocks = s1.blocks

/-- R140, R183, R207, R227, R228: the landing of an SFU function, an atomic, or the oldest long-integer instruction out of its warp,
whose values are known.

R140, R172, R196 to R200, R203: the landing of a load whose words have all come: its lanes, or an SLD's doubleword in its scalar. -/
def Obligations.ResultsLand : Prop :=
  (∀ (c n id : Nat) (s : State) (w : Warp) (p : POp), warpFind s c n = some w → w.pend.find? (fun q => q.id == id) = some p →
  dataHere p = true → w.trapping = none →
  ∀ i, (i = .sfuResultLands c n id ∧ p.kind = .sfu ∨ i = .longResultLands c n id ∧ p.kind = .long ∨
    i = .atomicResultLands c n id ∧ p.kind = .atom) →
  (p.kind = .long → w.pend.find? (fun q => q.kind == .long) = some p) →
  ∃ t w', Sys2Proof.Machine.exec i s = .next t ∧ warpFind t c n = some w' ∧ HasLanded w p w' ∧
    (∀ k, (∀ q ∈ p.mres, q.1 ≠ k) → mGet w'.regs k = mGet w.regs k) ∧ (∀ k, sGet w'.regs k = sGet w.regs k) ∧
    w'.pc = w.pc ∧ (∀ a, cohByte t a = cohByte s a)) ∧
  (∀ (c n id : Nat) (s : State) (w : Warp) (p : POp), warpFind s c n = some w → w.pend.find? (fun q => q.id == id) = some p →
  dataHere p = true → w.trapping = none → ((∃ fmt acq, p.kind = .load fmt acq) ∨ p.kind = .sld ∨ ∃ fmt, p.kind = .scratch fmt) →
  ∃ t w', Sys2Proof.Machine.exec (.loadDataLands c n id []) s = .next t ∧ warpFind t c n = some w' ∧ HasLanded w p w' ∧
    (∀ k, (p.kind ≠ .sld ∨ p.sdst ≠ some k) → sGet w'.regs k = sGet w.regs k) ∧
    (∀ k a b lo hi, p.kind = .sld → p.sdst = some k → p.srcs = [a, b] → getKey a.wa p.words = some (some lo) →
      getKey b.wa p.words = some (some hi) → sGet w'.regs k = .ofNat 64 (lo.toNat + 2 ^ 32 * hi.toNat)) ∧
    (∀ k, (∀ q ∈ p.mres, q.1 ≠ k) → mGet w'.regs k = mGet w.regs k) ∧ w'.pc = w.pc ∧ t.mem = s.mem ∧ t.slices = s.slices)

/-- R60 to R62, R187 to R202: ST of every format and STF, in lanes whose accesses pass the checks of R189: no register changes; the
bytes of the lanes, narrowed, go to the words that `gatherStores` makes of the lanes' addresses, as `storeWords` stores them; FLAGS
takes what narrowing the lanes of ACTIVE sets. -/
def Obligations.StoresIssue : Prop :=
  ∀ (i : Instr) (s s1 s2 : State) (sh : Shape) (x : Iss) (d a : BitVec 6) (base fmt : Nat) (fwd : Option Nat) (w2 : Warp),
  Issued i s sh s1 x → storeForm i x d a base fmt fwd → x.act ≠ 0 →
  ∀ es, gate s1 x.w { size := fmtBytes fmt, align := fmtBytes fmt, rd := false, wr := true, stf := fwd.isSome, kind := kStore, plain := true }
    (addresses x base a) = .go s1 es → anyPending s1 x.w es = false →
  let code (l : Nat) := narrow fmt (roundingAt s1 x l) (match x.c.grp.pfx with | some p => p.sat | none => false) (lane (x.v d) l)
  storeWords s1 x.w fwd (gatherStores (fmtBytes fmt) (fun l => (code l).1) es) = (s2, w2) →
  ∃ t w' fl, Sys2Proof.Machine.exec i s = .next t ∧ Leaves sh x t w' [] [] [] fl ∧ Steps x w' ∧ SetsFlags x fl (fun l => (code l).2) ∧
    StoredAs s2 t ∧ (x.w.stepSet = none → t.conns = s2.conns) ∧ w'.stack = w2.stack ∧ w'.stores = w2.stores ∧
    w'.regs.q = x.w.regs.q + (if 1 ≤ fmt ∧ fmt ≤ 4 ∧ (roundingAt s1 x 0).mode = 5 then 1 else 0)

/-- R133, R198, R250, R262: one store of bytes of a word, by where the word is: on a page of the private window, in the stack cache,
at once and for this warp only; in an L1 word REGISTERED under the warp's tag, there; else the word is PENDING in the L1 under the
stored bytes, and a registration goes to its home slice. An STF to the private window does both (R133, R262). No other word reads
differently; what the loads in flight of the core would install of the word, they install no more. -/
def Obligations.StoreOfOneWord : Prop :=
  ∀ (s : State) (w : Warp) (stf : Option Nat) (va : Nat) (e : BitVec 64) (m : BitVec 4) (v : Word), leafKind e = 0 →
  let k := physOf e va / 4
  let own := ownerOf s w.core
  let r := storeWord s w stf va e m v
  (inPriv w va = true → stf = none →
    stackRows (putKey (va / 4 * 4) (overlay (privRead s w va (leafPa e va)) v m) w.stack) ≤ 32 →
    r.1 = s ∧ privRead s r.2 va (leafPa e va) = overlay (privRead s w va (leafPa e va)) v m ∧
    (∀ j, j ≠ va / 4 * 4 → getKey j r.2.stack = getKey j w.stack) ∧ r.2.stores = w.stores) ∧
  ((inPriv w va = false ∨ stf ≠ none ∧
      stackRows (putKey (va / 4 * 4) (overlay (privRead s w va (leafPa e va)) v m) w.stack) ≤ 32) →
    (∀ y, l1Find s.l1 own k = some y → y.st = .registered → stf = none → leafC e = true → y.tag = storeTag s w →
      l1Find r.1.l1 own k = some { y with val := overlay y.val v m, mask := y.mask ||| m } ∧
        r.2 = withoutFill own k w ∧ r.1.net = s.net) ∧
    ((∀ y, l1Find s.l1 own k = some y → y.st = .registered → stf ≠ none ∨ leafC e = false ∨ y.tag ≠ storeTag s w) →
      ∃ y msg, l1Find r.1.l1 own k = some y ∧ y.st = .pending ∧ y.val = overlay 0 v m ∧ y.mask = m ∧ y.tag = storeTag s w ∧
        r.2.stores = w.stores ++ [⟨msg.id, va, k, 0⟩] ∧ msg.owner = own ∧
        msg.kind = .register [(k, m, v)] (storeTag s w) w.ctx (stf.isSome || !leafC e) stf ∧ msg ∈ r.1.net) ∧
    (∀ o j, o ≠ own ∨ j ≠ k → l1Find r.1.l1 o j = l1Find s.l1 o j) ∧ r.1.mem = s.mem ∧ r.1.slices = s.slices ∧
    (∀ j, j ≠ k → cohWord r.1 j = cohWord s j) ∧ (inPriv w va = false → r.2.stack = w.stack) ∧
    (inPriv w va = true → getKey (va / 4 * 4) r.2.stack = some (overlay (privRead s w va (leafPa e va)) v m) ∧
      ∀ j, j ≠ va / 4 * 4 → getKey j r.2.stack = getKey j w.stack))

/-- R199, R201: STR, in lanes whose accesses pass the checks of R189, stores its words at once when its release has nothing to wait
for; else it waits with them for its release action. -/
def Obligations.ReleasingStores : Prop :=
  ∀ g o0 (s s1 s2 : State) (sh : Shape) (x : Iss) (o : OpsSTR) (w2 : Warp), Issued (.str g o0) s sh s1 x → x.c.body = .STR o →
  x.act ≠ 0 → ∀ es, gate s1 x.w { size := 4, align := 4, rd := false, wr := true, kind := kStore } (addresses x o.s.toNat o.a) = .go s1 es →
  anyPending s1 x.w es = false →
  let ws := gatherStores 4 (fun l => (lane (x.v o.d) l).toNat) es
  (releaseReady s1 x.w o.scope.toNat = true → storeWords s1 x.w none ws = (s2, w2) →
    ∃ t w', Sys2Proof.Machine.exec (.str g o0) s = .next t ∧ Leaves sh x t w' [] [] [] 0 ∧ Steps x w' ∧ StoredAs s2 t ∧
      w'.stack = w2.stack ∧ w'.stores = w2.stores) ∧
  (releaseReady s1 x.w o.scope.toNat = false →
    ∃ t w' r, Sys2Proof.Machine.exec (.str g o0) s = .next t ∧ Completes sh x s1 t w' [] [] [] 0 ∧ w'.relq = x.w.relq ++ [r] ∧
      r.scope = o.scope.toNat ∧ r.behind = queuedStores x.w none ∧ (r.ops, r.stores) = releaseList s1 x.w o.scope.toNat none ∧
      r.cont = .stores (ws.map (fun y => (y.1, physOf y.2.1 y.1 / 4, y.2.1, y.2.2.1, y.2.2.2))) ∧ w'.stores = x.w.stores)

/-- R192, R206 to R209, R276: an atomic of memory, in lanes whose accesses pass the checks of R189 and after its release if it has
one, holds its warp for the old values. Words in memory are asked of their home slices, each with its lanes in lane order; words of
the private window are changed at once, lane after lane. -/
def Obligations.MemoryAtomicsIssue : Prop :=
  ∀ (i : Instr) (f : Word → Word → Word → Word), atomic i = some (false, f) →
  ∀ (s s1 : State) (sh : Shape) (x : Iss) (o : OpsAT), Issued i s sh s1 x → x.c.body = .AT o → x.act ≠ 0 →
  ∀ es, gate s1 x.w { size := 4, align := 4, rd := true, wr := true, atom := true, kind := kAtomic }
    ((lanesOf x.act).map (fun l => (l, (lane (x.v o.b) l).toNat * 2 ^ 32 + (lane (x.v o.a) l).toNat))) = .go s1 es →
  anyPending s1 x.w es = false → (ordRel (atomOrder x.c).1 = true → releaseReady s1 x.w (atomOrder x.c).2 = true) →
  let ws := gatherAtoms (x.v o.d) x.cv es
  ((∀ e ∈ es, leafKind e.2.2 = 0 ∧ inPriv x.w e.2.1 = false) →
    ∃ t w' op aop, Sys2Proof.Machine.exec i s = .next t ∧ (∀ m v c, atomOp aop m v c = f m v c) ∧
      Leaves sh x t w' [o.d.toNat] [] [] 0 ∧ Steps x w' ∧ GoesOut sh x s1 w' op ∧ op.kind = .atom ∧ op.flag = none ∧
      .op op.id ∈ w'.holds ∧ op.lanes = x.written ∧
      (∀ y ∈ ws, ∃ msg, msg.owner = ownerOf s1 x.w.core ∧
        msg.kind = .atomic x.w.ctx x.w.num op.id aop (leafPa y.2.1 y.1 / 4) y.2.2 ∧ msg ∈ t.net) ∧
      t.mem = s1.mem ∧ t.slices = s1.slices ∧ t.l1 = s1.l1 ∧ w'.stack = x.w.stack) ∧
  ((∀ e ∈ es, leafKind e.2.2 = 0 ∧ inPriv x.w e.2.1 = true) → stackRows x.w.stack + (lanesOf x.act).length ≤ 32 →
    ∃ t w' op, Sys2Proof.Machine.exec i s = .next t ∧ Leaves sh x t w' [o.d.toNat] [] [] 0 ∧ Steps x w' ∧ GoesOut sh x s1 w' op ∧
      op.kind = .atom ∧ op.lanes = x.written ∧ (∀ a, cohByte t a = cohByte s1 a) ∧
      (∀ y ∈ ws, getKey y.1 w'.stack =
        some (y.2.2.foldl (fun m it => f m it.2.1 it.2.2) (privRead s1 x.w y.1 (leafPa y.2.1 y.1)))) ∧
      (∀ y ∈ ws, ∀ before it after, y.2.2 = before ++ it :: after → getAt none op.vals it.1 =
        some (before.foldl (fun m it => f m it.2.1 it.2.2) (privRead s1 x.w y.1 (leafPa y.2.1 y.1)))) ∧
      (∀ j, (∀ y ∈ ws, y.1 ≠ j) → getKey j w'.stack = getKey j x.w.stack))

/-- R192, R203, R204, R206, R207: in lanes whose offsets pass the checks of R189, with no earlier scratchpad write under way: LDL's
lanes take their elements, widened; ATOML applies its lanes to the bytes in lane order and returns the old values; STL's bytes are
on their way. -/
def Obligations.ScratchpadAccess : Prop :=
  (∀ g o0 (s s1 : State) (sh : Shape) (x : Iss) (o : OpsLDL) (b : Block), Issued (.ldl g o0) s sh s1 x → x.c.body = .LDL o →
    x.act ≠ 0 → blockOf s1 x.w = some b → b.scrq = [] → running x.w = true → getAt 0 x.w.f o.flag.toNat < 63 →
    let fmt := if o.fmt = 0 then 0 else if o.fmt = 1 then 1 else if o.fmt = 2 then 3 else 5
    let as := (lanesOf x.act).map (fun l => (l, ((lane (x.v o.a) l).toNat + 4 * o.off.toNat) % 2 ^ 32))
    memHeld x.w [] 0 = false → lanesFlying s1 x.w as (fmtBytes fmt) = false →
    (∀ p ∈ as, p.2 % fmtBytes fmt = 0 ∧ p.2 + fmtBytes fmt ≤ b.scrLen) →
    ∃ t w' op, Sys2Proof.Machine.exec (.ldl g o0) s = .next t ∧ Leaves sh x t w' [o.d.toNat] [] [] 0 ∧ Steps x w' ∧
      GoesOut sh x s1 w' op ∧ op.kind = .scratch fmt ∧ op.flag = some o.flag.toNat ∧ op.lanes = x.written ∧
      op.vdst = (if o.d = 60 then none else some o.d.toNat) ∧
      (∀ p ∈ as, getAt none op.vals p.1 = some (widen fmt (leNat (memRead b.scr p.2 (fmtBytes fmt))))) ∧
      t.blocks = s1.blocks ∧ (∀ a, cohByte t a = cohByte s1 a)) ∧
  (∀ g o0 (s s1 : State) (sh : Shape) (x : Iss) (o : OpsSTL) (b : Block), Issued (.stl g o0) s sh s1 x → x.c.body = .STL o →
    x.act ≠ 0 → blockOf s1 x.w = some b → memHeld x.w [] 0 = false →
    let as := (lanesOf x.act).map (fun l => (l, ((lane (x.v o.a) l).toNat + 4 * o.off.toNat) % 2 ^ 32))
    let n := fmtBytes o.fmt.toNat
    let code (l : Nat) := narrow o.fmt.toNat (roundingAt s1 x l) (match x.c.grp.pfx with | some p => p.sat | none => false)
      (lane (x.v o.d) l)
    lanesFlying s1 x.w as n = false → (∀ p ∈ as, p.2 % n = 0 ∧ p.2 + n ≤ b.scrLen) →
    ∃ t w' fl b', Sys2Proof.Machine.exec (.stl g o0) s = .next t ∧ Leaves sh x t w' [] [] [] fl ∧ Steps x w' ∧ KeepsRest x w' ∧
      SetsFlags x fl (fun l => (code l).2) ∧ blockFind t b.ctx b.num = some b' ∧
      b' = { b with scrq := b.scrq ++ [.bytes x.w.num (as.flatMap (fun p =>
        (List.range n).map (fun j => (p.2 + j, BitVec.ofNat 8 ((code p.1).1 / 256 ^ j)))))] } ∧
      (∀ a, cohByte t a = cohByte s1 a)) ∧
  (∀ (i : Instr) (f : Word → Word → Word → Word), atomic i = some (true, f) →
    ∀ (s s1 : State) (sh : Shape) (x : Iss) (o : OpsAT) (b : Block), Issued i s sh s1 x → x.c.body = .AT o →
    x.act ≠ 0 → blockOf s1 x.w = some b → b.scrq = [] → running x.w = true → memHeld x.w [] 0 = false →
    let as := (lanesOf x.act).map (fun l => (l, (lane (x.v o.a) l).toNat % 2 ^ 32))
    lanesFlying s1 x.w as 4 = false → (∀ p ∈ as, p.2 % 4 = 0 ∧ p.2 + 4 ≤ b.scrLen) →
    (ordRel (atomOrder x.c).1 = true → releaseReady s1 x.w (min (atomOrder x.c).2 2) = true) →
    ∃ t w' op b', Sys2Proof.Machine.exec i s = .next t ∧ Leaves sh x t w' [o.d.toNat] [] [] 0 ∧ Steps x w' ∧
      GoesOut sh x s1 w' op ∧ op.kind = .atom ∧ op.flag = none ∧ .op op.id ∈ w'.holds ∧ op.lanes = x.written ∧
      blockFind t b.ctx b.num = some b' ∧ b' = { b with scr := (scratchAtomics f (x.v o.d) x.cv b.scr as).1 } ∧
      (∀ p ∈ (scratchAtomics f (x.v o.d) x.cv b.scr as).2, getAt none op.vals p.1 = some p.2) ∧
      (∀ a, cohByte t a = cohByte s1 a))

/-- R172, R173, R193: SLD goes out for the two words of its doubleword and holds its warp, or takes both from the core where they stand
there as one access left them; SST stores the two words of its scalar as
`storePair` does; an address that is not a multiple of 8 is MISALIGNED. -/
def Obligations.ScalarMemory : Prop :=
  (∀ g o0 (s s1 : State) (sh : Shape) (x : Iss) (o : OpsS) (va : Nat) (e : BitVec 64), Issued (.sld g o0) s sh s1 x → x.c.body = .S o →
    gate s1 x.w { size := 8, align := 8, rd := true, wr := false, kind := kLoad, plain := true }
      [(0, ((x.s o.sa.toNat).toNat + o.sb.toNat * 8) % 2 ^ 64)] = .go s1 [(0, va, e)] →
    anyPending s1 x.w [(0, va, e), (0, va + 4, e)] = false →
    loadsWord x.w (physOf e va / 4) = false → loadsWord x.w (physOf e (va + 4) / 4) = false →
    ∃ t w' op, Sys2Proof.Machine.exec (.sld g o0) s = .next t ∧ Leaves sh x t w' [] [] [] 0 ∧ Steps x w' ∧ GoesOut sh x s1 w' op ∧
      op.kind = .sld ∧ op.vdst = none ∧ op.sdst = some o.sd.toNat ∧ op.flag = none ∧ .op op.id ∈ w'.holds ∧
      op.srcs = [⟨0, physOf e va / 4, 0⟩, ⟨0, physOf e (va + 4) / 4, 0⟩] ∧
      (∀ lo hi, pairHere s1 x.w e va = true →
        findWord s1 x.w e (va / 4 * 4) 15#4 = .val lo → findWord s1 x.w e ((va + 4) / 4 * 4) 15#4 = .val hi →
        physOf e va / 4 ≠ physOf e (va + 4) / 4 →
        getKey (physOf e va / 4) op.words = some (some lo) ∧ getKey (physOf e (va + 4) / 4) op.words = some (some hi)) ∧
      t.mem = s1.mem ∧ t.slices = s1.slices ∧ t.l1 = s1.l1) ∧
  (∀ g o0 (s s1 s2 : State) (sh : Shape) (x : Iss) (o : OpsS) (va : Nat) (e : BitVec 64) (w2 : Warp), Issued (.sst g o0) s sh s1 x →
    x.c.body = .S o →
    gate s1 x.w { size := 8, align := 8, rd := false, wr := true, kind := kStore, plain := true }
      [(0, ((x.s o.sa.toNat).toNat + o.sb.toNat * 8) % 2 ^ 64)] = .go s1 [(0, va, e)] →
    anyPending s1 x.w [(0, va, e), (0, va + 4, e)] = false →
    storePair s1 x.w va e (.ofNat 32 (x.s o.sd.toNat).toNat) (.ofNat 32 ((x.s o.sd.toNat).toNat / 2 ^ 32)) = (s2, w2) →
    ∃ t w', Sys2Proof.Machine.exec (.sst g o0) s = .next t ∧ Leaves sh x t w' [] [] [] 0 ∧ Steps x w' ∧ StoredAs s2 t ∧
      w'.stack = w2.stack ∧ w'.stores = w2.stores) ∧
  (∀ (i : Instr), (∃ g o0, i = .sld g o0 ∨ i = .sst g o0) → ∀ (s s1 : State) (sh : Shape) (x : Iss) (o : OpsS), Issued i s sh s1 x →
    x.c.body = .S o → ∀ ea, ea = ((x.s o.sa.toNat).toNat + o.sb.toNat * 8) % 2 ^ 64 → ea < 2 ^ 57 → ea % 8 ≠ 0 →
    memHeld x.w [ea] 8 = false → Sys2Proof.Machine.exec i s =
      .next (raiseIssue s1 x.w x.split x.act sh x.j x.chained x.pc .misaligned none (.ofNat 64 ea) 0))

/-- R187, R189, R194, R289, R297: the checks of an access in their order, each at its lowest lane: an address beyond 57 bits is
TRANSLATION, a misaligned one MISALIGNED, one above the private window's limit STACK_LIMIT; a page that the core has not translated
is asked for; a leaf without the right, or a table that cannot be read, is PROTECTION; a page that is not present is waited for, and
by a write the collapse of a REPLICATED one (R292); else the access goes on, with no watchpoint armed and the race filter off.

R190, R196, R202, R203: a load or store of memory or scratchpad with no lane in ACTIVE touches nothing: under mz a load writes
zero to the split's lanes of its destination; else only the PC moves, and the SRK counter of a store that rounds so (R52). -/
def Obligations.AccessChecks : Prop :=
  (∀ (s : State) (w : Warp) (k : Want) (as : List (Nat × Nat)), memHeld w (as.map (fun p => p.2)) k.size = false →
  (∀ before l a after, as = before ++ (l, a) :: after → 2 ^ 57 ≤ a → (∀ p ∈ before, p.2 < 2 ^ 57) →
    gate s w k as = .cause .translation l a 0) ∧
  ((∀ p ∈ as, p.2 < 2 ^ 57) →
    (∀ before l a after, as = before ++ (l, a) :: after → a % k.align ≠ 0 → (∀ p ∈ before, p.2 % k.align = 0) →
      gate s w k as = .cause .misaligned l a 0) ∧
    ((∀ p ∈ as, p.2 % k.align = 0) →
      (∀ before l a after, as = before ++ (l, a) :: after → overStack w a k.size = true →
        (∀ p ∈ before, overStack w p.2 k.size = false) → gate s w k as = .cause .stackLimit l a 0) ∧
      ((∀ p ∈ as, overStack w p.2 k.size = false) →
        ((∃ p ∈ as, xlateOf s w p.2 = none) → ∃ ps, gate s w k as = .wait s { w with holds := .xlate ps :: w.holds } ∧
          ∀ q, q ∈ ps ↔ ∃ p ∈ as, xlateOf s w p.2 = none ∧ p.2 / 4096 = q) ∧
        ((∀ p ∈ as, (xlateOf s w p.2).isSome) →
          (∀ before l a after, as = before ++ (l, a) :: after →
            (xlateOf s w a = some .refused ∨ ∃ e, xlateOf s w a = some (.leaf e) ∧ leafKind e = 0 ∧
              ((k.rd = true ∧ leafR e = false) ∨ (k.wr = true ∧ leafW e = false))) →
            (∀ p ∈ before, ∀ e', xlateOf s w p.2 = some (.leaf e') → leafCause s w.ctx k e' p.2 = none) →
            (∀ p ∈ before, xlateOf s w p.2 ≠ some .unresolvable ∧ xlateOf s w p.2 ≠ some .refused) →
            gate s w k as = .cause .protection l a 0) ∧
          ((∀ p ∈ as, xlateOf s w p.2 ≠ some .unresolvable ∧ xlateOf s w p.2 ≠ some .refused) →
            (∀ p ∈ as, ∀ e, xlateOf s w p.2 = some (.leaf e) → leafCause s w.ctx k e p.2 = none) →
            ((∃ p ∈ as, ∃ lv, xlateOf s w p.2 = some (.notPresent lv)) →
              ∃ t keys, gate s w k as =
                .wait t { w with holds := .fault keys :: w.holds, attempt := { w.attempt with xlate := [] } } ∧
                ∀ q, q ∈ keys ↔ ∃ p ∈ as, ∃ lv, xlateOf s w p.2 = some (.notPresent lv) ∧
                  q = faultKey lv p.2) ∧
            ((∀ p ∈ as, ∃ e, xlateOf s w p.2 = some (.leaf e)) → (∀ n, n < 8 → (getAt 0 (ctxOf s w.ctx).wpctl n).getLsbD 31 = false) →
              ((k.wr = true ∧ ∃ p ∈ as, ∃ e, xlateOf s w p.2 = some (.leaf e) ∧ leafKind e = 0 ∧ mustCollapse s w.ctx p.2 e = true) →
                ∃ t, gate s w k as = .wait t (retryHold w)) ∧
              ((k.wr = true → ∀ p ∈ as, ∀ e, xlateOf s w p.2 = some (.leaf e) → leafKind e = 0 → mustCollapse s w.ctx p.2 e = false) →
              raceOn s w = false → w.attempt.raced = [] →
              ∃ es, gate s w k as = .go s es ∧ es.map (fun y => (y.1, y.2.1)) = as ∧
                ∀ y ∈ es, xlateOf s w y.2.1 = some (.leaf y.2.2))))))))) ∧
  ((∀ (i : Instr) (s s1 : State) (sh : Shape) (x : Iss) (d : BitVec 6), Issued i s sh s1 x → x.act = 0 →
    ((∃ a base fmt flag, loadForm i x.c d a base fmt flag none) ∨ ∃ g o0 o, i = .ldl g o0 ∧ x.c.body = .LDL o ∧ d = o.d) →
    ∃ t w', Sys2Proof.Machine.exec i s = .next t ∧ KeepsRest x w' ∧
      (x.mz = false → Completes sh x s1 t w' [] [] [] 0) ∧
      (x.mz = true → d ≠ 60 → Completes sh x s1 t w' [d.toNat] [] [] 0 ∧
        ∀ l, laneBit x.split l = true → lane (vGet w'.regs d.toNat) l = 0)) ∧
  (∀ (i : Instr) (s s1 : State) (sh : Shape) (x : Iss) (fmt : Nat), Issued i s sh s1 x → x.act = 0 →
    ((∃ d a base fwd, storeForm i x d a base fmt fwd) ∨ ∃ g o0 o, i = .stl g o0 ∧ x.c.body = .STL o ∧ fmt = o.fmt.toNat) →
    ∃ t w', Sys2Proof.Machine.exec i s = .next t ∧ Completes sh x s1 t w' [] [] [] 0 ∧ KeepsRest x w' ∧
      w'.regs.q = x.w.regs.q + (if 1 ≤ fmt ∧ fmt ≤ 4 ∧ (roundingAt s1 x 0).mode = 5 then 1 else 0)))

/-- R204, R404, R417: the oldest write on its way to a block's scratchpad takes effect, in a block with no split parked: the bytes of
an STL one after another; SYNCI's word OPEN with its target, no arrivals and the generation it had; RINGI's pointers zero, its
configuration, and the word of each slot OPEN for a slot's bytes. Every other byte is as before. -/
def Obligations.ScratchpadWritesLand : Prop :=
  ∀ (c bn : Nat) (s : State) (b : Block) (q : ScrWrite) (rest : List ScrWrite), blockFind s c bn = some b → b.scrq = q :: rest →
  Memory.wf b.scr = true → (∀ w ∈ s.warps, w.ctx = c → w.blk = some bn → w.parked = []) →
  ∃ t b', Sys2Proof.Machine.exec (.scratchpadWriteDone c bn) s = .next t ∧ blockFind t c bn = some b' ∧ b'.scrq = rest ∧
    t.warps = s.warps ∧ (∀ a, cohByte t a = cohByte s a) ∧
    (∀ n bs, q = .bytes n bs → b'.scr = bs.foldl (fun m p => memWrite m p.1 [p.2]) b.scr) ∧
    (∀ n off target, q = .synci n off target → target < 2 ^ 20 →
      leNat (memRead b'.scr off 8) = leNat (memRead b.scr off 8) / 2 ^ 40 % 2 ^ 22 * 2 ^ 40 + target * 2 ^ 20 ∧
      ∀ a, (a < off ∨ off + 8 ≤ a) → memGet b'.scr a = memGet b.scr a) ∧
    (∀ n h cfg, q = .ringi n h cfg → leNat (memRead b'.scr h 8) = 0 ∧
      leNat (memRead b'.scr (h + 8) 8) = cfg.toNat / 65536 * 65536 + cfg.toNat % 16 ∧
      (∀ k, k ≤ cfg.toNat % 16 → leNat (memRead b'.scr (h + 16 + 8 * k) 8) = cfg.toNat / 65536 % 65536 * 64 * 2 ^ 20) ∧
      ∀ a, (a < h ∨ h + 24 + 8 * (cfg.toNat % 16) ≤ a) → memGet b'.scr a = memGet b.scr a)

/-! ## Ordering (13_consistency.md R267, R276 to R280) -/

/-- R278 to R280: a fence issues when none of its warp is in progress. FENCE, FENCER, REL and RELR begin a release action over the
loads and stores that `releaseList` gives and the stores of each STR still to go out, of their range for the ranged ones; FENCE, REL and RELR hold all later accesses until
it is done, FENCER those of its range, and FENCE's acquire follows; ACQ and ACQR begin an acquire action that waits for the
loads out. At thread and warp scope each is complete at once. -/
def Obligations.FencesIssue : Prop :=
  ∀ (i : Instr) (s s1 : State) (sh : Shape) (x : Iss) (o : OpsF), Issued i s sh s1 x → x.c.body = .F o →
  (∃ g o0, i = .fence g o0 ∨ i = .fencer g o0 ∨ i = .acq g o0 ∨ i = .acqr g o0 ∨ i = .rel g o0 ∨ i = .relr g o0) →
  let range : Range := ⟨x.s o.sa.toNat, x.s o.sb.toNat⟩
  let lists (r : Option Range) := releaseList s1 x.w o.scope.toNat r
  (o.scope.toNat ≤ 1 → ∃ t w', Sys2Proof.Machine.exec i s = .next t ∧ Completes sh x s1 t w' [] [] [] 0 ∧ KeepsRest x w' ∧
    w'.rel = x.w.rel ∧ w'.acq = x.w.acq) ∧
  (1 < o.scope.toNat → x.w.rel = none → x.w.acq = none →
    ∃ t w', Sys2Proof.Machine.exec i s = .next t ∧ Completes sh x s1 t w' [] [] [] 0 ∧ KeepsRest x w' ∧
      (∀ g o0, i = .fence g o0 → w'.acq = none ∧
        w'.rel = some ⟨s1.fresh, queuedStores x.w none, o.scope.toNat, (lists none).1, (lists none).2, .none, some o.scope.toNat, some none⟩) ∧
      (∀ g o0, i = .fencer g o0 → w'.acq = none ∧
        w'.rel = some ⟨s1.fresh, queuedStores x.w (some range), o.scope.toNat, (lists (some range)).1, (lists (some range)).2, .none, none, some (some range)⟩) ∧
      (∀ g o0, i = .rel g o0 → w'.acq = none ∧
        w'.rel = some ⟨s1.fresh, queuedStores x.w none, o.scope.toNat, (lists none).1, (lists none).2, .none, none, some none⟩) ∧
      (∀ g o0, i = .relr g o0 → w'.acq = none ∧
        w'.rel = some ⟨s1.fresh, queuedStores x.w (some range), o.scope.toNat, (lists (some range)).1, (lists (some range)).2, .none, none, some none⟩) ∧
      (∀ g o0, i = .acq g o0 → w'.rel = none ∧ w'.acq =
        some ⟨o.scope.toNat, (x.w.pend.filter isLoad).map (fun p => p.id), none, false⟩) ∧
      (∀ g o0, i = .acqr g o0 → w'.rel = none ∧ w'.acq =
        some ⟨o.scope.toNat, (x.w.pend.filter isLoad).map (fun p => p.id), some range, false⟩))

/-- R200, R201, R255, R257, R267, R279: an acquire action whose loads have landed makes the VALID words of its core's L1 INVALID,
those of its range only for ACQR, at cluster scope unless the core is fused and at any wider scope, and leaves REGISTERED and
PENDING words; a release action with nothing left to wait for ends, and FENCE's acquire begins; an STR's stores go out, and a release
behind it waits for them. -/
def Obligations.FenceActionsEnd : Prop :=
  (∀ (c n : Nat) (s : State) (w : Warp) (q : AcqAct), warpFind s c n = some w → w.acq = some q → w.trapping = none →
    (∀ id ∈ q.ops, ∀ p ∈ w.pend, p.id ≠ id) →
    ∃ t w', Sys2Proof.Machine.exec (.acquireActionDone c n) s = .next t ∧ warpFind t c n = some w' ∧ w' = { w with acq := none } ∧
      t.mem = s.mem ∧ t.slices = s.slices ∧ t.net = s.net ∧
      (∀ y ∈ t.l1, y ∈ s.l1) ∧
      (∀ y ∈ s.l1, y.st ≠ .valid → physKind (4 * y.wa) = 0 → y ∈ t.l1) ∧
      ((4 ≤ q.scope ∨ q.scope = 3 ∧ isFused s w.core = false) → q.range = none →
        ∀ y ∈ t.l1, y.owner = ownerOf s w.core → y.st ≠ .valid) ∧
      (∀ g, q.range = some g → ∀ y ∈ s.l1, inRange g y.va 4 = false → y ∈ t.l1) ∧
      (q.scope ≤ 2 → t.l1 = s.l1)) ∧
  (∀ (c n : Nat) (s : State) (w : Warp) (r : RelAct), warpFind s c n = some w → w.trapping = none → relDone s w r = true →
    (w.rel = some r → r.cont = .none →
      ∃ t w', Sys2Proof.Machine.exec (.releaseActionDone c n) s = .next t ∧ warpFind t c n = some w' ∧ w'.rel = none ∧
        t.mem = s.mem ∧ t.l1 = s.l1 ∧ t.net = s.net ∧ w'.relq = w.relq ∧ w'.regs = w.regs ∧
        (r.acq = none → w'.acq = w.acq) ∧
        (∀ sc, r.acq = some sc → 2 ≤ sc → w.acq = none → w'.acq = some ⟨sc, [], none, false⟩)) ∧
    (∀ rest off amount, (∀ q, w.rel = some q → relDone s w q = false) → w.relq = r :: rest → r.cont = .arrive off amount →
      ∃ t w', Sys2Proof.Machine.exec (.releaseActionDone c n) s = .next t ∧ warpFind t c n = some w' ∧ w'.relq = rest ∧
        w'.arrivals = w.arrivals ++ [⟨s.fresh, off, amount⟩] ∧ t.mem = s.mem ∧ t.l1 = s.l1) ∧
    (∀ rest ws s2 w2, (∀ q, w.rel = some q → relDone s w q = false) → w.relq = r :: rest → r.cont = .stores ws →
      storeWords s { w with relq := rest } none (ws.map (fun y => (y.1, y.2.2.1, y.2.2.2.1, y.2.2.2.2))) = (s2, w2) →
      let sent := w2.stores.filter (fun y => !(w.stores.any (fun z => z.msg == y.msg)))
      let follow (q : RelAct) : RelAct :=
        if q.behind.contains r.id then { q with stores := q.stores ++ (sent.filter (storeDue s w q.scope)).map (fun y => y.msg) } else q
      ∃ t w', Sys2Proof.Machine.exec (.releaseActionDone c n) s = .next t ∧ warpFind t c n = some w' ∧ w'.stores = w2.stores ∧
        w'.stack = w2.stack ∧ w'.relq = rest.map follow ∧ w'.rel = w.rel.map follow ∧ w'.regs = w.regs ∧
        t.mem = s2.mem ∧ t.l1 = s2.l1 ∧ t.net = s2.net))

/-! ## Coherence of words (12_word.md R246 to R262) -/

namespace Sys2Proof.Claim

/-- The machine once the slices have made ways free for the lines of some words (R260). -/
def withWays (s : State) (was : List Nat) : State := (dedup (was.map (fun wa => wa / 16))).foldl makeWay s

end Sys2Proof.Claim

/-- R249 to R252, R258, R260, R262: a registration at its slice, once its lines have ways there. Words that are HOME or the registrant's own become REGISTERED to it, under
its tag and context, together; a word that another has registered is revoked first; a word written through is HOME with the stored
bytes over the old word. -/
def Obligations.RegistrationsAreServed : Prop :=
  (∀ (s s0 : State) (m : Net) (ws : List (Nat × BitVec 4 × Word)) (tag : BitVec 16) (ctx : Nat), netTake s m.id = some m →
    Memory.wf s0.mem = true → m.kind = .register ws tag ctx false none → ws ≠ [] → (ws.map (fun x => x.1)).Nodup →
    s0 = withWays s (ws.map (fun x => x.1)) →
    (∀ x ∈ ws, (sliceGet s0 x.1).st = .home ∨ (sliceGet s0 x.1).st = .registered ∧ (sliceGet s0 x.1).owner = m.owner) →
    ∃ t, Sys2Proof.Machine.exec (.registrationRequest m.id []) s = .next t ∧
      (∀ x ∈ ws, (sliceGet t x.1).st = .registered ∧ (sliceGet t x.1).owner = m.owner ∧ (sliceGet t x.1).tag = tag ∧
        (sliceGet t x.1).ctx = ctx) ∧
      (∀ x ∈ ws, (sliceGet s0 x.1).st = .home →
        ∃ g ∈ t.net, g.owner = m.owner ∧ ∃ vs, g.kind = .grant vs true ∧ (x.1, (sliceGet s0 x.1).val, 0) ∈ vs) ∧
      (∀ wa, (∀ x ∈ ws, x.1 ≠ wa) → (sliceGet t wa).st = (sliceGet s0 wa).st ∧ (sliceGet t wa).val = (sliceGet s0 wa).val ∧
        (sliceGet t wa).owner = (sliceGet s0 wa).owner) ∧
      (∀ w ∈ t.warps, ∀ y ∈ w.stores, y.msg ≠ m.id)) ∧
  (∀ (s s0 : State) (m : Net) (wa : Nat) (b : BitVec 4) (v : Word) (tag : BitVec 16) (ctx : Nat) (thru : Bool) (fwd : Option Nat),
    netTake s m.id = some m → m.kind = .register [(wa, b, v)] tag ctx thru fwd → s0 = withWays s [wa] →
    (sliceGet s0 wa).st = .registered → (sliceGet s0 wa).owner ≠ m.owner →
    ∃ t, Sys2Proof.Machine.exec (.registrationRequest m.id []) s = .next t ∧ (sliceGet t wa).st = .transfer ∧
      (sliceGet t wa).waiting = [m.id] ∧ (sliceGet t wa).owner = (sliceGet s0 wa).owner ∧
      ∃ g ∈ t.net, g.owner = (sliceGet s0 wa).owner ∧ g.kind = .revoke wa) ∧
  (∀ (s s0 : State) (m : Net) (wa : Nat) (b : BitVec 4) (v : Word) (tag : BitVec 16) (ctx : Nat) (fwd : Option Nat),
    netTake s m.id = some m → Memory.wf s0.mem = true → m.kind = .register [(wa, b, v)] tag ctx true fwd → s0 = withWays s [wa] →
    (sliceGet s0 wa).st = .home →
    ∃ t, Sys2Proof.Machine.exec (.registrationRequest m.id []) s = .next t ∧ (sliceGet t wa).st = .home ∧
      (sliceGet t wa).val = overlay (sliceGet s0 wa).val v b ∧ (sliceGet t wa).tag = tag ∧
      (∀ y, l1Find t.l1 m.owner wa = some y → y.st = .valid ∧ y.val = overlay (sliceGet s0 wa).val v b) ∧
      ∀ w ∈ t.warps, ∀ y ∈ w.stores, y.msg ≠ m.id)

/-- R250 to R254: what the other messages of coherence do: a grant completes a PENDING word under the bytes stored in it and
registers it; a revocation takes a REGISTERED word from its L1 and answers with it; the answer, or a write-back, of a registrant
leaves the word HOME with its value; a forwarded read is answered by the registrant with its word; a read's answer reaches the
operation that waits for it. -/
def Obligations.CoherenceMessages : Prop :=
  (∀ (s : State) (m : Net) (wa : Nat) (v : Word) (k : BitVec 4) (e : L1Word), netTake s m.id = some m →
    m.kind = .grant [(wa, v, k)] true → l1Find s.l1 m.owner wa = some e →
    ∃ t e', Sys2Proof.Machine.exec (.grant m.id) s = .next t ∧ l1Find t.l1 m.owner wa = some e' ∧ e'.st = .registered ∧
      e'.val = overlay v e.val e.mask ∧ e'.mask = e.mask ||| k ∧ t.mem = s.mem ∧ t.slices = s.slices ∧
      ∀ o j, o ≠ m.owner ∨ j ≠ wa → l1Find t.l1 o j = l1Find s.l1 o j) ∧
  (∀ (s : State) (m : Net) (wa : Nat) (e : L1Word), netTake s m.id = some m → m.kind = .revoke wa →
    l1Find s.l1 m.owner wa = some e → e.st = .registered →
    ∃ t g, Sys2Proof.Machine.exec (.revocation m.id) s = .next t ∧ l1Find t.l1 m.owner wa = none ∧ g ∈ t.net ∧ g.owner = m.owner ∧
      g.kind = .revokeAnswer wa e.val e.mask ∧ t.mem = s.mem ∧ t.slices = s.slices) ∧
  (∀ (i : Instr) (s : State) (m : Net) (wa : Nat) (v : Word) (k : BitVec 4), netTake s m.id = some m →
    (i = .revocationAnswer m.id ∧ m.kind = .revokeAnswer wa v k ∨ i = .writeBack m.id ∧ ∃ tag, m.kind = .writeBack wa v k tag) →
    (sliceGet s wa).st = .registered → (sliceGet s wa).owner = m.owner →
    ∃ t, Sys2Proof.Machine.exec i s = .next t ∧ (sliceGet t wa).st = .home ∧ cohWord t wa = v ∧
      (sliceGet t wa).tag = (sliceGet s wa).tag ∧ (sliceGet t wa).mask = (sliceGet s wa).mask ∧ t.l1 = s.l1 ∧
      ∀ j, j ≠ wa → sliceGet t j = sliceGet s j) ∧
  (∀ (s : State) (m : Net) (c n op wa : Nat) (e : L1Word), netTake s m.id = some m → m.kind = .forward c n op [wa] →
    l1Find s.l1 m.owner wa = some e → e.st = .registered →
    ∃ t g, Sys2Proof.Machine.exec (.forwardedRead m.id) s = .next t ∧ g ∈ t.net ∧ g.owner = m.owner ∧
      g.kind = .forwardAnswer c n op [(wa, e.val)] false ∧ t.l1 = s.l1 ∧ t.mem = s.mem) ∧
  (∀ (s : State) (m : Net) (c n op wa : Nat) (v : Word) (w : Warp) (lost : Bool), netTake s m.id = some m →
    m.kind = .forwardAnswer c n op [(wa, v)] lost → warpFind s c n = some w → awaits s c n op wa = true →
    ∃ t w', Sys2Proof.Machine.exec (.forwardedReadAnswer m.id) s = .next t ∧ warpFind t c n = some w' ∧
      w'.pend = w.pend.map (fun p => if p.id = op then learn wa v s.tick p else p) ∧
      w'.deferred = (if lost then w.deferred ++ [(.ownerLost, .ofNat 64 (4 * wa))] else w.deferred) ∧ t.mem = s.mem)

/-- R191, R195, R207, R251, R253, R258, R260: at the home slice, once its line has a way there, a read of a HOME word answers its operation with the slice's value and one of a
word that another has registered is forwarded to it; an atomic of a HOME word applies its lanes in order, returns the old values and leaves its core no VALID copy of the word;
a check of the race filter says whether it answers RACE, and the last of a group lets its warp go on. -/
def Obligations.SlicesAnswer : Prop :=
  (∀ (s s0 : State) (m : Net) (c n op wa core : Nat) (w : Warp), netTake s m.id = some m → m.kind = .read c n op [wa] core →
    warpFind s c n = some w → s0 = withWays s [wa] → lineFwd s0 (wa / 16) = none →
    ((sliceGet s0 wa).st = .home → ∃ t w', Sys2Proof.Machine.exec (.sliceRead m.id []) s = .next t ∧ warpFind t c n = some w' ∧
      w'.pend = w.pend.map (fun p => if p.id = op then learn wa (sliceGet s0 wa).val s.tick p else p) ∧ t.slices = s0.slices ∧ t.mem = s0.mem) ∧
    ((sliceGet s0 wa).st = .registered → (sliceGet s0 wa).owner ≠ m.owner →
      ∃ t g, Sys2Proof.Machine.exec (.sliceRead m.id []) s = .next t ∧ g ∈ t.net ∧ g.owner = (sliceGet s0 wa).owner ∧
        g.kind = .forward c n op [wa] ∧ (sliceGet t wa).st = .registered ∧ (sliceGet t wa).fbit = true ∧ t.mem = s0.mem)) ∧
  (∀ (s s0 : State) (m : Net) (c n op aop wa : Nat) (lanes : List (Nat × Word × Word)), netTake s m.id = some m →
    m.kind = .atomic c n op aop wa lanes → s0 = withWays s [wa] → (sliceGet s0 wa).st = .home →
    ∃ t, Sys2Proof.Machine.exec (.sliceAtomic m.id) s = .next t ∧ (sliceGet t wa).st = .home ∧
      cohWord t wa = lanes.foldl (fun v it => atomOp aop v it.2.1 it.2.2) (sliceGet s0 wa).val ∧
      (∀ j, j ≠ wa → sliceGet t j = sliceGet s0 j) ∧ t.mem = s0.mem ∧
      t.l1 = s0.l1.filter (fun y => !(y.owner == m.owner && y.wa == wa && y.st == .valid)) ∧
      (∀ w, warpFind s c n = some w → (lanes.map (fun it => it.1)).Nodup → ∃ w', warpFind t c n = some w' ∧
        ∀ p ∈ w'.pend, p.id = op → ∀ before it after, lanes = before ++ it :: after → it.1 < 32 →
          getAt none p.vals it.1 = some (before.foldl (fun v it => atomOp aop v it.2.1 it.2.2) (sliceGet s0 wa).val))) ∧
  (∀ (s : State) (m : Net) (c n l va wa : Nat) (bytes : BitVec 4) (tag : BitVec 16) (w : Warp), netTake s m.id = some m →
    m.kind = .check c n l va wa bytes tag → warpFind s c n = some w →
    ∃ t w', Sys2Proof.Machine.exec (.checkRequest m.id) s = .next t ∧ warpFind t c n = some w' ∧
      w'.attempt.raced = (if raceAt s c wa bytes tag then w.attempt.raced ++ [(l, va)] else w.attempt.raced) ∧
      ((∀ id ∈ w.attempt.checks, id = m.id) → w'.attempt.checked = true ∧ Hold.check ∉ w'.holds) ∧
      t.slices = s.slices ∧ t.mem = s.mem ∧ t.l1 = s.l1)

/-! ## Sync words, Carousels and batches (21_barrier.md R399 to R420, R410 to R413) -/

namespace Sys2Proof.Claim

/-- The instruction meets a cause, precisely, and nothing of it is done (R9, R526). -/
def Raises (i : Instr) (s s1 : State) (sh : Shape) (x : Iss) (k : Cause) (lane : Option Nat) (faddr : DWord) : Prop :=
  Sys2Proof.Machine.exec i s = .next (raiseIssue s1 x.w x.split x.act sh x.j x.chained x.pc k lane faddr 0)

/-- The split parks in front of the group and waits (R115); the scalars that its last-use bits name keep their values until the wait
ends (R141). -/
def Parks (sh : Shape) (x : Iss) (t : State) (w' : Warp) (k : Wait) : Prop :=
  Leaves sh x t w' [] (releasedS sh.code x) [] 0 ∧ (∀ n, sGet w'.regs n = sGet (basis x) n) ∧ w'.pc = x.w.pc ∧
  ∃ p, w'.parked = x.w.parked ++ [p] ∧ p.lanes = x.split ∧ p.wait = k ∧ p.rel = releasedS sh.code x

/-- The warp has gone on with an acquire action of a scope (R200, R267, R407, R418). -/
def Acquires (x : Iss) (w' : Warp) (scope : Nat) : Prop :=
  (scope ≤ 1 → w'.acq = x.w.acq) ∧ (2 ≤ scope → ∃ q, w'.acq = some q ∧ scope ≤ q.scope ∧ q.range = none)

/-- A sync instruction finds its block at rest: no write on its way, its warp running, no fence in force. -/
def AtSync (s1 : State) (x : Iss) (b : Block) : Prop :=
  blockOf s1 x.w = some b ∧ b.scrq = [] ∧ running x.w = true ∧ memHeld x.w [] 0 = false

/-- The doubleword at an offset of a scratchpad (R399). -/
def dwordAt (b : Block) (off : Nat) : Nat := leNat (memRead b.scr off 8)

/-- The sync instructions with the bytes that they need at their offset (R403, R416). -/
def syncSpan : Instr → Option Nat
  | .synci _ _ => some 8
  | .synca _ _ => some 8
  | .syncw _ _ => some 8
  | .synct _ _ => some 8
  | .ringi _ _ => some 16
  | .rawait _ _ => some 16
  | .rrel _ _ => some 16
  | _ => none

/-- A batch is at or below another in the order of batch numbers (R410). -/
def covers (n b : BitVec 32) : Prop := (n - b).toNat < 2 ^ 31

end Sys2Proof.Claim

/-- R399 to R409: the offset of a sync instruction in the low half of its scalar is tested for alignment, then against the block's
scratchpad. SYNCI's write is on its way; SYNCA's arrival is on its way, or follows its release; SYNCT reads the word; SYNCW goes
on with its acquire when the generation's parity differs from its phase, parks where it does not, and meets BARRIER_OVERRUN and
COPY_FAULT in the states of those names.

R400, R405: an arrival of amount k at a sync word, in a block with no split parked and no Carousel copy out: an OPEN word counts
it; at its target the generation advances and the count is zero; beyond it the word is OVERRUN; amount 0 and a word that is not
OPEN change nothing. No other byte of the scratchpad changes. -/
def Obligations.SyncWords : Prop :=
  ((∀ (i : Instr) (n : Nat), syncSpan i = some n → ∀ (s s1 : State) (sh : Shape) (x : Iss) (o : OpsS), Issued i s sh s1 x →
    x.c.body = .S o → let off := (x.s o.sa.toNat).toNat % 2 ^ 32
    (off % n ≠ 0 → Raises i s s1 sh x .misaligned none (.ofNat 64 off)) ∧
    (off % n = 0 → scrLenOf s1 x.w < off + n → Raises i s s1 sh x .protection none (.ofNat 64 off))) ∧
  (∀ g o0 (s s1 : State) (sh : Shape) (x : Iss) (o : OpsS) (b : Block), x.c.body = .S o → AtSync s1 x b →
    let off := (x.s o.sa.toNat).toNat % 2 ^ 32
    off % 8 = 0 → off + 8 ≤ b.scrLen →
    let word := dwordAt b off
    let amount := (x.s o.sb.toNat).toNat % 2 ^ 20
    (Issued (.synci g o0) s sh s1 x → ∃ t w' b', Sys2Proof.Machine.exec (.synci g o0) s = .next t ∧ Leaves sh x t w' [] [] [] 0 ∧
      Steps x w' ∧ KeepsRest x w' ∧ blockFind t b.ctx b.num = some b' ∧ b' = { b with scrq := [.synci x.w.num off amount] } ∧
      ∀ a, cohByte t a = cohByte s1 a) ∧
    (Issued (.synca g o0) s sh s1 x → (o.sd.getLsbD 4 = false ∨ releaseReady s1 x.w (o.sd.toNat % 16) = true) →
      ∃ t w' id, Sys2Proof.Machine.exec (.synca g o0) s = .next t ∧ Completes sh x s1 t w' [] [] [] 0 ∧ KeepsRest x w' ∧
        w'.arrivals = x.w.arrivals ++ [⟨id, off, amount⟩]) ∧
    (Issued (.synca g o0) s sh s1 x → o.sd.getLsbD 4 = true → releaseReady s1 x.w (o.sd.toNat % 16) = false →
      ∃ t w' r, Sys2Proof.Machine.exec (.synca g o0) s = .next t ∧ Completes sh x s1 t w' [] [] [] 0 ∧ KeepsRest x w' ∧
        w'.arrivals = x.w.arrivals ∧ w'.relq = x.w.relq ++ [r] ∧ r.scope = o.sd.toNat % 16 ∧ r.cont = .arrive off amount ∧
        (r.ops, r.stores) = releaseList s1 x.w (o.sd.toNat % 16) none) ∧
    (Issued (.synct g o0) s sh s1 x → ∃ t w', Sys2Proof.Machine.exec (.synct g o0) s = .next t ∧
      Completes sh x s1 t w' [] [o.sd.toNat] [] 0 ∧ KeepsRest x w' ∧ sGet w'.regs o.sd.toNat = .ofNat 64 word) ∧
    (Issued (.syncw g o0) s sh s1 x →
      (word / 2 ^ 62 % 4 < 2 → word / 2 ^ 40 % 2 ≠ (x.s o.sb.toNat).toNat % 2 → ∃ t w',
        Sys2Proof.Machine.exec (.syncw g o0) s = .next t ∧ Completes sh x s1 t w' [] [] [] 0 ∧ KeepsRest x w' ∧
        Acquires x w' (o.sd.toNat % 16)) ∧
      (word / 2 ^ 62 % 4 < 2 → word / 2 ^ 40 % 2 = (x.s o.sb.toNat).toNat % 2 → ∃ t w',
        Sys2Proof.Machine.exec (.syncw g o0) s = .next t ∧
        Parks sh x t w' (.syncw off ((x.s o.sb.toNat).toNat % 2) (o.sd.toNat % 16))) ∧
      (word / 2 ^ 62 % 4 = 2 → Raises (.syncw g o0) s s1 sh x .barrierOverrun none 0) ∧
      (word / 2 ^ 62 % 4 = 3 → Raises (.syncw g o0) s s1 sh x .copyFault none (brokenBy b off))))) ∧
  (∀ (c n op bn : Nat) (s : State) (w : Warp) (a : Arrival) (b : Block), warpFind s c n = some w → w.blk = some bn →
  w.arrivals.find? (fun q => q.id == op) = some a → blockFind s c bn = some b → Memory.wf b.scr = true →
  (∀ v ∈ s.warps, v.ctx = c → v.blk = some bn → v.parked = []) → (∀ k ∈ s.copies, k.slot = none) →
  let word := dwordAt b a.off
  let target := word / 2 ^ 20 % 2 ^ 20
  let sum := word % 2 ^ 20 + a.amount
  ∃ t w' b', Sys2Proof.Machine.exec (.syncaArrival c n op) s = .next t ∧ warpFind t c n = some w' ∧
    w' = { w with arrivals := w.arrivals.filter (fun q => !(q == a)) } ∧ blockFind t c bn = some b' ∧
    (∀ k, k < a.off ∨ a.off + 8 ≤ k → memGet b'.scr k = memGet b.scr k) ∧
    ((a.amount = 0 ∨ 2 ≤ word / 2 ^ 62) → dwordAt b' a.off = word) ∧
    (a.amount ≠ 0 → word / 2 ^ 62 < 2 →
      (sum < target → dwordAt b' a.off = word + a.amount) ∧
      (sum = target → dwordAt b' a.off / 2 ^ 62 = word / 2 ^ 62 ∧ dwordAt b' a.off / 2 ^ 40 % 2 ^ 22 = (word / 2 ^ 40 + 1) % 2 ^ 22 ∧
        dwordAt b' a.off / 2 ^ 20 % 2 ^ 20 = target ∧ dwordAt b' a.off % 2 ^ 20 = 0) ∧
      (target < sum → dwordAt b' a.off / 2 ^ 62 = 2 ∧ dwordAt b' a.off % 2 ^ 62 = word % 2 ^ 62)) ∧
    ∀ k, cohByte t k = cohByte s k)

/-- R414 to R419: RINGI's write is on its way when its data, slots and words fit; RAWAIT goes on with the slot that TAKE names once
WR has passed it, its index and data offset in the scalar and TAKE one on, and parks where TAKE equals WR; RREL moves RD one on
while it is behind TAKE. -/
def Obligations.Carousels : Prop :=
  ∀ g o0 (s s1 : State) (sh : Shape) (x : Iss) (o : OpsS) (b : Block), x.c.body = .S o → AtSync s1 x b →
  let h := (x.s o.sa.toNat).toNat % 2 ^ 32
  h % 16 = 0 → h + 16 ≤ b.scrLen →
  let ptrs := dwordAt b h
  let rd := ptrs / 2 ^ 48
  let take := ptrs / 2 ^ 32 % 2 ^ 16
  let wr := ptrs / 2 ^ 16 % 2 ^ 16
  let cfg := dwordAt b (h + 8)
  let slot := take % (cfg % 16 + 1)
  let word := dwordAt b (h + 16 + 8 * slot)
  (Issued (.ringi g o0) s sh s1 x →
    let c := (x.s o.sb.toNat).toNat
    let n := c % 16 + 1
    c / 2 ^ 32 % 64 = 0 → c / 2 ^ 16 % 2 ^ 16 ≠ 0 → h + 16 + 8 * n ≤ b.scrLen →
    c / 2 ^ 32 + n * (c / 2 ^ 16 % 2 ^ 16) * 64 ≤ b.scrLen →
    ∃ t w' b', Sys2Proof.Machine.exec (.ringi g o0) s = .next t ∧ Leaves sh x t w' [] [] [] 0 ∧ Steps x w' ∧ KeepsRest x w' ∧
      blockFind t b.ctx b.num = some b' ∧ b' = { b with scrq := [.ringi x.w.num h (x.s o.sb.toNat)] } ∧
      ∀ a, cohByte t a = cohByte s1 a) ∧
  (Issued (.rawait g o0) s sh s1 x →
    (word / 2 ^ 62 % 4 < 2 → take ≠ wr → ∃ t w' b', Sys2Proof.Machine.exec (.rawait g o0) s = .next t ∧
      Leaves sh x t w' [] [o.sd.toNat] [] 0 ∧ Steps x w' ∧ KeepsRest x w' ∧ Acquires x w' 2 ∧
      sGet w'.regs o.sd.toNat =
        .ofNat 64 (take * 2 ^ 32 + (cfg / 2 ^ 32 + slot * (cfg / 2 ^ 16 % 2 ^ 16) * 64) % 2 ^ 32) ∧
      blockFind t b.ctx b.num = some b' ∧ (∀ a, cohByte t a = cohByte s1 a) ∧
      b' = { b with scr := memWrite b.scr h (natLe 8 (rd * 2 ^ 48 + (take + 1) % 2 ^ 16 * 2 ^ 32 + ptrs % 2 ^ 32)) }) ∧
    (word / 2 ^ 62 % 4 < 2 → take = wr → ∃ t w', Sys2Proof.Machine.exec (.rawait g o0) s = .next t ∧
      Parks sh x t w' (.rawait h o.sd.toNat)) ∧
    (word / 2 ^ 62 % 4 = 2 → Raises (.rawait g o0) s s1 sh x .barrierOverrun none 0) ∧
    (word / 2 ^ 62 % 4 = 3 → Raises (.rawait g o0) s s1 sh x .copyFault none (brokenBy b (h + 16 + 8 * slot)))) ∧
  (Issued (.rrel g o0) s sh s1 x → (∀ p ∈ x.w.pend, ∀ f, p.kind ≠ .scratch f) →
    (rd ≠ take → ∃ t w' b', Sys2Proof.Machine.exec (.rrel g o0) s = .next t ∧ Leaves sh x t w' [] [] [] 0 ∧ Steps x w' ∧
      KeepsRest x w' ∧ blockFind t b.ctx b.num = some b' ∧
      b' = { b with scr := memWrite b.scr h (natLe 8 ((rd + 1) % 2 ^ 16 * 2 ^ 48 + ptrs % 2 ^ 48)) } ∧
      ∀ a, cohByte t a = cohByte s1 a) ∧
    (rd = take → Raises (.rrel g o0) s s1 sh x .barrierOverrun none 0))

/-- R410 to R413: CSEAL gives the open batch's number and opens the next, never batch 0; CWAITB goes on once every copy of the batches
that its number covers has landed, and parks while one is out; a fault of a covered batch is raised, once, with the split past the
group. -/
def Obligations.Batches : Prop :=
  (∀ g o0 (s s1 : State) (sh : Shape) (x : Iss) (o : OpsS), Issued (.cseal g o0) s sh s1 x → x.c.body = .S o →
    ∃ t w', Sys2Proof.Machine.exec (.cseal g o0) s = .next t ∧ Completes sh x s1 t w' [] [o.sd.toNat] [] 0 ∧
      sGet w'.regs o.sd.toNat = .ofNat 64 x.w.openb.toNat ∧
      w'.openb = (if x.w.openb = 0xFFFFFFFF#32 then 1 else x.w.openb + 1)) ∧
  (∀ g o0 (s s1 : State) (sh : Shape) (x : Iss) (o : OpsS), Issued (.cwaitb g o0) s sh s1 x → x.c.body = .S o →
    let n : BitVec 32 := .ofNat 32 (x.s o.sa.toNat).toNat
    ((∃ b ∈ x.w.batches, covers n b.num ∧ 0 < b.live) → ∃ t w', Sys2Proof.Machine.exec (.cwaitb g o0) s = .next t ∧
      Parks sh x t w' (.cwaitb n)) ∧
    ((∀ b ∈ x.w.batches, covers n b.num → b.live = 0) →
      ((∀ b ∈ x.w.batches, covers n b.num → b.fault = none ∨ b.delivered = true) → ∃ t w',
        Sys2Proof.Machine.exec (.cwaitb g o0) s = .next t ∧ Completes sh x s1 t w' [] [] [] 0 ∧ KeepsRest x w') ∧
      (∀ b ∈ x.w.batches, ∀ a, covers n b.num → b.fault = some a → b.delivered = false →
        (∀ y ∈ x.w.batches, covers n y.num → y.fault.isSome → y.delivered = false → (n - y.num).toNat ≤ (n - b.num).toNat ∧
          (y.num = b.num → y = b)) →
        ∃ s2 v, Sys2Proof.Machine.exec (.cwaitb g o0) s =
            .next { (raiseAt s2 v { cause := .copyFault, deferred := true, faddr := a } 0) with issue := none } ∧
          (∀ l, l < 32 → getAt 0 v.pc l = if laneBit x.split l = true then getAt 0 x.w.pc l + 4 else getAt 0 x.w.pc l) ∧
          v.batches = x.w.batches.map (fun y => if y.num = b.num then { y with delivered := true } else y) ∧
          ∀ k, cohByte s2 k = cohByte s1 k)))

/-! ## Copies and tensor identifiers (22_copy.md R423 to R438; 23_tensor.md R446 to R448) -/

namespace Sys2Proof.Claim

/-- The warp's open batch holds one copy more (R410). -/
def InBatch (x : Iss) (w' : Warp) : Prop := ∃ b ∈ w'.batches, b.num = x.w.openb ∧ 0 < b.live

/-- The four scalars of a descriptor (R423, R433). -/
def descriptor (x : Iss) (sa : BitVec 6) : List DWord := (List.range 4).map (fun j => x.s (sa.toNat + j))

/-- The bytes of a descriptor's copy: its length, or the bytes of its box (R424). -/
def copyLength (d : List DWord) (im : List Byte) : Nat :=
  if (getAt 0 d 0).getLsbD 61 then boxBytes im else (getAt 0 d 0).toNat % 2 ^ 32

/-- A copy just issued by a warp under its open batch (R410, R425). -/
def NewCopy (x : Iss) (k : Copy) : Prop :=
  k.ctx = x.w.ctx ∧ k.warp = x.w.num ∧ k.blk = x.w.blk ∧ k.core = x.w.core ∧ k.batch = x.w.openb ∧ k.started = false

end Sys2Proof.Claim

/-- R356, R415, R423 to R431: CPY and CPYMX, past their tests and with an entry of the engine free, give the open batch's number and
the copy is out with its route, sides and length, CPYMX's command behind it; with nothing to move no copy is out; an acquire or a
fence in force over what they name holds them. A copy to a
Carousel claims the slot that CLAIM names, whole, with its word for the sync word; it parks where the ring is full. A warp
without streamer rights meets STREAM_RIGHTS. -/
def Obligations.CopiesIssue : Prop :=
  ∀ (i : Instr) (mx : Bool), (∃ g o0, i = if mx then .cpymx g o0 else .cpy g o0) →
  ∀ (s s1 : State) (sh : Shape) (x : Iss) (o : OpsS), Issued i s sh s1 x → x.c.body = .S o →
  let d := descriptor x o.sa
  let cmd := if mx then [x.s o.sb.toNat, x.s (o.sb.toNat + 1)] else []
  let im := tidRead s1 (dieOf x.w.core) x.w.ctx ((getAt 0 d 0).toNat / 2 ^ 32 % 256)
  let route := (getAt 0 d 0).toNat / 2 ^ 62
  let n := copyLength d im
  let y := (getAt 0 d 3).toNat % 2 ^ 32
  let h := (getAt 0 d 2).toNat % 2 ^ 32
  (copyHeld x.w d im = true → ∃ t, Sys2Proof.Machine.exec i s = .next t ∧ t.issue = s1.issue ∧ t.copies = s1.copies ∧
    ∀ w', warpFind t x.w.ctx x.w.num = some w' → w'.pc = x.w.pc ∧ w'.regs = x.w.regs) ∧
  (copyHeld x.w d im = false →
  (streamRights s1 x.w = false → Raises i s s1 sh x .streamRights none 0) ∧
  (∀ k a, copyCause s1 x.w mx d cmd im = some (k, a) → Raises i s s1 sh x k none (.ofNat 64 a)) ∧
  (copyCause s1 x.w mx d cmd im = none → bulkUsed s1 x.w.core < Config.bulkEntries →
    (route ≠ 1 →
      (n ≠ 0 → ∃ t w' k, Sys2Proof.Machine.exec i s = .next t ∧ Leaves sh x t w' [] [o.sd.toNat] [] 0 ∧ Steps x w' ∧
        sGet w'.regs o.sd.toNat = .ofNat 64 x.w.openb.toNat ∧ t.copies = s1.copies ++ [k] ∧ NewCopy x k ∧ InBatch x w' ∧
        k.route = route ∧ k.src = getAt 0 d 1 ∧ k.dst = getAt 0 d 2 ∧ k.len = n ∧ k.total = n ∧ k.cmd = cmd ∧
        k.sync = (if y = 0xFFFFFFFF then none else some y) ∧ (mx = false → t.blocks = s1.blocks) ∧
        (∀ b, mx = true → blockOf s1 x.w = some b → ∃ b' f, blockFind t b.ctx b.num = some b' ∧
          b' = { b with follows := b.follows ++ [f] } ∧ f.copy = k.id ∧ f.landed = false) ∧
        ∀ a, cohByte t a = cohByte s1 a) ∧
      (n = 0 → ∃ t w', Sys2Proof.Machine.exec i s = .next t ∧ Leaves sh x t w' [] [o.sd.toNat] [] 0 ∧ Steps x w' ∧
        sGet w'.regs o.sd.toNat = .ofNat 64 x.w.openb.toNat ∧ t.copies = s1.copies ∧ ∀ a, cohByte t a = cohByte s1 a)) ∧
    (∀ b, route = 1 → blockOf s1 x.w = some b → b.scrq = [] → running x.w = true →
      let claim := dwordAt b h % 2 ^ 16
      let gap := (claim + 2 ^ 16 - dwordAt b h / 2 ^ 48) % 2 ^ 16
      let cfg := dwordAt b (h + 8)
      let slots := cfg % 16 + 1
      let size := cfg / 2 ^ 16 % 2 ^ 16 * 64
      (slots ≤ gap → ∃ t w', Sys2Proof.Machine.exec i s = .next t ∧ Parks sh x t w' (.ring h o.sd.toNat mx d cmd im)) ∧
      (gap < slots → size < n → Raises i s s1 sh x .protection none (.ofNat 64 h)) ∧
      (gap < slots → n ≤ size → 0 < size → ∃ t w' k b', Sys2Proof.Machine.exec i s = .next t ∧
        Leaves sh x t w' [] [o.sd.toNat] [] 0 ∧ Steps x w' ∧ sGet w'.regs o.sd.toNat = .ofNat 64 x.w.openb.toNat ∧
        t.copies = s1.copies ++ [k] ∧ NewCopy x k ∧ InBatch x w' ∧ k.route = 1 ∧ k.src = getAt 0 d 1 ∧ k.len = n ∧ k.total = size ∧
        k.sync = some (h + 16 + 8 * (claim % slots)) ∧ k.scr = (cfg / 2 ^ 32 + claim % slots * size) % 2 ^ 32 ∧
        blockFind t b.ctx b.num = some b' ∧
        b'.scr = memWrite b.scr h (natLe 8 (dwordAt b h / 2 ^ 16 * 2 ^ 16 + (claim + 1) % 2 ^ 16)) ∧
        (mx = false → b'.follows = b.follows) ∧ ∀ a, cohByte t a = cohByte s1 a))))

/-- R210, R433, R434, R438, R446 to R448: CPYNB is out to the block of its clique that it names; CPY16 is out with one copy for each
lane of ACTIVE, from the lane's address to its offset; TIDSET and CBLOAD send an entry, or its codebook, to the eight dies and hold
their warp; an image that R443 refuses is TENSOR_ID. -/
def Obligations.LaneCopiesAndIdentifiers : Prop :=
  (∀ g o0 (s s1 : State) (sh : Shape) (x : Iss) (o : OpsS) (b : Block), Issued (.cpynb g o0) s sh s1 x → x.c.body = .S o →
    blockOf s1 x.w = some b → memHeld x.w [] 0 = false → streamRights s1 x.w = true → bulkUsed s1 x.w.core < Config.bulkEntries →
    let d := descriptor x o.sa
    let len := (getAt 0 d 0).toNat % 2 ^ 32
    let src := (getAt 0 d 1).toNat % 2 ^ 32
    let dst := (getAt 0 d 2).toNat % 2 ^ 32
    let y := (getAt 0 d 3).toNat % 2 ^ 32
    let cluster := (getAt 0 d 3).toNat / 2 ^ 32 % 256
    let block := (getAt 0 d 3).toNat / 2 ^ 40 % 4
    let size := (shapeAt s1 b).1 * (shapeAt s1 b).2
    let target := b.linear / size * size + cluster * (shapeAt s1 b).2 + block
    len ≠ 0 → len % 16 = 0 → src % 16 = 0 → dst % 16 = 0 → src + len ≤ b.scrLen → dst + len ≤ b.scrLen →
    (y ≠ 0xFFFFFFFF → y % 8 = 0 ∧ y + 8 ≤ b.scrLen) → cluster < (shapeAt s1 b).1 → block < (shapeAt s1 b).2 → target ≠ b.linear →
    ∃ t w' k, Sys2Proof.Machine.exec (.cpynb g o0) s = .next t ∧ Leaves sh x t w' [] [o.sd.toNat] [] 0 ∧ Steps x w' ∧
      sGet w'.regs o.sd.toNat = .ofNat 64 x.w.openb.toNat ∧ t.copies = s1.copies ++ [k] ∧ NewCopy x k ∧ InBatch x w' ∧
      k.kind = .cpynb ∧ k.target = some target ∧ k.src = .ofNat 64 src ∧ k.scr = dst ∧ k.len = len ∧ k.total = len ∧
      k.sync = (if y = 0xFFFFFFFF then none else some y) ∧ t.blocks = s1.blocks ∧ ∀ a, cohByte t a = cohByte s1 a) ∧
  (∀ g o0 (s s1 : State) (sh : Shape) (x : Iss) (o : OpsP16), Issued (.cpy16 g o0) s sh s1 x → x.c.body = .P16 o →
    let y := (x.s o.sync.toNat).toNat % 2 ^ 32
    let as := (lanesOf x.act).map (fun l =>
      (l, ((x.s o.s.toNat).toNat + (lane (x.v o.a) l).toNat) % 2 ^ 64, (lane (x.v o.d) l).toNat))
    (x.act = 0 → ∃ t w', Sys2Proof.Machine.exec (.cpy16 g o0) s = .next t ∧ Completes sh x s1 t w' [] [] [] 0 ∧ KeepsRest x w') ∧
    (x.act ≠ 0 → memHeld x.w (as.map (fun p => p.2.1)) 16 = false →
      (∀ k l a, cpy16Cause s1 x.w as y = some (k, l, a) → Raises (.cpy16 g o0) s s1 sh x k l (.ofNat 64 a)) ∧
      (cpy16Cause s1 x.w as y = none → lanesUsed s1 x.w.core + as.length ≤ Config.laneEntries →
        (∀ p ∈ as, lanePending s1 x.w p.2.1 = false) →
        ∃ t w' ks, Sys2Proof.Machine.exec (.cpy16 g o0) s = .next t ∧ Leaves sh x t w' [] [] [] 0 ∧ Steps x w' ∧ KeepsRest x w' ∧
          t.copies = s1.copies ++ ks ∧ InBatch x w' ∧ ks.map (fun k => (k.kind, k.lanesrc, k.scr)) =
            as.map (fun p => (.cpy16 p.1, .ofNat 64 p.2.1, p.2.2)) ∧
          (∀ k ∈ ks, NewCopy x k ∧ k.len = 16 ∧ k.sync = some y ∧ k.chunks = [0]) ∧ t.blocks = s1.blocks ∧
          ∀ a, cohByte t a = cohByte s1 a))) ∧
  (∀ (i : Instr) (s s1 : State) (sh : Shape) (x : Iss) (o : OpsS) (off n : Nat), Issued i s sh s1 x → x.c.body = .S o →
    (∃ g o0, i = .tidset g o0 ∧ off = 0 ∧ n = 12 ∨ i = .cbload g o0 ∧ off = 96 ∧ n = 4) → tidBusy s1 x.w.ctx = false →
    (n = 12 → imageBad s1 (scalarBytes x o.sa.toNat 12) = false) →
    ∃ t w' k bs, Sys2Proof.Machine.exec i s = .next t ∧ Completes sh x s1 t w' [] [] [] 0 ∧ KeepsRest x w' ∧
      t.casts = s1.casts ++ [k] ∧ .tid k.id ∈ w'.holds ∧ k.kind = .tid x.w.ctx x.w.num ((x.s o.sd.toNat).toNat % 256) off bs ∧
      bs.length = 8 * n ∧ ∀ j, j < n → leNat ((bs.drop (8 * j)).take 8) =
        (if n = 12 ∧ j = 1 then x.s (o.sa.toNat + 1) ||| 0x80000000#64 else x.s (o.sa.toNat + j)).toNat) ∧
  (∀ g o0 (s s1 : State) (sh : Shape) (x : Iss) (o : OpsS), Issued (.tidset g o0) s sh s1 x → x.c.body = .S o →
    imageBad s1 (scalarBytes x o.sa.toNat 12) = true → Raises (.tidset g o0) s s1 sh x .tensorId none 0)

/-- R424, R428, R429, R432, R437, R438: a chunk of a copy from memory to a scratchpad lands: each of its bytes whose page is mapped and
readable stands at its place, no other byte changes, and the copy ends with its last chunk; a chunk to memory is written as
`engWrite` writes it; the 16 bytes of a lane land together and arrive at its sync word. -/
def Obligations.CopiesLand : Prop :=
  (∀ (s : State) (k : Copy) (n bn : Nat) (b : Block) (pa : Nat → Nat), s.copies.find? (fun q => q.id == k.id) = some k →
    k.kind = .cpy → k.route = 0 → k.target = none → k.image = [] → k.saved = false → k.refused = false → k.sync = none → k.total = k.len →
    n ∈ k.chunks → (∀ q ∈ k.waits, q.1 ≠ n) → getKey n k.wout = none → k.asked = [] → k.got = [] →
    k.blk = some bn → blockFind s k.ctx bn = some b → Memory.wf b.scr = true →
    let here (off : Nat) : Prop := k.scr ≤ off ∧ off < k.scr + k.len ∧ off / 64 = n
    (∀ off, here off → engXlate s k.ctx [] (k.src.toNat + (off - k.scr)) false = .mem (pa off) none) →
    ∃ t b', Sys2Proof.Machine.exec (.copyChunkLands k.id n) s = .next t ∧ blockFind t k.ctx bn = some b' ∧
      (∀ off, here off → memGet b'.scr off = cohByte s (pa off)) ∧
      (∀ off, ¬ here off → memGet b'.scr off = memGet b.scr off) ∧
      ((∀ m ∈ k.chunks, m = n) → ∀ q ∈ t.copies, q.id ≠ k.id) ∧
      ((∃ m ∈ k.chunks, m ≠ n) → ∃ q ∈ t.copies, q.id = k.id ∧ q.chunks = k.chunks.filter (fun m => !(m == n)))) ∧
  (∀ (s s2 : State) (k : Copy) (n bn : Nat) (b : Block), s.copies.find? (fun q => q.id == k.id) = some k →
    k.kind = .cpy → k.route = 2 → k.target = none → k.image = [] → k.saved = false → k.refused = false → k.sync = none → k.total = k.len →
    n ∈ k.chunks → (∀ q ∈ k.waits, q.1 ≠ n) → getKey n k.wout = none → k.asked = [] →
    k.blk = some bn → blockFind s k.ctx bn = some b →
    (∀ j ∈ chunkBytes k n, ∃ pa, engXlate (markStarted s k) k.ctx [] (k.dst.toNat + j) true = .mem pa none) →
    engWrite (markStarted s k) k.ctx k.core (.copy k.id n) ((chunkBytes k n).map (fun j => (k.dst.toNat + j, memGet b.scr (k.scr + j)))) = (s2, 0) →
    ∃ t, Sys2Proof.Machine.exec (.copyChunkLands k.id n) s = .next t ∧ (∀ a, cohByte t a = cohByte s2 a)) ∧
  (∀ (s : State) (c core va pa : Nat) (who : Waiter) (v : Byte), engXlate s c [] va true = .mem pa none →
    (engWrite s c core who [(va, v)]).2 = 0 ∧ cohByte (engWrite s c core who [(va, v)]).1 pa = v ∧
    ∀ a, a ≠ pa → cohByte (engWrite s c core who [(va, v)]).1 a = cohByte s a) ∧
  (∀ (s : State) (k : Copy) (l bn y : Nat) (b : Block), s.copies.find? (fun q => q.id == k.id) = some k → k.kind = .cpy16 l →
    k.saved = false → k.refused = false → k.image.length = 16 → k.waits = [] → k.asked = [] → k.sync = some y → k.blk = some bn →
    blockFind s k.ctx bn = some b → Memory.wf b.scr = true → b.scrq = [] →
    (∀ q ∈ s.copies, q.ctx = k.ctx → q.warp = k.warp → q.issue < k.issue → (∃ m, q.kind = .cpy16 m) →
      q.scr + 16 ≤ k.scr ∨ k.scr + 16 ≤ q.scr) →
    (∀ w ∈ s.warps, w.ctx = k.ctx → w.blk = some bn → w.parked = []) → (y + 8 ≤ k.scr ∨ k.scr + 16 ≤ y) →
    dwordAt b y / 2 ^ 62 < 2 → dwordAt b y % 2 ^ 20 + 16 < dwordAt b y / 2 ^ 20 % 2 ^ 20 →
    ∃ t b', Sys2Proof.Machine.exec (.cpy16LaneLands k.id) s = .next t ∧ blockFind t k.ctx bn = some b' ∧
      (∀ j, j < 16 → memGet b'.scr (k.scr + j) = getAt 0 k.image j) ∧ dwordAt b' y = dwordAt b y + 16 ∧
      (∀ a, (a < k.scr ∨ k.scr + 16 ≤ a) → (a < y ∨ y + 8 ≤ a) → memGet b'.scr a = memGet b.scr a) ∧
      (∀ q ∈ t.copies, q.id ≠ k.id) ∧ ∀ a, cohByte t a = cohByte s a)

/-! ## The matrix engine (24_tile.md R453 to R472) -/

namespace Sys2Proof.Claim

/-- The command of a matrix instruction without a result, with its sync word, where it passes its checks (R456, R460 to R466). -/
def matrixCommand (s1 : State) (x : Iss) (b : Block) (o : OpsS) : Instr → Option MxEntry
  | .mxls _ _ => some (checkMxls s1 b (x.s o.sa.toNat) (x.s (o.sa.toNat + 1)) 0)
  | .mxswap _ _ => some (.ok .mxswap none)
  | .mxstr _ _ => some (checkMxstr b (x.s o.sa.toNat) (x.s (o.sa.toNat + 1)) 0)
  | .mxzero _ _ =>
    let v := (x.s o.sa.toNat).toNat
    some (if v / 16 % 4 = 3 then .bad .tileState 0 else if b.tiles ≤ v % 16 then .bad .tileState 0
      else .ok (.mxzero (v % 16) (if v / 16 % 4 = 0 then .fp32 else if v / 16 % 4 = 1 then .f16 else .i32)) none)
  | .mxwr _ _ =>
    let v := (x.s o.sa.toNat).toNat
    some (if b.tiles ≤ v % 16 then .bad .tileState 0
      else .ok (.mxwr (v % 16) (v / 16 % 64) (v / 1024 % 2) (mkLanes (fun l => lane (x.v o.sb) l))) none)
  | .mxst _ _ => some (checkMxst b (x.s o.sa.toNat) (x.s (o.sa.toNat + 1)) (roundingAt s1 x 0).mode
      (match x.c.grp.pfx with | some p => p.sat | none => false) (strandKey (strandOf s1 x.w)) x.w.regs.q)
  | _ => none

/-- The matrix instructions (R453). -/
def isMatrix : Instr → Bool
  | .mxls _ _ => true
  | .mxswap _ _ => true
  | .mxstr _ _ => true
  | .mxzero _ _ => true
  | .mxrd _ _ => true
  | .mxwr _ _ => true
  | .mxst _ _ => true
  | .mxflags _ _ => true
  | .tstamp _ _ => true
  | .ppoint _ _ => true
  | _ => false

/-- A block's scratchpad, planes and the elements of its tiles are as before. -/
def SameMatrix (b b' : Block) : Prop :=
  b'.scr = b.scr ∧ b'.active = b.active ∧ b'.shadow = b.shadow ∧
  ∀ n, (getAt {} b'.tile n).el = (getAt {} b.tile n).el ∧ (getAt {} b'.tile n).fmt = (getAt {} b.tile n).fmt ∧
    (getAt {} b'.tile n).flags = (getAt {} b.tile n).flags

/-- A command is ready to complete in a block at rest: it runs, it waits for nothing, it names no sync word. -/
def Completable (b : Block) (q : MxCmd) : Prop :=
  b.scrq = [] ∧ b.queue.find? (fun y => y.id == q.id) = some q ∧ q.running = true ∧ q.waits = [] ∧ q.bad = [] ∧ q.asked = [] ∧
  q.got = [] ∧ q.wout = 0 ∧ q.sync = none

end Sys2Proof.Claim

/-- R453, R456, R460 to R470: a matrix instruction outside an engine block is TILE_STATE; in one whose queue has room, it enters the
queue's tail with its sync word when its checks pass, and meets their cause when they do not; MXRD and MXFLAGS hold their warp for
their result; TSTAMP opens a record of its tile; PPOINT takes its mask once the queue is empty. -/
def Obligations.MatrixCommandsIssue : Prop :=
  (∀ (i : Instr) (s s1 : State) (sh : Shape) (x : Iss) (o : OpsS), isMatrix i = true → Issued i s sh s1 x → x.c.body = .S o →
    (blockOf s1 x.w = none ∨ ∃ b, blockOf s1 x.w = some b ∧ b.tiles = 0) → Raises i s s1 sh x .tileState none 0) ∧
  (∀ (i : Instr) (s s1 : State) (sh : Shape) (x : Iss) (o : OpsS) (b : Block), Issued i s sh s1 x → x.c.body = .S o →
    blockOf s1 x.w = some b → b.tiles ≠ 0 → mayEnter s1 b (true, x.w.num) = true →
    (∀ k a, matrixCommand s1 x b o i = some (.bad k a) → Raises i s s1 sh x k none (.ofNat 64 a)) ∧
    (∀ op y, matrixCommand s1 x b o i = some (.ok op y) → ∃ t w' b' q, Sys2Proof.Machine.exec i s = .next t ∧
      Leaves sh x t w' [] [] [] 0 ∧ Steps x w' ∧ KeepsRest x w' ∧ blockFind t b.ctx b.num = some b' ∧ SameMatrix b b' ∧
      b'.queue = b.queue ++ [q] ∧ q.warp = x.w.num ∧ q.op = op ∧ q.sync = y ∧ q.running = false ∧ b'.ppIn = false ∧
      ∀ a, cohByte t a = cohByte s1 a) ∧
    let v := (x.s o.sa.toNat).toNat
    ((∃ g o0, i = .mxrd g o0 ∨ i = .mxflags g o0) → b.tiles ≤ v % 16 → Raises i s s1 sh x .tileState none 0) ∧
    (∀ g o0, i = .mxrd g o0 → v % 16 < b.tiles → ∃ t w' op b' q, Sys2Proof.Machine.exec i s = .next t ∧
      Leaves sh x t w' [o.sd.toNat] [] [] 0 ∧ Steps x w' ∧ GoesOut sh x s1 w' op ∧ op.kind = .mxrd ∧ op.flag = none ∧
      op.vdst = some o.sd.toNat ∧ op.lanes = 0xFFFFFFFF#32 ∧ .op op.id ∈ w'.holds ∧ blockFind t b.ctx b.num = some b' ∧
      SameMatrix b b' ∧ b'.queue = b.queue ++ [q] ∧ q.op = .mxrd (v % 16) (v / 16 % 64) (v / 1024 % 2) op.id ∧
      ∀ a, cohByte t a = cohByte s1 a) ∧
    (∀ g o0, i = .mxflags g o0 → v % 16 < b.tiles → ∃ t w' op b' q, Sys2Proof.Machine.exec i s = .next t ∧
      Leaves sh x t w' [] [] [] 0 ∧ Steps x w' ∧ GoesOut sh x s1 w' op ∧ op.kind = .mxrd ∧ op.flag = none ∧ op.vdst = none ∧
      op.sdst = some o.sd.toNat ∧ .op op.id ∈ w'.holds ∧ blockFind t b.ctx b.num = some b' ∧ SameMatrix b b' ∧
      b'.queue = b.queue ++ [q] ∧ q.op = .mxflags (v % 16) (decide (v / 16 % 2 = 1)) op.id ∧ ∀ a, cohByte t a = cohByte s1 a)) ∧
  (∀ g o0 (s s1 : State) (sh : Shape) (x : Iss) (o : OpsS) (b : Block), Issued (.tstamp g o0) s sh s1 x → x.c.body = .S o →
    blockOf s1 x.w = some b → b.tiles ≠ 0 →
    let v := (x.s o.sa.toNat).toNat
    (b.tiles ≤ v % 16 → Raises (.tstamp g o0) s s1 sh x .tileState none 0) ∧
    (v % 16 < b.tiles → (accepted s1 6 = false ∨ (getAt {} b.tile (v % 16)).stamp = none) →
      ∃ t w' b', Sys2Proof.Machine.exec (.tstamp g o0) s = .next t ∧ Leaves sh x t w' [] [] [] 0 ∧ Steps x w' ∧ KeepsRest x w' ∧
        blockFind t b.ctx b.num = some b' ∧ SameMatrix b b' ∧ b'.queue = b.queue ∧ b'.ppIn = false ∧
        (accepted s1 6 = true → ∃ r, (getAt {} b'.tile (v % 16)).stamp = some r ∧ r.tag = .ofNat 16 (v / 2 ^ 16) ∧
          r.warp = x.w.num ∧ r.copyin = s1.tb ∧ r.wait = none ∧ r.compute = none ∧ r.copyout = none) ∧
        ∀ a, cohByte t a = cohByte s1 a)) ∧
  (∀ g o0 (s s1 : State) (sh : Shape) (x : Iss) (o : OpsS) (b : Block), Issued (.ppoint g o0) s sh s1 x → x.c.body = .S o →
    blockOf s1 x.w = some b → b.tiles ≠ 0 → b.tiles ≤ 16 → b.queue = [] → (∀ y ∈ b.mxWait, y.1 = true) →
    ∃ t w' b', Sys2Proof.Machine.exec (.ppoint g o0) s = .next t ∧ Leaves sh x t w' [] [] [] 0 ∧ Steps x w' ∧ KeepsRest x w' ∧
      blockFind t b.ctx b.num = some b' ∧ SameMatrix b b' ∧ b'.ppIn = true ∧
      (∀ k, k < 18 → b'.ppMask.getLsbD k = ((x.s o.sa.toNat).getLsbD k && (decide (k < b.tiles) || decide (16 ≤ k)))) ∧
      ∀ a, cohByte t a = cohByte s1 a)

/-- R457, R458, R461 to R468: the first command that has not started starts when nothing before it conflicts with it. A command
completes with its effect and leaves the queue: MXLS fills the shadow plane, MXSWAP exchanges the planes, MXSTR streams its
rows into its tile alone, MXZERO zeroes a tile in its format, MXWR writes the 32 elements of a half row, MXST stores every element
of its tile at its pitch, MXRD and MXFLAGS land in their warp. -/
def Obligations.MatrixCommandsComplete : Prop :=
  (∀ (c bn : Nat) (s : State) (b : Block) (pre post : List MxCmd) (q : MxCmd), blockFind s c bn = some b →
    b.queue = pre ++ q :: post → (∀ y ∈ pre, y.running = true ∧ conflicts q.op y.op = false) → q.running = false →
    (∀ y ∈ pre ++ post, y.id ≠ q.id) →
    ∃ t b', Sys2Proof.Machine.exec (.matrixCommandStart c bn) s = .next t ∧ blockFind t c bn = some b' ∧ SameMatrix b b' ∧
      b'.queue = pre ++ { q with running := true } :: post ∧ t.warps = s.warps ∧ ∀ a, cohByte t a = cohByte s a) ∧
  (∀ (c bn : Nat) (s : State) (b : Block) (q : MxCmd), blockFind s c bn = some b → Completable b q →
    let done (t : State) (b' : Block) : Prop := Sys2Proof.Machine.exec (.matrixCommandDone c bn q.id) s = .next t ∧
      blockFind t c bn = some b' ∧ b'.queue = b.queue.filter (fun y => !(y.id == q.id)) ∧ ∀ a, cohByte t a = cohByte s a
    (q.op = .mxswap → ∃ t b', done t b' ∧ b'.active = b.shadow ∧ b'.shadow = b.active ∧ b'.tile = b.tile ∧ b'.scr = b.scr) ∧
    (∀ n f, q.op = .mxzero n f → ∃ t b', done t b' ∧ b'.active = b.active ∧ b'.shadow = b.shadow ∧ b'.scr = b.scr ∧
      (getAt {} b'.tile n).fmt = f ∧ (getAt {} b'.tile n).flags = 0 ∧ (∀ r k, tileEl (getAt {} b'.tile n) r k = 0) ∧
      ∀ j, j ≠ n → getAt {} b'.tile j = getAt {} b.tile j) ∧
    (∀ n r h vs, q.op = .mxwr n r h vs → (getAt {} b.tile n).fmt ≠ .f16 → ∃ t b', done t b' ∧ b'.active = b.active ∧
      b'.shadow = b.shadow ∧ b'.scr = b.scr ∧ (∀ j, j ≠ n → getAt {} b'.tile j = getAt {} b.tile j) ∧
      (∀ l, l < 32 → tileEl (getAt {} b'.tile n) r (32 * h + l) =
        if (getAt {} b.tile n).fmt = .fp32 ∧ isNan (fv (lane vs l)) = true then 0x7FC00000#32 else lane vs l) ∧
      ∀ r' k, (∀ l, l < 32 → 64 * r' + k ≠ 64 * r + (32 * h + l)) →
        tileEl (getAt {} b'.tile n) r' k = tileEl (getAt {} b.tile n) r' k) ∧
    (∀ a n rows af tr sc, q.op = .mxstr a n rows af tr sc →
      (∀ y ∈ b.queue.takeWhile (fun z => !(z.id == q.id)), ∀ a' n' rows' af' tr' sc', y.op ≠ .mxstr a' n' rows' af' tr' sc') →
      ∃ t b', done t b' ∧ b'.active = b.active ∧ b'.shadow = b.shadow ∧ b'.scr = b.scr ∧
        (∀ j, j ≠ n → getAt {} b'.tile j = getAt {} b.tile j) ∧
        getAt {} b'.tile n = streamRows b a af tr sc ((List.range 64).map (planeCol b.active)) (getAt {} b.tile n) rows ∧
        ∀ r k, k < 64 → (r < tr ∨ tr + rows < r) → tileEl (getAt {} b'.tile n) r k = tileEl (getAt {} b.tile n) r k) ∧
    (∀ wo c2 k0 o0 im mode, q.op = .mxls wo c2 k0 o0 im → tScl im = false → planeMode (tFmt im) = some mode → elemBits (tFmt im) ≠ 4 →
      ∃ t b', done t b' ∧ b'.active = b.active ∧ b'.tile = b.tile ∧ b'.scr = b.scr ∧ b'.shadow.mode = mode ∧
        ∀ k n, k < planeK mode → n < 64 → getAt (0, 0) b'.shadow.w (64 * k + n) =
          (.ofNat 16 (leNat (memRead b.scr (wo + k * (8 * elemBits (tFmt im)) + n * elemBits (tFmt im) / 8)
            (if elemBits (tFmt im) = 16 then 2 else 1))), 0x7F#8)) ∧
    (∀ dest n fmt pitch rnd sat key ctr w, q.op = .mxst dest n fmt false pitch rnd sat key ctr →
      (getAt {} b.tile n).stamp = none → Memory.wf b.scr = true → 64 * fmtBytes fmt ≤ pitch → warpFind s c q.warp = some w →
      w.inHandler = false →
      ∃ t b' w', done t b' ∧ b'.active = b.active ∧ b'.shadow = b.shadow ∧ b'.tile = b.tile ∧ warpFind t c q.warp = some w' ∧
        (∀ k, (w'.regs.flags.getLsbD k = true ↔ w.regs.flags.getLsbD k = true ∨
          ∃ r j, r < 64 ∧ j < 64 ∧ (storeEl (getAt {} b.tile n) fmt rnd sat key ctr r j).2.getLsbD k = true)) ∧
        (∀ r j, r < 64 → j < 64 → memRead b'.scr (dest.toNat + r * pitch + j * fmtBytes fmt) (fmtBytes fmt) =
          natLe (fmtBytes fmt) (storeEl (getAt {} b.tile n) fmt rnd sat key ctr r j).1) ∧
        ∀ a, (a < dest.toNat ∨ dest.toNat + 63 * pitch + 64 * fmtBytes fmt ≤ a) → memGet b'.scr a = memGet b.scr a) ∧
    (∀ n r h op w p, q.op = .mxrd n r h op → warpFind s c q.warp = some w → w.trapping = none →
      w.pend.find? (fun y => y.id == op) = some p → ∃ t b' w', done t b' ∧ b'.tile = b.tile ∧ b'.scr = b.scr ∧
        warpFind t c q.warp = some w' ∧
        HasLanded w { p with vals := laneIdx.map (fun l => some (tileWord (getAt {} b.tile n) r (32 * h + l))) } w') ∧
    (∀ n clr op w p d, q.op = .mxflags n clr op → warpFind s c q.warp = some w → w.trapping = none →
      w.pend.find? (fun y => y.id == op) = some p → p.sdst = some d → p.vdst = none → ∃ t b' w', done t b' ∧
        b'.scr = b.scr ∧ warpFind t c q.warp = some w' ∧ (∀ y ∈ w'.pend, y.id ≠ op) ∧ Hold.op op ∉ w'.holds ∧
        (getAt {} b'.tile n).flags = (if clr then 0 else (getAt {} b.tile n).flags) ∧
        (∀ j, j ≠ n → getAt {} b'.tile j = getAt {} b.tile j) ∧
        sGet w'.regs d = .ofNat 64 ((getAt {} b.tile n).flags.toNat +
          16 * (match (getAt {} b.tile n).fmt with | .fp32 => 0 | .f16 => 1 | .i32 => 2) +
          64 * bit (getAt {} b.tile n).stamp.isSome) ∧ ∀ k, k ≠ d → sGet w'.regs k = sGet w.regs k))

/-! ## Tasks and reducer views (19_task.md R362 to R386; 20_view.md R387 to R397) -/

namespace Sys2Proof.Claim

/-- Memory, the slices, the L1s and the messages of t are those that s2 has: the bytes written are those written on the way to s2. -/
def MemAs (s2 t : State) : Prop := t.mem = s2.mem ∧ t.slices = s2.slices ∧ t.l1 = s2.l1 ∧ t.net = s2.net

/-- A task warp whose task is tk, at a TSPAWN, TSYNC or view instruction. -/
def TaskOf (s1 : State) (x : Iss) (tk : Task) : Prop := x.w.task.bind (taskFind s1) = some tk

/-- COMBINE of the operations with one word (R388). -/
def contribution (op : Nat) (v x : Word) : Word :=
  match op with
  | 1 => .ofNat 32 (v.toNat + x.toNat)
  | 2 => fminOp v x
  | 3 => fmaxOp v x
  | 4 => if x.toInt < v.toInt then x else v
  | 5 => if v.toInt < x.toInt then x else v
  | 6 => v &&& x
  | 7 => v ||| x
  | _ => v ^^^ x

/-- The slot of a draw (R384, R385): its address from the low bits of the draw's first word, and the claim that it holds. -/
def ClaimedAt (s1 : State) (x : Iss) (p size : Nat) (leaf : BitVec 64) : Prop :=
  gate s1 x.w { size := size, align := 16, rd := true, wr := true, atom := true, kind := kAtomic, watch := false } [(0, p)] =
    .go s1 [(0, p, leaf)] ∧ leafKind leaf = 0 ∧ anyPending s1 x.w ((List.range (size / 4)).map (fun k => (0, p + 4 * k, leaf))) = false

/-- The claim of a draw (R384), the word at the lower address first: kl(sk) XOR the counter, and kh(sk); 1 where both are 0. -/
def claimWords (sk : BitVec 64) (c : Word) : Word × Word :=
  let lo : Word := .ofNat 32 sk.toNat ^^^ c
  let hi : Word := .ofNat 32 (sk.toNat / 2 ^ 32)
  if hi = 0 ∧ lo = 0 then (1, 0) else (lo, hi)

end Sys2Proof.Claim

/-- R362 to R366, R370, R372, R373, R375, R376, R378, R384, R385: TSPAWN queues a child with the parent's arguments under the parent's
counter entry, in the deque of its core, and the parent goes on in a new strand; its causes are MISALIGNED, PEDIGREE_DEPTH and
PEDIGREE_RANK in that order. TSYNC goes on in the next epoch when no child is left, parks where one runs, and runs a queued one in
its own slot. PGRD and PGKEY read the pedigree and the keys. PALLOC claims and fills a slot, or answers 0; TLOG a log slot. -/
def Obligations.TaskInstructions : Prop :=
  (∀ g o0 (s s1 : State) (sh : Shape) (x : Iss) (o : OpsS) (tk : Task), Issued (.tspawn g o0) s sh s1 x → x.c.body = .S o →
    TaskOf s1 x tk → (∀ k ∈ s1.tasks, k.id ≠ s1.fresh) →
    let e := strandOf s1 x.w
    let a := o.sa.toNat
    ((x.s a).toNat % 16 ≠ 0 → Raises (.tspawn g o0) s s1 sh x .misaligned none 0) ∧
    ((x.s a).toNat % 16 = 0 → 32 ≤ e.ped.length → Raises (.tspawn g o0) s s1 sh x .pedigreeDepth none 0) ∧
    ((x.s a).toNat % 16 = 0 → e.ped.length < 32 → e.ctr.toNat % 2 ^ 20 = 2 ^ 20 - 1 →
      Raises (.tspawn g o0) s s1 sh x .pedigreeRank none 0) ∧
    ((x.s a).toNat % 16 = 0 → e.ped.length < 32 → e.ctr.toNat % 2 ^ 20 ≠ 2 ^ 20 - 1 →
      (if x.w.tag = 0 then 1 else 2) ≤ freeEntries (ctxOf s1 x.w.ctx) → (dequeOf s1 x.w.core).length < 1280 →
      releaseReady s1 x.w 6 = true →
      ∃ t w' k c, Sys2Proof.Machine.exec (.tspawn g o0) s = .next t ∧ Leaves sh x t w' [] [o.sd.toNat] [] 0 ∧ Steps x w' ∧
        sGet w'.regs o.sd.toNat = .ofNat 64 e.ctr.toNat ∧ w'.regs.q = 0 ∧ w'.regs.draw = 0 ∧
        (let p := strandOf t w'
         p.ped = e.ped ∧ p.ctr = e.ctr + 1 ∧ p.alloc = 0 ∧ p.logs = 0 ∧ p.kids = e.kids + 1 ∧ p.key = e.key) ∧
        k ∈ t.tasks ∧ k.id = s1.fresh ∧ k.ctx = x.w.ctx ∧ k.launch = tk.launch ∧ k.parent = some tk.id ∧ k.ent = some e.ctr ∧
        k.st = .queued ∧ k.entry = .ofNat 32 (x.s a).toNat ∧ k.args = (List.range 4).map (fun n => x.s (a + 1 + n)) ∧
        k.home = x.w.core ∧ dequeOf t x.w.core = s1.fresh :: dequeOf s1 x.w.core ∧
        c ∈ (ctxOf t x.w.ctx).strands ∧ c.tag = k.tag ∧ c.st = 1 ∧ c.ped = e.ped ++ [e.ctr] ∧ c.ctr = 0 ∧ c.alloc = 0 ∧ c.logs = 0 ∧
        c.kids = 0 ∧ c.key = extendKey e.key e.ctr ∧
        ((dequeOf s1 x.w.core).length < 256 → let s2 := { s1 with fresh := s1.fresh + 1 }
          MemAs (if x.w.tag = 0 then putEntry s2 x.w.ctx c else putEntry (putEntry s2 x.w.ctx c) x.w.ctx (strandOf t w')) t))) ∧
  (∀ g o0 (s s1 : State) (sh : Shape) (x : Iss) (o : OpsS) (tk : Task), Issued (.tsync g o0) s sh s1 x → x.c.body = .S o →
    TaskOf s1 x tk →
    let e := strandOf s1 x.w
    let ep := e.ctr.toNat / 2 ^ 20
    (ep = 4095 → Raises (.tsync g o0) s s1 sh x .pedigreeRank none 0) ∧
    (ep < 4095 → childrenOf s1 tk.id = [] → (x.w.tag = 0 ∨ 0 < freeEntries (ctxOf s1 x.w.ctx)) →
      ∃ t w', Sys2Proof.Machine.exec (.tsync g o0) s = .next t ∧ Leaves sh x t w' [] [o.sd.toNat] [] 0 ∧ Steps x w' ∧
        sGet w'.regs o.sd.toNat = .ofNat 64 ((ep + 1) * 2 ^ 20) ∧ w'.regs.q = 0 ∧ w'.regs.draw = 0 ∧ Acquires x w' 6 ∧
        let p := strandOf t w'
        p.ped = e.ped ∧ p.ctr = .ofNat 32 ((ep + 1) * 2 ^ 20) ∧ p.alloc = 0 ∧ p.logs = 0 ∧ p.kids = 0 ∧ p.key = e.key) ∧
    (ep < 4095 → childrenOf s1 tk.id ≠ [] → (∀ k ∈ childrenOf s1 tk.id, k.st ≠ .queued ∧ k.id ≠ tk.id) →
      ∃ t w', Sys2Proof.Machine.exec (.tsync g o0) s = .next t ∧ Parks sh x t w' (.tsync o.sd.toNat) ∧ MemAs s1 t) ∧
    (∀ k n, ep < 4095 → x.split = live x.w →
      inlineChild (setTask s1 { tk with mergeEpoch := some ep }) x.w { tk with mergeEpoch := some ep } = some k →
      freeWarp s1 x.w.ctx = some n → k.ctx = x.w.ctx → k.args.length = 4 →
      quiet x.w = true → x.w.rupds = [] → x.w.relq = [] → x.w.arrivals = [] →
      (∃ s2, writeFrame (setTask s1 { tk with mergeEpoch := some ep }) x.w none = .ok s2) →
      ∃ t w' v, Sys2Proof.Machine.exec (.tsync g o0) s = .next t ∧ t.issue = none ∧ warpFind t x.w.ctx x.w.num = some w' ∧
        w'.place = .leapSaved n ∧ w'.pc = x.w.pc ∧ warpFind t x.w.ctx n = some v ∧ v.task = some k.id ∧ v.core = x.w.core ∧
        v.slot = x.w.slot ∧ v.place = .resident ∧ v.tag = .ofNat 16 k.tag ∧ (∀ l, l < 32 → getAt 0 v.pc l = k.entry) ∧
        (∀ j, j < 4 → sGet v.regs j = getAt 0 k.args j) ∧
        dequeOf t x.w.core = (dequeOf s1 x.w.core).filter (fun j => !(j == k.id)))) ∧
  (∀ g o0 (s s1 : State) (sh : Shape) (x : Iss) (o : OpsS), Issued (.pgrd g o0) s sh s1 x → x.c.body = .S o →
    (strandOf s1 x.w).ped.length ≤ 32 →
    let e := strandOf s1 x.w
    let l := (x.s o.sa.toNat).toNat
    ∃ t w', Sys2Proof.Machine.exec (.pgrd g o0) s = .next t ∧ Completes sh x s1 t w' [] [o.sd.toNat] [] 0 ∧ KeepsRest x w' ∧
      (sGet w'.regs o.sd.toNat).toNat / 2 ^ 32 = e.ped.length + 1 + (if l ≤ e.ped.length then 256 else 0) ∧
      (l < e.ped.length → (sGet w'.regs o.sd.toNat).toNat % 2 ^ 32 = (getAt 0 e.ped l).toNat) ∧
      (l = e.ped.length → (sGet w'.regs o.sd.toNat).toNat % 2 ^ 32 = e.ctr.toNat) ∧
      (e.ped.length < l → (sGet w'.regs o.sd.toNat).toNat % 2 ^ 32 = 0)) ∧
  (∀ g o0 (s s1 : State) (sh : Shape) (x : Iss) (o : OpsS), Issued (.pgkey g o0) s sh s1 x → x.c.body = .S o →
    let e := strandOf s1 x.w
    ∃ t w', Sys2Proof.Machine.exec (.pgkey g o0) s = .next t ∧ Completes sh x s1 t w' [] [o.sd.toNat] [] 0 ∧ KeepsRest x w' ∧
      sGet w'.regs o.sd.toNat = (if x.s o.sa.toNat = 0 then extendKey e.key e.ctr else if x.s o.sa.toNat = 1 then e.key else 0)) ∧
  (∀ g o0 (s s1 : State) (sh : Shape) (x : Iss) (o : OpsS), Issued (.palloc g o0) s sh s1 x → x.c.body = .S o →
    let z := x.s o.sa.toNat
    let e := strandOf s1 x.w
    ((z = 0 ∨ 65520 < z.toNat) → ∃ t w', Sys2Proof.Machine.exec (.palloc g o0) s = .next t ∧
      Completes sh x s1 t w' [] [o.sd.toNat] [] 0 ∧ KeepsRest x w' ∧ sGet w'.regs o.sd.toNat = 0) ∧
    (z ≠ 0 → z.toNat ≤ 65520 → e.alloc.toNat = 2 ^ 30 → Raises (.palloc g o0) s s1 sh x .pedigreeRank none 0) ∧
    (∀ leaf s2 w2, z ≠ 0 → z.toNat ≤ 65520 → e.alloc.toNat ≠ 2 ^ 30 →
      let c : Word := 0x80000000#32 ||| e.alloc
      let sk := extendKey e.key e.ctr
      let p := (ctxOf s1 x.w.ctx).arena.toNat / 2 ^ 48 % 2 ^ 9 * 2 ^ 48 + (drawBits sk c 0).toNat % 2 ^ 31 * 65536
      let wa := leafPa leaf p / 4
      let claim := claimWords sk c
      let held := ((cohWord s1 wa), (cohWord s1 (wa + 1)))
      e.tag = x.w.tag.toNat → ClaimedAt s1 x p 16 leaf → (held = (0, 0) ∨ held = claim) →
      storePair (cohStore (cohStore s1 wa 15#4 claim.1) (wa + 1) 15#4 claim.2) x.w (p + 8) leaf (.ofNat 32 z.toNat)
        (.ofNat 32 (z.toNat / 2 ^ 32)) = (s2, w2) →
      ∃ t w', Sys2Proof.Machine.exec (.palloc g o0) s = .next t ∧ Leaves sh x t w' [] [o.sd.toNat] [] 0 ∧ Steps x w' ∧
        sGet w'.regs o.sd.toNat = .ofNat 64 (p + 16) ∧ strandOf t w' = { e with alloc := e.alloc + 1 } ∧
        (x.w.tag = 0 → StoredAs s2 t) ∧ w'.stack = w2.stack ∧ w'.stores = w2.stores)) ∧
  (∀ g o0 (s s1 : State) (sh : Shape) (x : Iss) (o : OpsS), Issued (.tlog g o0) s sh s1 x → x.c.body = .S o →
    let e := strandOf s1 x.w
    (e.logs.toNat = 2 ^ 30 → Raises (.tlog g o0) s s1 sh x .pedigreeRank none 0) ∧
    (∀ leaf s2 w2, e.logs.toNat ≠ 2 ^ 30 →
      let c : Word := 0xC0000000#32 ||| e.logs
      let sk := extendKey e.key e.ctr
      let p := (ctxOf s1 x.w.ctx).arena.toNat / 2 ^ 48 % 2 ^ 9 * 2 ^ 48 + 2 ^ 47 + (drawBits sk c 0).toNat % 2 ^ 28 * 64
      let wa := leafPa leaf p / 4
      let claim := claimWords sk c
      let held := ((cohWord s1 wa), (cohWord s1 (wa + 1)))
      e.tag = x.w.tag.toNat → ClaimedAt s1 x p 64 leaf → (held = (0, 0) ∨ held = claim) →
      (List.range 7).foldl (fun (a : State × Warp) k => storePair a.1 a.2 (p + 8 + 8 * k) leaf
          (.ofNat 32 (x.s (o.sa.toNat + k)).toNat) (.ofNat 32 ((x.s (o.sa.toNat + k)).toNat / 2 ^ 32)))
        (cohStore (cohStore s1 wa 15#4 claim.1) (wa + 1) 15#4 claim.2, x.w) = (s2, w2) →
      ∃ t w', Sys2Proof.Machine.exec (.tlog g o0) s = .next t ∧ Leaves sh x t w' [] [o.sd.toNat] [] 0 ∧ Steps x w' ∧
        sGet w'.regs o.sd.toNat = .ofNat 64 p ∧ strandOf t w' = { e with logs := e.logs + 1 } ∧
        (x.w.tag = 0 → StoredAs s2 t) ∧ w'.stack = w2.stack ∧ w'.stores = w2.stores))

/-- R387 to R395: RDECL gives its task a view at the identity of its operation, or clears the one that the task declared; RUPD's
contributions wait for their application in order of issue; RGET gives the view's value; without every LIVE lane, after a spawn of
the epoch, and for a reducer that the task has not declared, they are ILLEGAL. RUPD_APPLY combines the oldest contributions; a
completed child with fresh views is merged into its parent's holders and is gone. -/
def Obligations.Views : Prop :=
  (∀ g o0 (s s1 : State) (sh : Shape) (x : Iss) (o : OpsS) (tk : Task), Issued (.rdecl g o0) s sh s1 x → x.c.body = .S o →
    TaskOf s1 x tk →
    let r := o.sa.toNat
    let op := o.sb.toNat
    let alone := x.split = live x.w ∧ (strandOf s1 x.w).ctr.toNat % 2 ^ 20 = 0
    (¬ alone → Raises (.rdecl g o0) s s1 sh x .illegal none 0) ∧
    (alone → (∀ y, reducerOf tk r = some y → y.mine = false → Raises (.rdecl g o0) s s1 sh x .illegal none 0)) ∧
    (alone → x.w.rupds = [] → reducerOf tk r = none → ∃ t w' v, Sys2Proof.Machine.exec (.rdecl g o0) s = .next t ∧
      Leaves sh x t w' [] [] [] 0 ∧ Steps x w' ∧ KeepsRest x w' ∧ v ∈ t.views ∧ v.id = s1.fresh ∧ v.ctx = tk.ctx ∧ v.task = tk.id ∧
      v.r = r ∧ v.op = op ∧ v.val = viewIdentity op ∧ v.core = some x.w.core ∧
      taskFind t tk.id = some { tk with reducers := tk.reducers ++ [⟨r, op, true, s1.fresh⟩] } ∧
      MemAs (makeRoom s1 x.w.core) t) ∧
    (∀ y v, alone → x.w.rupds = [] → reducerOf tk r = some y → y.mine = true → s1.views.find? (fun a => a.id == y.holder) = some v →
      ∃ t w' v', Sys2Proof.Machine.exec (.rdecl g o0) s = .next t ∧ Leaves sh x t w' [] [] [] 0 ∧ Steps x w' ∧ KeepsRest x w' ∧
        t.views.find? (fun a => a.id == y.holder) = some v' ∧ v'.val = viewIdentity op ∧ v'.op = op ∧
        taskFind t tk.id = some { tk with reducers := tk.reducers.map (fun a => if a.r = r then { a with op := op } else a) } ∧
        MemAs (putView s1 { v with op := op, val := viewIdentity op }) t)) ∧
  (∀ g o0 (s s1 : State) (sh : Shape) (x : Iss) (o : OpsS) (tk : Task), Issued (.rupd g o0) s sh s1 x → x.c.body = .S o →
    TaskOf s1 x tk →
    (reducerOf tk o.sa.toNat = none → Raises (.rupd g o0) s s1 sh x .illegal none 0) ∧
    (reducerOf tk o.sa.toNat ≠ none → x.w.rupds.length < 16 → ∃ t w', Sys2Proof.Machine.exec (.rupd g o0) s = .next t ∧
      Completes sh x s1 t w' [] [] [] 0 ∧ KeepsRest x w' ∧
      w'.rupds = x.w.rupds ++ [⟨o.sa.toNat, (lanesOf x.act).map (fun l => lane (x.v o.sb) l)⟩])) ∧
  (∀ g o0 (s s1 : State) (sh : Shape) (x : Iss) (o : OpsS) (tk : Task), Issued (.rget g o0) s sh s1 x → x.c.body = .S o →
    TaskOf s1 x tk →
    let alone := x.split = live x.w ∧ (strandOf s1 x.w).ctr.toNat % 2 ^ 20 = 0
    (¬ alone → Raises (.rget g o0) s s1 sh x .illegal none 0) ∧
    (alone → (reducerOf tk o.sa.toNat = none ∨ ∃ y, reducerOf tk o.sa.toNat = some y ∧ y.mine = false) →
      Raises (.rget g o0) s s1 sh x .illegal none 0) ∧
    (∀ y v, alone → x.w.rupds = [] → reducerOf tk o.sa.toNat = some y → y.mine = true →
      s1.views.find? (fun a => a.id == y.holder) = some v →
      ∃ t w' v', Sys2Proof.Machine.exec (.rget g o0) s = .next t ∧
        Leaves sh x t w' [] [o.sd.toNat] [] (if y.op = 0 then (accRead v.val.acc v.val.sticky).2 else 0) ∧ Steps x w' ∧ KeepsRest x w' ∧
        sGet w'.regs o.sd.toNat = .ofNat 64 (if y.op = 0 then (accRead v.val.acc v.val.sticky).1 else v.val.word).toNat ∧
        t.views.find? (fun a => a.id == y.holder) = some v' ∧ v'.val = v.val ∧ t.tasks = s1.tasks ∧ MemAs (putView s1 v) t)) ∧
  (∀ (c n : Nat) (s : State) (w : Warp) (u : Rupd) (us : List Rupd) (tk : Task) (y : Reducer) (v : View), warpFind s c n = some w →
    w.rupds = u :: us → w.trapping = none → w.task.bind (taskFind s) = some tk → reducerOf tk u.r = some y →
    s.views.find? (fun a => a.id == y.holder) = some v →
    ∃ t v', Sys2Proof.Machine.exec (.rupdApply c n) s = .next t ∧ warpFind t c n = some { w with rupds := us } ∧
      t.views.find? (fun a => a.id == y.holder) = some v' ∧ v'.op = v.op ∧
      (y.op = 0 → (v'.val.acc, v'.val.sticky) = u.vals.foldl (fun a x => accAdd a.1 a.2 x) (v.val.acc, v.val.sticky)) ∧
      (y.op ≠ 0 → v'.val.word = u.vals.foldl (contribution y.op) v.val.word) ∧ t.tasks = s.tasks) ∧
  (∀ (c id : Nat) (s : State) (p k : Task), taskFind s id = some p → p.ctx = c → p.mergeEpoch.isSome = true → p.mergeChild = none →
    k ∈ s.tasks → k.parent = some id → k.st = .complete → k.fresh = true →
    (∀ j ∈ s.tasks, j.parent = some id → j ≠ k → entOf k < entOf j ∨ (j.fresh = false ∧ j.st ≠ .queued)) →
    ∃ t, Sys2Proof.Machine.exec (.viewMerge c id) s = .next t ∧ taskFind t id = some { p with mergeChild := some k.id } ∧
      t.views = s.views) ∧
  (∀ (c id : Nat) (s : State) (p k : Task), taskFind s id = some p → p.ctx = c → p.mergeChild.bind (taskFind s) = some k → k.id ≠ id →
    let gone := k.reducers.map (fun y => y.holder)
    (∀ y ∈ p.reducers, y.holder ∉ gone) →
    k.reducers.Pairwise (fun a b => ∀ y z, reducerOf p a.r = some y → reducerOf p b.r = some z → y.holder ≠ z.holder) →
    ∃ t, Sys2Proof.Machine.exec (.viewMergeDone c id) s = .next t ∧ taskFind t id = some { p with mergeChild := none } ∧
      (∀ q ∈ t.tasks, q.id ≠ k.id) ∧ (∀ v ∈ t.views, v.id ∉ gone) ∧
      ∀ a ∈ k.reducers, ∀ y b v, reducerOf p a.r = some y → s.views.find? (fun q => q.id == a.holder) = some b →
        s.views.find? (fun q => q.id == y.holder) = some v → ∃ v', t.views.find? (fun q => q.id == y.holder) = some v' ∧
          (y.op = 0 → (v'.val.acc, v'.val.sticky) = accMerge v.val.acc v.val.sticky b.val.acc b.val.sticky) ∧
          (y.op ≠ 0 → v'.val.word = contribution y.op v.val.word b.val.word))

/-- R259, R368 to R371, R376, R377, R380: a queued task starts in a free slot, from the bottom of its core's deque or, where that is
empty, from the top of another's; a task whose warp and children are complete leaves, its parent's record counting one child less;
with a root task its tree's tags retire; a tag is FREE once every slice has cleared it; with no entry left for the warps that wait
the context is FAULTED with STRAND_TABLE. -/
def Obligations.TasksMoveOn : Prop :=
  (∀ (core slot id n v : Nat) (victim : Option Nat) (s : State) (tk : Task), savedTaskWarp s core slot = none ∨ victim ≠ none →
    taskFind s id = some tk → stopsLaunch s tk.launch = false → tk.args.length = 4 → freeWarp s tk.ctx = some n → taskSlot s tk.ctx core slot = true →
    (victim = none ∧ v = core ∧ (dequeOf s core).head? = some id ∨
      victim = some v ∧ v ≠ core ∧ dequeOf s core = [] ∧ (dequeOf s v).getLast? = some id ∧ haltedDie s tk.ctx (dieOf v) = false ∧
      ∀ d ∈ s.deques, d.2 ≠ [] → d.1 ≠ core → haltedDie s tk.ctx (dieOf d.1) = false → stealRank core v ≤ stealRank core d.1) →
    ∃ t w k, Sys2Proof.Machine.exec (.taskDispatch core slot victim) s = .next t ∧ warpFind t tk.ctx n = some w ∧ w.task = some id ∧
      w.core = core ∧ w.slot = slot ∧ w.place = .resident ∧ w.launch = tk.launch ∧ w.tag = .ofNat 16 tk.tag ∧ w.exited = 0 ∧
      (∀ l, l < 32 → getAt 0 w.pc l = tk.entry ∧ getAt 0 w.depth l = 0) ∧ (∀ j, j < 4 → sGet w.regs j = getAt 0 tk.args j) ∧
      (∀ j, 4 ≤ j → sGet w.regs j = 0) ∧ (∀ j, vEntry w.regs j = {}) ∧ w.regs.flags = 0 ∧
      taskFind t id = some k ∧ k.st = .running ∧ k.warp = some n ∧ id ∉ dequeOf t v) ∧
  (∀ (core slot : Nat) (s : State) (w : Warp), savedTaskWarp s core slot = some w → taskSlot s w.ctx core slot = true →
    Sys2Proof.Machine.exec (.taskDispatch core slot none) s = .next (reloadWarp s w core slot .resident 11)) ∧
  (∀ (c id : Nat) (s : State) (tk : Task), taskFind s id = some tk → tk.ctx = c → tk.warpDone = true → tk.st ≠ .complete →
    (taskStrand s tk).kids = 0 → childrenOf s id = [] →
    (tk.parent = none → ∃ t, Sys2Proof.Machine.exec (.taskComplete c id) s = .next t ∧ (∀ k ∈ t.tasks, k.id ≠ id) ∧
      getKey id (ctxOf t c).roots = none ∧ (∀ e ∈ (ctxOf t c).strands, e.root = id → e.st ≠ 1) ∧
      t.launches = s.launches.map (fun l => if l.id = tk.launch then { l with rootsOpen := l.rootsOpen - 1 } else l)) ∧
    (∀ pid p, tk.parent = some pid → pid ≠ id → taskFind s pid = some p → (taskStrand s p).tag = p.tag →
      ∃ t, Sys2Proof.Machine.exec (.taskComplete c id) s = .next t ∧
        taskStrand t p = { taskStrand s p with kids := (taskStrand s p).kids - 1 } ∧
        (∀ y ∈ tk.reducers, y.mine = true → ∀ v ∈ t.views, v.id ≠ y.holder) ∧
        (tk.fresh = false → ∀ k ∈ t.tasks, k.id ≠ id) ∧
        (tk.fresh = true → taskFind t id = some { tk with st := .complete, reducers := tk.reducers.filter (fun y => !y.mine) }))) ∧
  (∀ (c tag slice : Nat) (s : State) (e : Strand), e ∈ (ctxOf s c).strands → e.tag = tag → e.st = 2 → slice ∈ e.acks →
    tag ≠ 0 → (∀ y ∈ (ctxOf s c).strands, y.tag = tag → y = e) → (s.slices.map (fun y => y.wa)).Nodup →
    ∃ t, Sys2Proof.Machine.exec (.tagClearAck c tag slice) s = .next t ∧
      (∀ y ∈ t.slices, y.ctx = c → sliceOf s (4 * y.wa) = slice → y.tag.toNat ≠ tag) ∧
      ((∀ a ∈ e.acks, a = slice) → ∀ y ∈ (ctxOf t c).strands, y.tag ≠ tag) ∧
      ((∃ a ∈ e.acks, a ≠ slice) → { e with acks := e.acks.filter (fun a => !(a == slice)) } ∈ (ctxOf t c).strands)) ∧
  (∀ (c : Nat) (s : State), dispatching (ctxOf s c) = true → (∀ e ∈ (ctxOf s c).strands, e.st ≠ 2) → (∃ w ∈ s.warps, w.ctx = c) →
    (∀ w ∈ s.warps, w.ctx = c → w.halted = none ∧ (0 < w.entryWait ∨ parkedInTsync w = true ∨ ∃ n, w.place = .leapSaved n)) →
    (((∀ k ∈ s.tasks, k.ctx = c → k.st ≠ .queued) ∧ (∃ w ∈ s.warps, w.ctx = c ∧ 0 < w.entryWait) ∧
        ∀ w ∈ s.warps, w.ctx = c → 0 < w.entryWait → freeEntries (ctxOf s c) < w.entryWait) ∨
      (∃ k ∈ s.tasks, k.ctx = c ∧ k.st = .queued) ∧ freeWarp s c = none) →
    ∃ t, Sys2Proof.Machine.exec (.strandTable c) s = .next t ∧ (ctxOf t c).st = .faulted ∧
      (ctxOf t c).faultrec = faultRecord s c .strandTable none none 0 ∧ (ctxOf t c).preempt.isSome = true ∧ t.warps = s.warps)

/-! ## Queues, graphs and launches (16_queue.md R330 to R340; 17_kernel.md R341 to R348; 18_group.md R350 to R358) -/

namespace Sys2Proof.Claim

/-- A completion record of a trigger queue joins those of its completion queue (R335). -/
def Recorded (s t : State) (q : Queue) (tag : DWord) (status : Nat) : Prop :=
  ∀ d, queueFind s q.cq = some d → d.st ≠ 0 → q.cq ≠ q.num →
    ∃ r, queueFind t q.cq = some { d with recs := d.recs ++ [r] } ∧ r.tag = tag ∧ r.status = status ∧ r.src = q.num ∧
      r.time = .ofNat 64 (s.tb.toNat * 5 / 6)

/-- The packet at the read index of a trigger queue (R332). -/
def packetRead (s : State) (q : Queue) : Except Cause (List Byte) :=
  devRead s q.ctx (q.base.toNat + 64 * (q.rd.toNat % 2 ^ q.log2)) 64

/-- A trigger queue whose next packet may be accepted (R332, R333). -/
def Acceptable (s : State) (q : Queue) : Prop :=
  queueFind s q.num = some q ∧ q.kind = 0 ∧ q.st = 1 ∧ q.rd ≠ q.wr ∧
  ((ctxOf s q.ctx).st = .runnable ∨ (ctxOf s q.ctx).st = .running) ∧
  (waitingRecs s q.ctx < 4096 ∨ ∀ d, queueFind s q.cq = some d → d.recs = [])

/-- The record edge of an instance that stands at a place of its graph (R337). -/
def EdgeAt (s : State) (y : Inst) (k : Nat) (e : Edge) : Prop :=
  ∃ gr, graphFind s y.ctx y.graph = some gr ∧ (k, e) ∈ edgesOf gr ∧ e.record = true ∧ recordEdge gr e.dst = some (k, e) ∧
    (∃ nd, graphNode gr e.dst = some nd ∧ nd.record = true) ∧ gr.nodes.length ≤ 1024

end Sys2Proof.Claim

/-- R331 to R335, R337 to R340, R344 to R346: QEMIT answers 2 without its edge, 1 where the edge's queue is full, and else 0 with its
record on the way; QREAD gives a record of the launch's batch and their number. A packet is accepted with its record, its refusal or
its run of a graph, whose parameters are the graph's but for its patches; a completion record is written with SEQ last. A run starts
the launches of its first nodes; a record joins its queue, and forms a batch at the threshold; a launch that is over is gone.

R312, R347, R350 to R358: a group of a launch that fits is granted as a whole: each of its blocks stands on its core with its
warps, their lanes, entry, scalars and order; a launch whose group has waited 100 µs without fitting bars those behind it. -/
def Obligations.QueuesAndLaunches : Prop :=
  ((∀ g o0 (s s1 : State) (sh : Shape) (x : Iss) (o : OpsS), Issued (.qemit g o0) s sh s1 x → x.c.body = .S o →
    releaseReady s1 x.w 6 = true →
    let e := (x.s o.sb.toNat).toNat
    ((8 ≤ e ∨ warpEdge s1 x.w e = none) → ∃ t w', Sys2Proof.Machine.exec (.qemit g o0) s = .next t ∧
      Completes sh x s1 t w' [] [o.sd.toNat] [] 0 ∧ KeepsRest x w' ∧ sGet w'.regs o.sd.toNat = 2 ∧ t.insts = s1.insts) ∧
    (∀ y k ed, e < 8 → warpEdge s1 x.w e = some (y, k, ed) →
      let used := (recqOf y k).length + (y.flying.filter (fun f => f.2.1 == k)).length
      (2 ^ ed.log2cap ≤ used → ∃ t w', Sys2Proof.Machine.exec (.qemit g o0) s = .next t ∧
        Completes sh x s1 t w' [] [o.sd.toNat] [] 0 ∧ KeepsRest x w' ∧ sGet w'.regs o.sd.toNat = 1 ∧ t.insts = s1.insts) ∧
      (used < 2 ^ ed.log2cap → ∃ t w', Sys2Proof.Machine.exec (.qemit g o0) s = .next t ∧
        Completes sh x s1 t w' [] [o.sd.toNat] [] 0 ∧ KeepsRest x w' ∧ sGet w'.regs o.sd.toNat = 0 ∧ .op s1.fresh ∈ w'.holds ∧
        instFind t y.id = some { y with
          flying := y.flying ++ [(s1.fresh, k, (List.range 4).map (fun n => x.s (o.sa.toNat + n)))] }))) ∧
  (∀ g o0 (s s1 : State) (sh : Shape) (x : Iss) (o : OpsS), Issued (.qread g o0) s sh s1 x → x.c.body = .S o →
    let b := match launchOf s1 x.w.launch with | some l => l.batch | none => []
    let sd := o.sd.toNat
    ∃ t w', Sys2Proof.Machine.exec (.qread g o0) s = .next t ∧
      Completes sh x s1 t w' [] [sd, sd + 1, sd + 2, sd + 3, sd + 4] [] 0 ∧ KeepsRest x w' ∧
      (∀ k, k < 4 → sGet w'.regs (sd + k) = getAt 0 (getAt [] b (x.s o.sa.toNat).toNat) k) ∧
      sGet w'.regs (sd + 4) = .ofNat 64 b.length) ∧
  (∀ (s : State) (q : Queue), Acceptable s q →
    (∀ k, packetRead s q = .error k → q.cq ≠ q.num → ∃ t, Sys2Proof.Machine.exec (.packetAccept q.num) s = .next t ∧
      queueFind t q.num = some { q with st := 2 } ∧ Recorded s t q (.ofNat 64 q.rd.toNat) 3 ∧ t.insts = s.insts) ∧
    (∀ bs, packetRead s q = .ok bs → q.cq ≠ q.num →
      let kind := fr bs 0 2
      let tag : DWord := .ofNat 64 (fr bs 8 8)
      let gr := graphFind s q.ctx (fr bs 4 4)
      ∃ t, Sys2Proof.Machine.exec (.packetAccept q.num) s = .next t ∧ queueFind t q.num = some { q with rd := q.rd + 1 } ∧
        (kind = 2 → Recorded s t q tag 0 ∧ t.insts = s.insts) ∧
        (kind ≠ 1 → kind ≠ 2 → Recorded s t q tag 4 ∧ t.insts = s.insts) ∧
        (kind = 1 → packetBad gr bs = true → Recorded s t q tag 4 ∧ t.insts = s.insts) ∧
        (∀ y, kind = 1 → packetBad gr bs = false → gr = some y → ∃ i, t.insts = s.insts ++ [i] ∧ i.ctx = q.ctx ∧ i.graph = y.num ∧
          i.queue = q.num ∧ i.tag = tag ∧ i.seed = .ofNat 64 (fr bs 16 8) ∧ i.started = false ∧ i.formed = 0 ∧
          i.nodes = y.nodes.map (fun _ => .waiting) ∧ (ctxOf t q.ctx).acc = (ctxOf s q.ctx).acc + 1 ∧
          (fr bs 24 1 = 0 → i.params = y.nodes.map (fun n => n.slots)) ∧
          (fr bs 24 1 = 1 → ∀ a b, getAt 0 (getAt [] i.params a) b = if a = fr bs 32 2 ∧ b = fr bs 34 1 then .ofNat 64 (fr bs 40 8)
            else getAt 0 (getAt [] (y.nodes.map (fun n => n.slots)) a) b)))) ∧
  (∀ (s s2 s3 s4 : State) (q : Queue) (r : CRec) (rest : List CRec), queueFind s q.num = some q → q.kind = 1 → q.st = 1 →
    q.recs = r :: rest → (q.wr - q.rd).toNat < 2 ^ q.log2 →
    let a := q.base.toNat + 32 * (q.wr.toNat % 2 ^ q.log2)
    devWrite s q.ctx a (natLe 8 r.tag.toNat ++ natLe 4 r.status) = .ok s2 →
    devWrite s2 q.ctx (a + 16) (natLe 8 r.energy.toNat ++ natLe 8 r.time.toNat) = .ok s3 →
    devWrite s3 q.ctx (a + 12) (natLe 4 (q.wr + 1).toNat) = .ok s4 →
    ∃ t, Sys2Proof.Machine.exec (.completionRecordWrite q.num) s = .next t ∧ MemAs s4 t ∧
      queueFind t q.num = some { q with wr := q.wr + 1, recs := rest } ∧ ∀ n, n ≠ q.num → queueFind t n = queueFind s n) ∧
  (∀ (c n : Nat) (s : State) (y : Inst) (gr : Graph), s.insts.find? (fun a => a.ctx == c && a.graph == n) = some y → y.started = false →
    stopsInst s y = false →
    dispatching (ctxOf s c) = true → graphFind s c n = some gr → y.nodes = gr.nodes.map (fun _ => .waiting) → y.recq = [] →
    y.formed = 0 → (∀ e ∈ gr.edges, 1 ≤ e.thresh) → gr.nodes.length ≤ 1024 →
    ∃ t, Sys2Proof.Machine.exec (.instanceStart c n) s = .next t ∧ (∀ a ∈ t.insts, a.id = y.id → a.started = true) ∧
      ∀ k nd, graphNode gr k = some nd → nd.record = false → (∀ e ∈ gr.edges, e.dst ≠ k) →
        ∃ l ∈ t.launches, l.ctx = y.ctx ∧ l.inst = y.id ∧ l.node = k ∧ l.batch = [] ∧ l.next = 0 ∧ l.dies = List.range nd.ndies ∧
          l.key = extendKey (extendKey y.seed (.ofNat 32 k)) 0) ∧
  (∀ (id k : Nat) (s : State) (y : Inst) (r : List DWord) (e : Edge), s.insts.find? (fun a => a.flying.any (fun f => f.1 == id)) = some y →
    y.flying.find? (fun f => f.1 == id) = some (id, k, r) → EdgeAt s y k e → y.formed + 2 ^ 22 ≤ 2 ^ 32 → stopsInst s y = false →
    ((recqOf y k).length + 1 < e.thresh → nodeSt y e.src = .running → ∃ t y', Sys2Proof.Machine.exec (.recordArrival id) s = .next t ∧
      instFind t y.id = some y' ∧ y'.flying = y.flying.filter (fun f => !(f.1 == id)) ∧ recqOf y' k = recqOf y k ++ [r] ∧
      ∀ w ∈ t.warps, .op id ∉ w.holds) ∧
    (e.thresh ≤ (recqOf y k).length + 1 → nodeSt y e.dst = .open_ → ∃ t l, Sys2Proof.Machine.exec (.recordArrival id) s = .next t ∧
      l ∈ t.launches ∧ l.inst = y.id ∧ l.node = e.dst ∧ l.batch = (recqOf y k ++ [r]).take e.thresh ∧
      l.key = extendKey (extendKey y.seed (.ofNat 32 e.dst)) (.ofNat 32 (getAt 0 y.batches e.dst)) ∧
      ∀ w ∈ t.warps, .op id ∉ w.holds)) ∧
  (∀ (id : Nat) (s : State) (l : Launch) (y : Inst) (gr : Graph) (nd : Node), launchOf s id = some l → l.id < s.fresh →
    instFind s l.inst = some y → graphFind s y.ctx y.graph = some gr → nodeOf s l = some nd → graphNode gr l.node = some nd →
    y.nodes.length = gr.nodes.length → nodeBlocks nd ≤ l.next → l.liveBlocks = 0 → l.rootsOpen = 0 →
    ∃ t, Sys2Proof.Machine.exec (.launchComplete id) s = .next t ∧ (∀ a ∈ t.launches, a.id ≠ id) ∧
      (∀ a ∈ t.insts, a.id = y.id → a.energy = y.energy + l.energy ∧ (nd.record = false → nodeSt a l.node = .done)) ∧
      (nd.record = false → stopsInst s y = false → (∀ k, k < gr.nodes.length → k ≠ l.node → nodeSt y k = .done) →
        (∀ a ∈ t.insts, a.id ≠ y.id) ∧ ∀ q, queueFind s y.queue = some q → Recorded s t q y.tag 0))) ∧
  ((∀ (id : Nat) (cores : List Nat) (s : State) (l : Launch) (n : Node) (y : Inst), launchOf s id = some l → nodeOf s l = some n →
    instFind s l.inst = some y → dispatching (ctxOf s l.ctx) = true → stopsLaunch s id = false → groupFits s n cores = true →
    yieldsTo s l (dieOf (getAt 0 cores 0)) = false → savedGroup s n l = [] → l.next < nodeBlocks n → cores.length = n.cblocks →
    dieOf (getAt 0 cores 0) = nextDie n l → numbersFit s l.ctx n.cblocks (n.cblocks * nodeWarps n) = true →
    ∃ t, Sys2Proof.Machine.exec (.blockGrant id cores) s = .next t ∧
      (∃ l', launchOf t id = some l' ∧ l'.next = l.next + n.cblocks ∧ l'.liveBlocks = l.liveBlocks + n.cblocks ∧
        l'.rootsOpen = l.rootsOpen + n.cblocks * nodeWarps n ∧ l'.barred = false) ∧
      (n.fuse = true → (clusterOf (getAt 0 cores 0), id) ∈ t.fused) ∧
      ∀ j, j < n.cblocks → ∃ b ∈ t.blocks, b.launch = id ∧ b.ctx = l.ctx ∧ b.linear = l.next + j ∧ b.core = getAt 0 cores j ∧
        b.scrLen = n.scratch ∧ b.tiles = n.tiles ∧ b.saved = false ∧ b.scr = [] ∧ b.liveWarps = nodeWarps n ∧
        ∀ k, k < nodeWarps n → ∃ w ∈ t.warps, w.ctx = l.ctx ∧ w.launch = id ∧ w.blk = some b.num ∧ w.core = b.core ∧ w.k = k ∧
          w.linear = b.linear * nodeWarps n + k ∧ w.age.seq = l.seq ∧ w.tag = 0 ∧ w.regs.flags = 0 ∧
          (∀ i, i < 32 → getAt 0 w.pc i = n.entry ∧ (laneBit w.exited i = true ↔ n.bthreads ≤ 32 * k + i)) ∧
          (∀ i, i < 16 → sGet w.regs i = getAt 0 (getAt [] y.params l.node) i +
            (if n.pmode.toNat / 4 ^ i % 4 = 1 then .ofNat 64 (k * n.stride.toNat) else 0)) ∧
          (∀ i, 16 ≤ i → sGet w.regs i = 0)) ∧
  (∀ (id : Nat) (s : State) (l : Launch) (n : Node), launchOf s id = some l → nodeOf s l = some n → l.next < nodeBlocks n →
    dispatching (ctxOf s l.ctx) = true → l.barred = false → nextFits s n l = false →
    ∃ t, Sys2Proof.Machine.exec (.grantWaitExpiry id) s = .next t ∧ launchOf t id = some { l with barred := true } ∧
      t.warps = s.warps ∧ t.blocks = s.blocks))

/-! ## Control registers, TIME, BBC and MIGRATE (15_context.md R310 to R314; 27_debug.md R521, R522; 14_page.md R300 to R305) -/

namespace Sys2Proof.Claim

/-- The control registers that have numbers of their own (R310), as CSRR reads them. -/
def controlRegisters (s : State) (w : Warp) : List (Nat × DWord) :=
  let x := ctxOf s w.ctx
  [(0x000, .ofNat 64 w.regs.flags.toNat), (0x001, .ofNat 64 x.rndmode.toNat), (0x002, if x.pol then 1 else 0),
   (0x003, if x.staletrap then 1 else 0), (0x004, .ofNat 64 (x.spills.toNat * 2 ^ 32 + x.luskip.toNat)),
   (0x005, if x.raceEn then 1 else 0), (0x006, .ofNat 64 x.lostTags.toNat)] ++
  [(0x008, w.privbase), (0x009, .ofNat 64 (w.stackLim.toNat + 65536 * w.stackMax.toNat)), (0x00A, .ofNat 64 w.limbst.toNat)] ++
  [(0x010, x.codebase), (0x011, x.trapvec), (0x012, x.trapctl), (0x013, x.framebase), (0x014, x.savebase), (0x015, x.ptroot)] ++
  [(0x016, x.ctxcfg), (0x017, x.ctxlim), (0x018, .ofNat 64 w.ctx), (0x019, x.regback), (0x01A, x.arena), (0x01B, .ofNat 64 w.num)]

/-- The control register that CSRR, CSRW name in the numbers of two fields, and BBC its counter (R313, R522). -/
def numberOf (o : OpsS) : Nat := 64 * o.sb.toNat + o.sa.toNat

end Sys2Proof.Claim

/-- R310, R311, R313, R314, R521 to R523: CSRR reads the register of its number and CSRW writes what of it can be written; a number that
is not assigned is ILLEGAL. TIME reads the time base. BBC's count waits for the end of its chain where counting is on. MIGRATE gives
its die and departs for the home of its page; in a handler, in a block's warp and for a window page it is MIGRATE_FAULT.

R302 to R305: a warp that departs for its own die goes on there after an acquire; for another it is saved in its frame, its views
in memory; the oldest in transit lands in a free landing slot as its frame has it, and settles in a free general slot. -/
def Obligations.SystemAndMigration : Prop :=
  ((∀ g o0 (s s1 : State) (sh : Shape) (x : Iss) (o : OpsS), Issued (.csrr g o0) s sh s1 x → x.c.body = .S o →
    (∀ v, (numberOf o, v) ∈ controlRegisters s1 x.w → ∃ t w', Sys2Proof.Machine.exec (.csrr g o0) s = .next t ∧
      Completes sh x s1 t w' [] [o.sd.toNat] [] 0 ∧ KeepsRest x w' ∧ sGet w'.regs o.sd.toNat = v) ∧
    (∀ j, j < 32 → numberOf o = 0x040 + j → ∃ t w', Sys2Proof.Machine.exec (.csrr g o0) s = .next t ∧
      Completes sh x s1 t w' [] [o.sd.toNat] [] 0 ∧ KeepsRest x w' ∧
      sGet w'.regs o.sd.toNat = .ofNat 64 (getAt 0 x.w.carryx j).toNat)) ∧
  (∀ (i : Instr) (s : State) (p : Issue) (w : Warp) (sh : Shape) (o : OpsS), (∃ g o0, i = .csrr g o0 ∨ i = .csrw g o0) →
    shapeOf i = some sh → s.issue = some p → warpFind s p.ctx p.warp = some w →
    let x := issOf s p sh (atIssue s p w sh)
    x.c.body = .S o → (∀ v, (numberOf o, v) ∉ controlRegisters s x.w) → (numberOf o < 0x040 ∨ 0x060 ≤ numberOf o) →
    (sh.code.grp.stop = false ∨ x.w.bpSkip = true ∨ x.w.stepSet.isSome = true) →
    Sys2Proof.Machine.exec i s = .next (raiseIssue s x.w p.split x.act sh x.j x.chained x.pc .illegal none 0 0)) ∧
  (∀ g o0 (s s1 : State) (sh : Shape) (x : Iss) (o : OpsS), Issued (.csrw g o0) s sh s1 x → x.c.body = .S o →
    let n := numberOf o
    let v := x.s o.sd.toNat
    (((∃ v, (n, v) ∈ controlRegisters s1 x.w) ∨ 0x040 ≤ n ∧ n < 0x060) → ∃ t w', Sys2Proof.Machine.exec (.csrw g o0) s = .next t ∧
      warpFind t x.w.ctx x.w.num = some w' ∧ t.issue = none ∧ Steps x w' ∧
      (∀ r, vEntry w'.regs r = vEntry x.w.regs r) ∧ (∀ r, sGet w'.regs r = sGet x.w.regs r) ∧
      (∀ r, mGet w'.regs r = mGet x.w.regs r) ∧ (∀ a, cohByte t a = cohByte s1 a) ∧ t.blocks = s1.blocks ∧ t.tasks = s1.tasks ∧
      w'.regs.flags = (if n = 0x000 then .ofNat 32 (v.toNat % 64) else x.w.regs.flags) ∧
      w'.stackLim = (if n = 0x009 then .ofNat 16 (min (v.toNat % 2 ^ 16) x.w.stackMax.toNat) else x.w.stackLim) ∧
      (∀ j, j < 32 → getAt 0 w'.carryx j = if n = 0x040 + j then .ofNat 32 v.toNat else getAt 0 x.w.carryx j) ∧
      w'.stackMax = x.w.stackMax ∧ w'.privbase = x.w.privbase ∧ w'.limbst = x.w.limbst ∧ w'.depth = x.w.depth ∧ w'.tag = x.w.tag ∧
      let y := ctxOf t x.w.ctx
      let z := ctxOf s1 x.w.ctx
      y.rndmode = (if n = 0x001 ∧ v.toNat % 8 ≤ 5 then .ofNat 3 v.toNat else z.rndmode) ∧
      y.pol = (if n = 0x002 then v.getLsbD 0 else z.pol) ∧ y.staletrap = (if n = 0x003 then v.getLsbD 0 else z.staletrap) ∧
      y.spills = (if n = 0x004 then .ofNat 32 (v.toNat / 2 ^ 32) else z.spills) ∧
      y.luskip = (if n = 0x004 then .ofNat 32 v.toNat else z.luskip) ∧
      y.raceEn = (if n = 0x005 then v.getLsbD 0 else z.raceEn) ∧
      y.lostTags = (if n = 0x006 then .ofNat 32 v.toNat else z.lostTags) ∧
      y.codebase = z.codebase ∧ y.trapvec = z.trapvec ∧ y.trapctl = z.trapctl ∧ y.framebase = z.framebase ∧ y.savebase = z.savebase ∧
      y.ptroot = z.ptroot ∧ y.ctxcfg = z.ctxcfg ∧ y.ctxlim = z.ctxlim ∧ y.regback = z.regback ∧ y.arena = z.arena)) ∧
  (∀ g o0 (s s1 : State) (sh : Shape) (x : Iss) (o : OpsS), Issued (.time g o0) s sh s1 x → x.c.body = .S o →
    ∃ t w', Sys2Proof.Machine.exec (.time g o0) s = .next t ∧ Completes sh x s1 t w' [] [o.sd.toNat] [] 0 ∧ KeepsRest x w' ∧
      sGet w'.regs o.sd.toNat = s1.tb) ∧
  (∀ g o0 (s s1 : State) (sh : Shape) (x : Iss) (o : OpsS), Issued (.bbc g o0) s sh s1 x → x.c.body = .S o →
    ∃ t w', Sys2Proof.Machine.exec (.bbc g o0) s = .next t ∧ Completes sh x s1 t w' [] [] [] 0 ∧ KeepsRest x w' ∧
      (x.second = false → ∃ ch, w'.chain = some ch ∧ ch.bbc = (match x.w.chain with | some c => c.bbc | none => []) ++
        if (ctxOf s1 x.w.ctx).bbcctl.getLsbD 63 = true then [(numberOf o, (lanesOf x.split).length)] else [])) ∧
  (∀ g o0 (s s1 : State) (sh : Shape) (x : Iss) (o : OpsS), Issued (.migrate g o0) s sh s1 x → x.c.body = .S o →
    let va := (x.s o.sa.toNat).toNat
    ((x.w.inHandler = true ∨ x.w.blk ≠ none) → Raises (.migrate g o0) s s1 sh x .migrateFault none (.ofNat 64 va)) ∧
    (x.w.inHandler = false → x.w.blk = none →
      (2 ^ 57 ≤ va → Raises (.migrate g o0) s s1 sh x .translation none (.ofNat 64 va)) ∧
      (va < 2 ^ 57 →
        (xlateOf s1 x.w va = some .unresolvable → Raises (.migrate g o0) s s1 sh x .translation none (.ofNat 64 va)) ∧
        (∀ e, xlateOf s1 x.w va = some (.leaf e) →
          (leafKind e ≠ 0 → (leafKind e = 2 → accepted s1 1 = true) →
            Raises (.migrate g o0) s s1 sh x .migrateFault none (.ofNat 64 va)) ∧
          (leafKind e = 0 → ∃ t w', Sys2Proof.Machine.exec (.migrate g o0) s = .next t ∧
            Completes sh x s1 t w' [] [o.sd.toNat] [] 0 ∧ KeepsRest x w' ∧ sGet w'.regs o.sd.toNat = .ofNat 64 (x.w.core / 128) ∧
            w'.place = .departing (leafHome e) (homeSlice (leafPa e va)))))))) ∧
  ((∀ (c n die sl : Nat) (s : State) (w : Warp), warpFind s c n = some w → w.place = .departing die sl → settled s w = true →
    (∀ k ∈ s.copies, k.ctx = c → k.warp ≠ n) → (∀ ch, w.chain = some ch → ch.bbc = []) →
    (die = dieOf w.core → ∀ s2, writeStack s c w.stack = .ok s2 → ∃ t w', Sys2Proof.Machine.exec (.migrateDepart c n) s = .next t ∧
      warpFind t c n = some w' ∧ w'.place = .resident ∧ w'.core = w.core ∧ w'.slot = w.slot ∧ w'.stack = [] ∧ w'.regs = w.regs ∧
      w'.pc = w.pc ∧ (∀ y ∈ t.l1, y.owner = ownerOf s w.core → y.st ≠ .valid) ∧ t.slices = s2.slices ∧ t.mem = s2.mem) ∧
    (die ≠ dieOf w.core → ∀ s2, writeFrame (viewsLeave s w) { w with chain := none } none = .ok s2 →
      ∃ t w', Sys2Proof.Machine.exec (.migrateDepart c n) s = .next t ∧ warpFind t c n = some w' ∧ w'.place = .inTransit die sl ∧
        (∀ r, vEntry w'.regs r = {}) ∧ (∀ r, sGet w'.regs r = sGet w.regs r) ∧ w'.pc = w.pc ∧ MemAs s2 t ∧
        ∀ v ∈ t.views, v.ctx = c → some v.task = w.task → v.core ≠ some w.core)) ∧
  (∀ (c n die sl core slot : Nat) (s : State) (w : Warp) (bs : List Byte), warpFind s c n = some w → w.place = .inTransit die sl →
    landingSlot s die sl = some (core, slot) → mayLand s die w = true →
    oldest (s.warps.filter (fun x => flyingTo die x && mayLand s die x)) = some w → readFrame s w = .ok bs → frameBad w bs = false →
    ∃ t w', Sys2Proof.Machine.exec (.migrateLand c n) s = .next t ∧ warpFind t c n = some w' ∧ w'.place = .landed ∧ w'.core = core ∧
      w'.slot = slot ∧ (∀ j, j < 64 → sGet w'.regs j = .ofNat 64 (fr bs (512 + 8 * j) 8)) ∧
      ∀ l, l < 32 → laneBit w.exited l = false → getAt 0 w'.pc l = .ofNat 32 (fr bs (4 * l) 4)) ∧
  (∀ (c n slot : Nat) (s : State) (w : Warp), warpFind s c n = some w → w.place = .landed → chainNext s w = none →
    (freeSlots s w.core).head? = some slot → (∀ ch, w.chain = some ch → ch.bbc = []) →
    ∃ t, Sys2Proof.Machine.exec (.migrateSettle c n) s = .next t ∧
      warpFind t c n = some { w with place := .resident, slot := slot, chain := none } ∧ t.blocks = s.blocks ∧ t.mem = s.mem))

/-! ## Contexts, translations and multicasts (14_page.md R284 to R299; 15_context.md R306 to R329; 26_link.md R483, R484) -/

namespace Sys2Proof.Claim

/-- A request is answered with its COMPLETION on its connection, under the next sequence number (R490, R491). -/
def Answered (s t : State) (a : Answer) (status : Nat) (payload : List Byte) : Prop :=
  ∀ k, connFind s a.port (.ofNat 32 a.conn) = some k → ∃ k' m, connFind t a.port (.ofNat 32 a.conn) = some k' ∧
    k'.unacked = k.unacked ++ [m] ∧ k'.tx = k.tx + 1 ∧ m.ty = 7 ∧ m.seq = k.tx ∧ m.tag = a.tag ∧ m.op = .ofNat 8 status ∧
    m.payload = payload

/-- No warp of a core and context waits for the translation of a page any more. -/
def Told (t : State) (core c page : Nat) : Prop :=
  ∀ w ∈ t.warps, w.core = core → w.ctx = c → ∀ ps, .xlate ps ∈ w.holds → page ∉ ps

/-- What a translation slice does with a request (R289, R290): its own leaf answers it; a walk of the page takes it in while it has
room; where no walk is in progress one begins; else the request is refused. -/
def Requested (s t : State) (core c page : Nat) (refused : List Refused) : Prop :=
  let die := sliceDie (4096 * page)
  (∀ e, tlbFind s.tcache die c (4096 * page) = some e → tlbFind t.tlb core c (4096 * page) = some e ∧ Told t core c page) ∧
  (tlbFind s.tcache die c (4096 * page) = none →
    ((∀ k ∈ s.walks, ¬ (k.ctx = c ∧ k.page = page)) → t.walks = s.walks ++ [⟨c, page, [core]⟩]) ∧
    (∀ k, s.walks.find? (fun k => k.ctx == c && k.page == page) = some k →
      (k.waiters.length < 64 → ∃ k' ∈ t.walks, k'.ctx = c ∧ k'.page = page ∧ core ∈ k'.waiters) ∧
      (64 ≤ k.waiters.length → t.walks = s.walks ∧ t.refused = refused)))

end Sys2Proof.Claim

/-- R284 to R299, R306 to R309, R316, R324 to R329, R483, R484: requests for translations, their walks, their refusals; held faults; a
multicast's copies, what each die does with one, its acknowledgements and its end; collapses; pre-emption from its slice to its
end; a deferred cause that enters its trap; a teardown. -/
def Obligations.ContextsAndTranslations : Prop :=
  (∀ (core c page : Nat) (s : State), wantsPage s core c page = true → asked s core c page = false →
    ∃ t, Sys2Proof.Machine.exec (.tlbMissRequest core c page) s = .next t ∧
      Requested s t core c page (s.refused ++ [⟨core, c, page, 0⟩])) ∧
  (∀ (s : State) (r : Refused), r ∈ s.refused → (∀ q ∈ s.refused, q.core = r.core → q.ctx = r.ctx → q.page = r.page → q = r) →
    ∃ t, Sys2Proof.Machine.exec (.translationRefusalRetry r.core r.ctx r.page) s = .next t ∧
      Requested s t r.core r.ctx r.page (s.refused.filter (fun q => !(q == r)) ++ [{ r with k := min 4 (r.k + 1) }])) ∧
  (∀ (c page : Nat) (s : State) (k : Walk), s.walks.find? (fun k => k.ctx == c && k.page == page) = some k →
    ∃ t, Sys2Proof.Machine.exec (.pageWalkDone c page) s = .next t ∧ k ∉ t.walks ∧ (∀ core ∈ k.waiters, Told t core c page) ∧
      (∀ e, (walk s c (4096 * page)).1 = .leaf e → ∀ core ∈ k.waiters, tlbFind t.tlb core c (4096 * page) = some e)) ∧
  (∀ (die : Nat) (s : State) (f : HeldFault), s.heldFaults.find? (fun f => f.die == die) = some f →
    (∀ y ∈ s.faults, ¬ (y.die = die ∧ y.ctx = f.ctx ∧ y.level = f.level ∧ y.gran = f.gran)) →
    (s.faults.filter (fun y => y.die == die)).length < 4096 →
    ∃ t y, Sys2Proof.Machine.exec (.faultBufferRetry die) s = .next t ∧ t.heldFaults = s.heldFaults.erase f ∧
      t.faults = s.faults ++ [y] ∧ y.die = die ∧ y.ctx = f.ctx ∧ y.level = f.level ∧ y.kinds = f.kind ∧ y.gran = f.gran ∧ y.waiters = [f.waiter] ∧ ∀ q ∈ s.faults, q.die = y.die → q.slot ≠ y.slot) ∧
  (∀ (s : State) (k : Cast) (dests : List Nat), castFind s k.id = some k → dests ≠ [] → dests.Nodup → (∀ d ∈ dests, d ∈ k.residual) →
    ∃ t k', Sys2Proof.Machine.exec (.multicastResidualSend k.id dests) s = .next t ∧ castFind t k.id = some k' ∧
      k'.residual = k.residual.filter (fun d => !(dests.contains d)) ∧ k'.reached = k.reached ++ dests ∧ k'.kind = k.kind ∧
      k'.acked = k.acked ∧ (∀ c w i off bs, k.kind = .tid c w i off bs → k'.done = k.done ++ dests) ∧
      ∀ c base len all p q tag, k.kind = .invalidate c base len all p q tag → k'.done = k.done ∧ ∀ d ∈ dests,
        ∀ y ∈ t.tlb, dieOf y.place = d → y.ctx = c → all = false ∧ (base + len ≤ y.base ∨ y.base + 2 ^ y.size ≤ base)) ∧
  (∀ (s : State) (k : Cast) (die c base len : Nat) (all : Bool) (p q tag : Nat), castFind s k.id = some k →
    k.kind = .invalidate c base len all p q tag → die ∈ k.reached → die ∉ k.done → drains s die c base len all = true →
    ∃ t, Sys2Proof.Machine.exec (.invalidateDieDone k.id die) s = .next t ∧ castFind t k.id = some { k with done := k.done ++ [die] }) ∧
  (∀ (s : State) (k : Cast) (die : Nat), castFind s k.id = some k → (∀ c base size pte, k.kind ≠ .collapse c base size pte) →
    die ∈ k.done → die ∉ k.acked →
    (k.acked.length < 7 → ∃ t, Sys2Proof.Machine.exec (.multicastAck k.id die) s = .next t ∧
      castFind t k.id = some { k with acked := k.acked ++ [die] }) ∧
    (7 ≤ k.acked.length → ∀ c base len all p q tag, k.kind = .invalidate c base len all p q tag →
      collapsingIn s c base len all = false → ∃ t, Sys2Proof.Machine.exec (.multicastAck k.id die) s = .next t ∧
        castFind t k.id = none ∧ Answered s t ⟨p, q, .ofNat 32 tag⟩ 0 []) ∧
    (7 ≤ k.acked.length → ∀ c n i off bs w, k.kind = .tid c n i off bs → warpFind s c n = some w →
      ∃ t w', Sys2Proof.Machine.exec (.multicastAck k.id die) s = .next t ∧ castFind t k.id = none ∧ warpFind t c n = some w' ∧
        Hold.tid k.id ∉ w'.holds)) ∧
  (∀ (s : State) (k : Cast) (die c base size pte : Nat), castFind s k.id = some k → k.kind = .collapse c base size pte →
    (die ∈ k.reached → die ∉ k.done → ∃ t, Sys2Proof.Machine.exec (.collapseNotice k.id die) s = .next t ∧
      castFind t k.id = some { k with done := k.done ++ [die] } ∧
      ∀ y ∈ t.tlb, dieOf y.place = die → y.ctx = c → base + 2 ^ size ≤ y.base ∨ y.base + 2 ^ y.size ≤ base) ∧
    (die ∈ k.done → die ∉ k.acked → k.acked.length < 7 → ∃ t, Sys2Proof.Machine.exec (.collapseAck k.id die) s = .next t ∧
      castFind t k.id = some { k with acked := k.acked ++ [die] } ∧ MemAs s t) ∧
    (die ∈ k.done → die ∉ k.acked → 7 ≤ k.acked.length → pte % 8 = 0 → ∃ t, Sys2Proof.Machine.exec (.collapseAck k.id die) s = .next t ∧
      castFind t k.id = some { k with acked := k.acked ++ [die], cleared := true } ∧
      entryAt t pte = entryAt s pte &&& ~~~ (1#64 <<< 61) ∧ ∀ a, (a < pte ∨ pte + 8 ≤ a) → cohByte t a = cohByte s a) ∧
    (k.cleared = true → ∃ t, Sys2Proof.Machine.exec (.collapseComplete k.id) s = .next t ∧ castFind t k.id = none ∧
      (∀ y ∈ t.pages, ¬ (y.ctx = c ∧ y.base = base)) ∧ MemAs s t ∧ t.warps = s.warps ∧
      ∀ y ∈ t.tlb, y.ctx = c → base + 2 ^ size ≤ y.base ∨ y.base + 2 ^ y.size ≤ base)) ∧
  (∀ (c d : Nat) (s : State), (ctxOf s c).st = .running → (ctxOf s c).preempt = none → (ctxOf s c).ctxcfg.toNat / 2 ^ 32 ≠ 0 →
    d < 64 → d ≠ c → waitsForCores s d = true → (∀ w ∈ s.warps, w.ctx = c → w.halted = none) →
    ∃ t, Sys2Proof.Machine.exec (.slicePreemption c) s = .next t ∧ ctxOf t c = { ctxOf s c with preempt := some ⟨true, []⟩ } ∧
      t.warps = s.warps) ∧
  (∀ (c n : Nat) (s : State) (w : Warp), warpFind s c n = some w → (saves s w = true ∨ stopsLaunch s w.launch = true) → w.inHandler = false →
    w.halted = none → w.forced = false → outOfCores w = false →
    ∃ t, Sys2Proof.Machine.exec (.preemptForce c n) s = .next t ∧ warpFind t c n = some { w with forced := true } ∧ t.ctxs = s.ctxs) ∧
  (∀ (c n : Nat) (s s2 : State) (w : Warp), warpFind s c n = some w → saves s w = true → mustStop s w = true → settled s w = true →
    (w.place = .resident ∨ w.place = .landed) →
    writeFrame (flushBbcs (noteHalt (endBbc s w) w) c) { w with chain := none } none = .ok s2 →
    ∃ t w', Sys2Proof.Machine.exec (.warpPreemptStop c n) s = .next t ∧ warpFind t c n = some w' ∧ w'.place = .saved ∧
      (∀ r, vEntry w'.regs r = {}) ∧ (∀ r, sGet w'.regs r = sGet w.regs r) ∧ w'.pc = w.pc ∧ MemAs s2 t ∧
      (w.halted.isSome = true → n ∈ (ctxOf t c).haltSet)) ∧
  (∀ (c : Nat) (s : State) (p : Preempt), (ctxOf s c).preempt = some p → allSaved s c = true →
    let after := (ctxOf (saveContext s c) c).st
    ∃ t, Sys2Proof.Machine.exec (.preemptComplete c) s = .next t ∧ (ctxOf t c).preempt = none ∧
      (ctxOf t c).st = (if after = .faulted then .faulted else if p.slice = true ∧ p.answers = [] then .runnable else .preempted) ∧
      (∀ b ∈ t.blocks, b.ctx = c → b.saved = true) ∧ (∀ v ∈ t.views, v.ctx = c → v.core = none) ∧
      ∀ a, p.answers = [a] → Answered (saveContext s c) t a (if after = .faulted then 19 else 0) []) ∧
  (∀ (c n : Nat) (s : State) (w : Warp) (k : Cause) (a : DWord) (rest : List (Cause × DWord)), warpFind s c n = some w →
    w.deferred = (k, a) :: rest → mayDeliver s w = true → (∀ ch, w.chain = some ch → ch.bbc = []) →
    let v := { w with deferred := rest, chain := none }
    Sys2Proof.Machine.exec (.deferredCauseDelivery c n) s = .next (raiseAt (setWarp s v) v { cause := k, deferred := true, faddr := a }
      (getAt 0 w.pc (((laneIdx.filter (fun l => !(laneBit w.exited l))).head?).getD 0)))) ∧
  (∀ (c : Nat) (s : State), (ctxOf s c).st = .teardown → registering s c = false →
    ∃ t, Sys2Proof.Machine.exec (.teardownDone c) s = .next t ∧ ctxOf t c = {} ∧
      t.warps = s.warps.filter (fun w => w.ctx != c) ∧ t.blocks = s.blocks.filter (fun b => b.ctx != c) ∧
      t.tasks = s.tasks.filter (fun k => k.ctx != c) ∧ t.views = s.views.filter (fun v => v.ctx != c) ∧
      t.copies = s.copies.filter (fun k => k.ctx != c) ∧
      t.queues = s.queues.map (fun q => if q.ctx = c then { q with st := 0, recs := [], answer := none } else q) ∧
      t.graphs = s.graphs.filter (fun y => y.ctx != c) ∧ t.insts = s.insts.filter (fun y => y.ctx != c) ∧
      t.launches = s.launches.filter (fun l => l.ctx != c) ∧ t.faults = s.faults.filter (fun f => f.ctx != c))

/-! ## Messages of hosts and peers (01_device.md R16 to R29; 26_link.md R488 to R508; 27_debug.md R509 to R519) -/

namespace Sys2Proof.Claim

/-- A message comes in its sequence to a port that answers, on an open connection of its sender that has nothing waiting; k is the
connection with the message counted and its acknowledgement taken (R18, R488 to R491). -/
def Arrives (s : State) (m : Msg) (k : Conn) : Prop :=
  (s.dev = .unowned ∨ s.dev = .owned ∨ s.dev = .handover ∨ s.dev = .failed) ∧ (getAt {} s.ports m.port).st = .up ∧
  ∃ k0, connFind s m.port m.conn = some k0 ∧ k0.peer = m.peer ∧ k0.rx = m.seq ∧ k0.queue = [] ∧
    k = { k0 with rx := m.seq + 1, unacked := k0.unacked.filter (fun q => decide ((q.seq - m.ack).toNat < 2 ^ 31)) }

/-- The machine once the message is counted. -/
def counted (s : State) (k : Conn) : State := setConn { s with sent := [] } k

/-- The message is answered with a COMPLETION, the next of its connection (R490, R491). -/
def Answers (t : State) (k : Conn) (m : Msg) (status : Nat) (payload : List Byte) : Prop :=
  ∃ k' q, connFind t m.port m.conn = some k' ∧ k'.unacked = k.unacked ++ [q] ∧ k'.tx = k.tx + 1 ∧ k'.rx = k.rx ∧ q.ty = 7 ∧
    q.seq = k.tx ∧ q.tag = m.tag ∧ q.op = .ofNat 8 status ∧ q.payload = payload

/-- The connection of a message is waiting with it at the head of its queue. -/
def WaitsThere (t : State) (m : Msg) (ty : Nat) : Prop :=
  ∃ k', connFind t m.port m.conn = some k' ∧ k'.queue = [(ty, m)]

/-- A management command of the owner on port 0, with n bytes of payload, outside FAILED (R21, R22, R499). -/
def FromOwner (s : State) (m : Msg) (k : Conn) (n : Nat) : Prop :=
  Arrives s m k ∧ k.owner = true ∧ k.port = 0 ∧ field m.addr 57 0 = 0 ∧ m.payload.length = n ∧ s.dev ≠ .failed

/-- The cores, the engines and memory are as they were. -/
def CoresAs (s t : State) : Prop :=
  t.warps = s.warps ∧ t.blocks = s.blocks ∧ t.tasks = s.tasks ∧ t.copies = s.copies ∧ t.mem = s.mem ∧ t.slices = s.slices ∧
  t.l1 = s.l1 ∧ t.net = s.net

/-- The package and what its queues run are as they were. -/
def PackageAs (s t : State) : Prop :=
  t.dev = s.dev ∧ t.ownerKey = s.ownerKey ∧ t.featAccept = s.featAccept ∧ t.islands = s.islands ∧ t.ports = s.ports ∧
  t.errLog = s.errLog ∧ t.queues = s.queues ∧ t.graphs = s.graphs ∧ t.insts = s.insts ∧ t.launches = s.launches

/-- Nothing but connections has changed. -/
def NothingDone (s t : State) : Prop := CoresAs s t ∧ PackageAs s t ∧ t.ctxs = s.ctxs ∧ t.casts = s.casts

/-- Nothing but a context's record and connections has changed. -/
def OneContext (s t : State) (c : Nat) : Prop :=
  CoresAs s t ∧ PackageAs s t ∧ t.casts = s.casts ∧ ∀ d, d ≠ c → ctxOf t d = ctxOf s d

/-- The message is answered with a status, and nothing is done. -/
def Refuses (i : Instr) (s : State) (m : Msg) (k : Conn) (status : Nat) : Prop :=
  ∃ t, Sys2Proof.Machine.exec i s = .next t ∧ Answers t k m status [] ∧ NothingDone s t

/-- A context's record is replaced and the command is answered DONE. -/
def SetsContext (i : Instr) (s : State) (m : Msg) (k : Conn) (y : Ctx) : Prop :=
  ∃ t, Sys2Proof.Machine.exec i s = .next t ∧ Answers t k m 0 [] ∧ OneContext s t (ctxField m) ∧ ctxOf t (ctxField m) = y

/-- The commands that R22 leaves to the owner, by their message. -/
def ownerOnly : Instr → Option Msg
  | .regwrite m => some m
  | .featacceptWrite _ => none
  | .handover m => some m
  | .release m => some m
  | .cancel m => some m
  | .reset m => some m
  | .fwStage m => some m
  | .fwActivate m => some m
  | .fwAdvance m => some m
  | .spare m => some m
  | .invalidate m => some m
  | .resolve m => some m
  | .unresolvable m => some m
  | .build m => some m
  | .run m => some m
  | .preempt m => some m
  | .resume m => some m
  | .teardown m => some m
  | .qCreate m => some m
  | .qReset m => some m
  | .qDestroy m => some m
  | .loadGraph m => some m
  | .unloadGraph m => some m
  | .setTid m => some m
  | .setFabwin m => some m
  | .setSafept m => some m
  | .setBbc m => some m
  | .setRing m => some m
  | .halt m => some m
  | .dresume m => some m
  | .step m => some m
  | .readWarp m => some m
  | .writeWarp m => some m
  | .trigger m => some m
  | _ => none

end Sys2Proof.Claim

/-- R21, R22: a command of the owner on a connection that is none of the owner's, or on a port from 1 to 8, is answered NOT_OWNER and
does nothing. R306 to R309, R311, R324: BUILD, RUN, PREEMPT, RESUME and TEARDOWN in the states that admit them, and their answers in
the others; a teardown frees the context's queues. R449, R497, R508, R519, R522: SET_TID, SET_FABWIN, SET_SAFEPT, SET_BBC and SET_RING. -/
def Obligations.ContextCommands : Prop :=
  (∀ (i : Instr) (m : Msg) (s : State) (k : Conn), ownerOnly i = some m → Arrives s m k → (k.owner = false ∨ k.port ≠ 0) →
    Refuses i s m k 1) ∧
  (∀ (m : Msg) (s : State) (k : Conn), FromOwner s m k 88 →
    let x := ctxOf s (ctxField m)
    let w (n : Nat) : DWord := .ofNat 64 (pl m (8 * n) 8)
    (s.featWritten = false → Refuses (.build m) s m k 9) ∧
    (s.featWritten = true → buildBad (buildWords m) = true → Refuses (.build m) s m k 16) ∧
    (s.featWritten = true → buildBad (buildWords m) = false → x.st ≠ .empty → Refuses (.build m) s m k 17) ∧
    (s.featWritten = true → buildBad (buildWords m) = false → x.st = .empty →
      ∃ t, Sys2Proof.Machine.exec (.build m) s = .next t ∧ Answers t k m 0 [] ∧ OneContext s t (ctxField m) ∧
        let y := ctxOf t (ctxField m)
        y.st = .built ∧ y.codebase = w 0 ∧ y.trapvec = w 1 ∧ y.trapctl = w 2 ∧ y.framebase = w 3 ∧ y.savebase = w 4 ∧ y.ptroot = w 5 ∧
        y.ctxcfg = w 6 ∧ y.ctxlim = w 7 ∧ y.regback = w 8 ∧ y.arena = w 9 ∧ y.hostwin = w 10 ∧ y.raceEn = s.featAccept.getLsbD 3 ∧
        y.rndmode = 0 ∧ y.pol = false ∧ y.staletrap = false ∧ y.spills = 0 ∧ y.luskip = 0 ∧ y.lostTags = 0 ∧ y.dbgctl = 0 ∧
        y.bbcctl = 0 ∧ y.safept = none ∧ y.strands = [] ∧ y.tids = [] ∧ y.fabwin = [])) ∧
  (∀ (m : Msg) (s : State) (k : Conn), FromOwner s m k 0 →
    let x := ctxOf s (ctxField m)
    (x.st = .built → SetsContext (.run m) s m k { x with st := .runnable }) ∧
    (x.st ≠ .built → Refuses (.run m) s m k 8) ∧
    ((x.st = .running ∨ x.st = .runnable) → x.preempt = none →
      ∃ t, Sys2Proof.Machine.exec (.preempt m) s = .next t ∧ OneContext s t (ctxField m) ∧ t.conns = (counted s k).conns ∧
        ctxOf t (ctxField m) = { x with preempt := some ⟨false, [answerOf k m]⟩ }) ∧
    ((x.st = .running ∨ x.st = .runnable) → (∃ p, x.preempt = some p ∧ p.answers ≠ []) → Refuses (.preempt m) s m k 7) ∧
    (x.st = .halted → Refuses (.preempt m) s m k 18) ∧
    (x.st ≠ .running → x.st ≠ .runnable → x.st ≠ .halted → Refuses (.preempt m) s m k 8) ∧
    (x.st = .preempted → SetsContext (.resume m) s m k { x with st := .runnable }) ∧
    (x.st = .faulted → Refuses (.resume m) s m k 19) ∧
    (x.st ≠ .preempted → x.st ≠ .faulted → x.preempt = none → Refuses (.resume m) s m k 8) ∧
    (x.st = .empty → Refuses (.teardown m) s m k 8) ∧
    (x.st ≠ .empty → ∃ t, Sys2Proof.Machine.exec (.teardown m) s = .next t ∧ OneContext s { t with queues := s.queues } (ctxField m) ∧
      ctxOf t (ctxField m) = { x with st := .teardown, preempt := none, teardown := x.teardown ++ [answerOf k m] } ∧
      (∀ q ∈ t.queues, q.ctx = ctxField m → q.st = 0) ∧
      (∀ n, (∀ q ∈ s.queues, q.num = n → q.ctx ≠ ctxField m) → queueFind t n = queueFind s n) ∧
      (x.preempt = none → (∀ q ∈ s.queues, q.ctx = ctxField m → q.answer = none) → t.conns = (counted s k).conns))) ∧
  (∀ (m : Msg) (s : State) (k : Conn), FromOwner s m k 136 → tidBusy s (ctxField m) = false → pl m 1 7 = 0 →
    let x := ctxOf s (ctxField m)
    ((x.st = .empty ∨ x.st = .teardown) → Refuses (.setTid m) s m k 8) ∧
    (x.st ≠ .empty → x.st ≠ .teardown → imageBad s (m.payload.drop 8) = true → Refuses (.setTid m) s m k 25) ∧
    (x.st ≠ .empty → x.st ≠ .teardown → imageBad s (m.payload.drop 8) = false →
      ∃ t im, Sys2Proof.Machine.exec (.setTid m) s = .next t ∧ Answers t k m 0 [] ∧ OneContext s t (ctxField m) ∧
        getKey (pl m 0 1) (ctxOf t (ctxField m)).tids = some im ∧
        (∀ n, n < 128 → getAt 0 im n = if n = 11 then .ofNat 8 ((getAt 0 m.payload 19).toNat % 128 + 128) else getAt 0 m.payload (8 + n)) ∧
        ∀ j, j ≠ pl m 0 1 → getKey j (ctxOf t (ctxField m)).tids = getKey j x.tids)) ∧
  (∀ (m : Msg) (s : State) (k : Conn), FromOwner s m k 24 → pl m 1 7 = 0 → pl m 0 1 < 128 → fabwinBad (m.payload.drop 8) = false →
    let x := ctxOf s (ctxField m)
    (x.st = .empty → Refuses (.setFabwin m) s m k 8) ∧
    (x.st ≠ .empty → ∃ f, SetsContext (.setFabwin m) s m k { x with fabwin := f } ∧ getKey (pl m 0 1) f = some (m.payload.drop 8) ∧
      ∀ j, j ≠ pl m 0 1 → getKey j f = getKey j x.fabwin)) ∧
  (∀ (m : Msg) (s : State) (k : Conn), FromOwner s m k 16 → pl m 12 4 = 0 →
    let x := ctxOf s (ctxField m)
    let n := pl m 8 4
    let ok := listOk (counted s k) (ctxField m) (pl m 0 8) n
    ((n = 0 ∨ 65536 < n) → Refuses (.setSafept m) s m k 4) ∧
    (n ≠ 0 → n ≤ 65536 → x.st = .empty → Refuses (.setSafept m) s m k 8) ∧
    (n ≠ 0 → n ≤ 65536 → x.st ≠ .empty → ok = false → Refuses (.setSafept m) s m k 26) ∧
    (n ≠ 0 → n ≤ 65536 → x.st ≠ .empty → ok = true → (∃ b ∈ x.bp, b.getLsbD 31 = true ∧ n ≤ b.toNat % 65536) →
      Refuses (.setSafept m) s m k 27) ∧
    (n ≠ 0 → n ≤ 65536 → x.st ≠ .empty → ok = true → (∀ b ∈ x.bp, b.getLsbD 31 = true → b.toNat % 65536 < n) →
      SetsContext (.setSafept m) s m k { x with safept := some (.ofNat 64 (pl m 0 8), n) })) ∧
  (∀ (m : Msg) (s : State) (k : Conn), FromOwner s m k 8 →
    let x := ctxOf s (ctxField m)
    let v : DWord := .ofNat 64 (pl m 0 8)
    ((field v 62 57 ≠ 0 ∨ field v 2 0 ≠ 0) → Refuses (.setBbc m) s m k 4) ∧
    (field v 62 57 = 0 → field v 2 0 = 0 → (x.st = .built ∨ x.st = .preempted) →
      SetsContext (.setBbc m) s m k { x with bbcctl := v }) ∧
    (field v 62 57 = 0 → field v 2 0 = 0 → x.st ≠ .built → x.st ≠ .preempted → Refuses (.setBbc m) s m k 8)) ∧
  (∀ (m : Msg) (s : State) (k : Conn), FromOwner s m k 24 → 4 ≤ pl m 1 1 → pl m 1 1 ≤ 20 → pl m 2 6 = 0 → pl m 20 4 = 0 →
    pl m 8 8 % 8 = 0 →
    let x := ctxOf s (ctxField m)
    let r : Ring := { base := .ofNat 64 (pl m 8 8), k := pl m 1 1, period := pl m 16 4 }
    (x.st ≠ .empty → pl m 0 1 = 0 → (pl m 16 4 = 0 ∨ 32 ≤ pl m 16 4 ∧ pl m 16 4 ≤ 2 ^ 24) →
      SetsContext (.setRing m) s m k { x with sampleRing := some r }) ∧
    (x.st ≠ .empty → pl m 0 1 = 1 → pl m 16 4 = 0 → SetsContext (.setRing m) s m k { x with stampRing := some r }) ∧
    (pl m 0 1 = 0 → pl m 16 4 ≠ 0 → (pl m 16 4 < 32 ∨ 2 ^ 24 < pl m 16 4) → Refuses (.setRing m) s m k 4) ∧
    (x.st = .empty → pl m 0 1 = 1 → pl m 16 4 = 0 → Refuses (.setRing m) s m k 8))

/-- R295, R298, R507: INVALIDATE begins its multicast to the eight compute dies, and is answered at its end; RESOLVE and UNRESOLVABLE free
the fault-buffer entry that they name, whose waiting warps wait on it no more. R330 to R332, R336, R344: Q_CREATE, Q_RESET,
Q_DESTROY, the end of a forced destruction, LOAD_GRAPH's first request and UNLOAD_GRAPH; a TRIGGER gives its queue the new WR once
the WRITEs before it on its connection are in memory. -/
def Obligations.QueueAndGraphCommands : Prop :=
  (∀ (m : Msg) (s : State) (k : Conn), FromOwner s m k 16 →
    ∃ t, Sys2Proof.Machine.exec (.invalidate m) s = .next t ∧ CoresAs s t ∧ PackageAs s t ∧ t.ctxs = s.ctxs ∧
      t.conns = (counted s k).conns ∧ t.casts = s.casts ++ [⟨s.fresh, .invalidate (ctxField m) (pl m 0 8) (pl m 8 8) (pl m 8 8 == 0)
        k.port k.num.toNat m.tag.toNat, [0, 1, 2, 3, 4, 5, 6, 7], [], [], [], false⟩]) ∧
  (∀ (bad : Bool) (i : Instr) (m : Msg) (s : State) (k : Conn), FromOwner s m k 8 → i = (if bad then .unresolvable m else .resolve m) →
    pl m 2 6 = 0 →
    ((∀ f ∈ s.faults, ¬ (f.die = pl m 0 2 / 4096 ∧ f.slot = pl m 0 2 % 4096 ∧ f.ctx = ctxField m)) → Refuses i s m k 4) ∧
    (∀ f, s.faults.find? (fun f => f.die == pl m 0 2 / 4096 && f.slot == pl m 0 2 % 4096 && f.ctx == ctxField m) = some f →
      ∃ t, Sys2Proof.Machine.exec i s = .next t ∧ Answers t k m 0 [] ∧ t.faults = s.faults.filter (fun x => !(x == f)) ∧ t.mem = s.mem ∧
        t.slices = s.slices ∧ t.l1 = s.l1 ∧ t.ctxs = s.ctxs ∧
        ∀ c n w, .warp c n ∈ f.waiters → warpFind s c n = some w → ∃ w', warpFind t c n = some w' ∧ w'.regs = w.regs ∧ w'.pc = w.pc ∧
          (∀ ks, .fault ks ∈ w'.holds → (f.die, f.level, f.gran) ∉ ks) ∧
          (bad = true → parkedOn w (f.die, f.level, f.gran) = true → (f.gran, granLog f.level) ∈ w'.attempt.bad))) ∧
  (∀ (m : Msg) (s : State) (k : Conn), FromOwner s m k 16 →
    let c := ctxField m
    let n := pl m 0 1
    let kind := pl m 1 1
    let lg := pl m 2 1
    let base := pl m 8 8
    pl m 4 4 = 0 → kind ≤ 1 → base < 2 ^ 57 →
    ((∃ q, queueFind s n = some q) → Refuses (.qCreate m) s m k 21) ∧
    (queueFind s n = none → 4 ≤ lg → lg ≤ 16 → base % (2 ^ lg * (if kind = 0 then 64 else 32)) = 0 → (ctxOf s c).st ≠ .empty →
      (kind = 0 → ∃ q, queueFind s (pl m 3 1) = some q ∧ q.kind = 1 ∧ q.st = 1 ∧ q.ctx = c) →
      ∃ t, Sys2Proof.Machine.exec (.qCreate m) s = .next t ∧ Answers t k m 0 [] ∧ CoresAs s t ∧ t.ctxs = s.ctxs ∧
        queueFind t n = some { num := n, base := .ofNat 64 base, cq := pl m 3 1, st := 1, kind := kind, ctx := c, log2 := lg } ∧
        ∀ j, j ≠ n → queueFind t j = queueFind s j)) ∧
  (∀ (m : Msg) (s : State) (k : Conn), FromOwner s m k 8 →
    let n := pl m 0 1
    let v : BitVec 32 := .ofNat 32 (pl m 4 4)
    (pl m 1 3 = 0 → (∀ q, queueFind s n = some q → q.ctx ≠ ctxField m) → Refuses (.qReset m) s m k 21) ∧
    (∀ q, pl m 1 3 = 0 → queueFind s n = some q → q.ctx = ctxField m →
      (q.st ≠ 2 → Refuses (.qReset m) s m k 8) ∧
      (q.st = 2 → 2 ^ q.log2 < (q.wr - v).toNat → Refuses (.qReset m) s m k 22) ∧
      (q.st = 2 → (q.wr - v).toNat ≤ 2 ^ q.log2 → ∃ t, Sys2Proof.Machine.exec (.qReset m) s = .next t ∧ Answers t k m 0 [] ∧
        CoresAs s t ∧ t.ctxs = s.ctxs ∧ queueFind t n = some { q with st := 1, rd := v } ∧
        ∀ j, j ≠ n → queueFind t j = queueFind s j)) ∧
    (∀ q, pl m 1 1 ≤ 1 → pl m 2 6 = 0 → queueFind s n = some q → q.ctx = ctxField m →
      (q.st = 3 → Refuses (.qDestroy m) s m k 8) ∧
      (q.st ≠ 3 → queueBusy s q = false → ∃ t, Sys2Proof.Machine.exec (.qDestroy m) s = .next t ∧ Answers t k m 0 [] ∧
        CoresAs s t ∧ t.ctxs = s.ctxs ∧ queueFind t n = none ∧ ∀ j, j ≠ n → queueFind t j = queueFind s j) ∧
      (q.st ≠ 3 → queueBusy s q = true → pl m 1 1 = 0 → Refuses (.qDestroy m) s m k 7) ∧
      (q.st ≠ 3 → queueBusy s q = true → pl m 1 1 = 1 → ∃ t q', Sys2Proof.Machine.exec (.qDestroy m) s = .next t ∧
        CoresAs s t ∧ t.ctxs = s.ctxs ∧ t.conns = (counted s k).conns ∧ queueFind t n = some q' ∧ q'.st = 3 ∧
        q'.answer = some (k.port, k.num.toNat, m.tag.toNat) ∧ (q.kind = 0 → ∀ j, j ≠ n → queueFind t j = queueFind s j)))) ∧
  (∀ (n : Nat) (s : State) (q : Queue), queueFind s n = some q → q.st = 3 →
    (q.kind = 0 → mayDiscard s q.ctx ((runsOf s q).flatMap (instLaunches s)) = true) →
    ∃ t, Sys2Proof.Machine.exec (.queueDestroyDone n) s = .next t ∧ queueFind t n = none ∧
      (q.kind ≠ 0 → CoresAs s t ∧ t.ctxs = s.ctxs) ∧
      (q.kind = 0 → ∀ x ∈ t.insts, ¬ (x.queue = q.num ∧ x.ctx = q.ctx)) ∧
      ((q.kind ≠ 0 ∨ (ctxOf s q.ctx).strands = []) → ∀ p c g, q.answer = some (p, c, g) → Answered s t ⟨p, c, .ofNat 32 g⟩ 0 [])) ∧
  (∀ (m : Msg) (s : State) (k : Conn), FromOwner s m k 24 →
    let num := pl m 0 2
    let n := pl m 16 8
    num < 1024 → pl m 2 6 = 0 → (ctxOf s (ctxField m)).st ≠ .empty → graphFits s num n = true → graphBusy s num = false →
    (∀ g ∈ k.loads, g.num ≠ num) → 16 ≤ n →
    ∃ t k' q, Sys2Proof.Machine.exec (.loadGraph m) s = .next t ∧ NothingDone s t ∧ connFind t m.port m.conn = some k' ∧
      k'.unacked = k.unacked ++ [q] ∧ q.ty = 1 ∧ q.seq = k.tx ∧ q.tag = k.tx ∧ q.addr = .ofNat 64 (pl m 8 8) ∧ q.len = min 4096 n ∧
      k'.reqs = k.reqs ++ [(k.tx, .graph num 0)] ∧ k'.tx = k.tx + 1) ∧
  (∀ (m : Msg) (s : State) (k : Conn), FromOwner s m k 8 → pl m 2 6 = 0 →
    let num := pl m 0 2
    (graphFind s (ctxField m) num = none → Refuses (.unloadGraph m) s m k 24) ∧
    ((∃ g, graphFind s (ctxField m) num = some g) → graphBusy s num = true → Refuses (.unloadGraph m) s m k 7) ∧
    ((∃ g, graphFind s (ctxField m) num = some g) → graphBusy s num = false →
      ∃ t, Sys2Proof.Machine.exec (.unloadGraph m) s = .next t ∧ Answers t k m 0 [] ∧ CoresAs s t ∧ t.ctxs = s.ctxs ∧
        t.graphs = s.graphs.filter (fun g => !(g.num == num)))) ∧
  (∀ (m : Msg) (s : State) (k : Conn), Arrives s m k → k.owner = true → k.port = 0 → field m.addr 57 8 = 0 → m.payload.length = 4 →
    let n := field m.addr 7 0
    let v : BitVec 32 := .ofNat 32 (pl m 0 4)
    ((∀ q, queueFind s n = some q → q.ctx = ctxField m → q.kind = 0 → q.st = 0 ∨ q.st = 3) → Refuses (.trigger m) s m k 21) ∧
    (∀ q, queueFind s n = some q → q.ctx = ctxField m → q.kind = 0 → q.st ≠ 0 → q.st ≠ 3 →
      ((2 ^ q.log2 < (v - q.rd).toNat ∨ 2 ^ 31 ≤ (v - q.wr).toNat) → Refuses (.trigger m) s m k 22) ∧
      ((v - q.rd).toNat ≤ 2 ^ q.log2 → (v - q.wr).toNat < 2 ^ 31 →
        (hostPending s k = true → ∃ t, Sys2Proof.Machine.exec (.trigger m) s = .next t ∧ WaitsThere t m 5 ∧ NothingDone s t) ∧
        (hostPending s k = false → ∃ t, Sys2Proof.Machine.exec (.trigger m) s = .next t ∧ Answers t k m 0 [] ∧ t.warps = s.warps ∧
          t.blocks = s.blocks ∧ t.ctxs = s.ctxs ∧ (∀ a, cohByte t a = cohByte s a) ∧
          (∀ y ∈ hostWords s k, y.st = .registered → (sliceGet t y.wa).st = .home) ∧
          queueFind t n = some { q with wr := v } ∧ ∀ j, j ≠ n → queueFind t j = queueFind s j))))

/-- R513 to R517: HALT halts the warps of its granule, DRESUME releases them, STEP gives a halted warp its step set, READ_WARP returns
bytes of a halted warp's image, WRITE_WARP gathers an image and restores it. R518, R519: a sample marks the next warp of a core, is
recorded at a stop site, or dropped. -/
def Obligations.DebuggerCommands : Prop :=
  (∀ (m : Msg) (s : State) (k : Conn), FromOwner s m k 8 → haltBad m = false →
    let c := ctxField m
    let x := ctxOf s c
    let g := pl m 0 1
    let hit (w : Warp) : Bool := w.ctx == c && named g (pl m 4 4) w
    (x.dbgctl.getLsbD 0 = false → Refuses (.halt m) s m k 28) ∧
    (x.dbgctl.getLsbD 0 = true → (g = 3 ∧ x.st ≠ .runnable ∧ x.st ≠ .running ∨ g ≠ 3 ∧ (x.st = .empty ∨ x.st = .teardown)) →
      Refuses (.halt m) s m k 8) ∧
    (x.dbgctl.getLsbD 0 = true → (g = 3 → x.st = .runnable ∨ x.st = .running) → (g ≠ 3 → x.st ≠ .empty ∧ x.st ≠ .teardown) →
      ∃ t, Sys2Proof.Machine.exec (.halt m) s = .next t ∧ t.mem = s.mem ∧ t.slices = s.slices ∧ t.l1 = s.l1 ∧ t.blocks = s.blocks ∧
        (ctxOf t c).st = (if g = 3 then .halted else x.st) ∧
        t.warps = s.warps.map (fun w => if hit w = true ∧ w.halted = none
          then { w with halted := some 0, haltInfo := none, yielded := false, starve := 0 } else w) ∧
        (∀ w ∈ s.warps, hit w = true → w.halted = none → inMemory w = true → w.num ∈ (ctxOf t c).haltSet) ∧
        (x.halting = [] → (∀ w ∈ s.warps, w.ctx = c → w.chain = none) → Answers t k m 0 [])) ∧
    ((x.st = .empty ∨ x.st = .teardown) → Refuses (.dresume m) s m k 8) ∧
    (x.st ≠ .empty → x.st ≠ .teardown → ∃ t, Sys2Proof.Machine.exec (.dresume m) s = .next t ∧ Answers t k m 0 [] ∧
      t.mem = s.mem ∧ t.slices = s.slices ∧ t.l1 = s.l1 ∧ t.blocks = s.blocks ∧
      t.warps = s.warps.map (fun w => if hit w = true ∧ w.halted.isSome = true
        then { w with halted := none, haltInfo := none, stepSet := none, bpSkip := true, noPrev := true } else w) ∧
      ((ctxOf t c).st = .halted ↔ x.st = .halted ∧ g ≠ 3) ∧ (g = 3 → (ctxOf t c).haltSet = [] ∧ (ctxOf t c).haltDies = []))) ∧
  (∀ (m : Msg) (s : State) (k : Conn), FromOwner s m k 8 → pl m 4 1 < 32 → pl m 5 1 ≤ 1 → pl m 6 2 = 0 →
    let c := ctxField m
    let x := ctxOf s c
    let l := pl m 4 1
    let n := pl m 0 4
    (x.dbgctl.getLsbD 0 = false → Refuses (.step m) s m k 28) ∧
    (x.dbgctl.getLsbD 0 = true → warpFind s c n = none → Refuses (.step m) s m k 29) ∧
    (∀ w, x.dbgctl.getLsbD 0 = true → warpFind s c n = some w → w.halted = none → Refuses (.step m) s m k 29) ∧
    (∀ w, x.dbgctl.getLsbD 0 = true → warpFind s c n = some w → w.halted.isSome = true → w.chain = none → inMemory w = false →
      x.st ≠ .faulted → x.st ≠ .teardown →
      (laneBit (live w) l = false → Refuses (.step m) s m k 30) ∧
      (laneBit (live w) l = true → wouldPark (counted s k) w (fetchAt (counted s k) w (getAt 0 w.pc l)) = true →
        Refuses (.step m) s m k 31) ∧
      (laneBit (live w) l = true → wouldPark (counted s k) w (fetchAt (counted s k) w (getAt 0 w.pc l)) = false →
        ∃ t set, Sys2Proof.Machine.exec (.step m) s = .next t ∧ Answers t k m 0 [] ∧ t.mem = s.mem ∧ t.ctxs = s.ctxs ∧
          warpFind t c n = some { w with halted := none, haltInfo := none, stepSet := some set } ∧
          (boundSize w ≤ 1 → ∀ j, j < 32 → laneBit set j = (laneBit (live w) j &&
            (j == l || pl m 5 1 == 1 && keyOf w j == keyOf w l)))))) ∧
  (∀ (m : Msg) (s : State) (k : Conn) (w : Warp), FromOwner s m k 8 → pl m 6 2 % 4 = 0 → pl m 6 2 ≤ 4096 → pl m 4 2 + pl m 6 2 ≤ 8704 →
    warpFind s (ctxField m) (pl m 0 4) = some w →
    (w.halted = none → Refuses (.readWarp m) s m k 29) ∧
    (w.halted.isSome = true → w.chain = none → inMemory w = false →
      ∃ t im, Sys2Proof.Machine.exec (.readWarp m) s = .next t ∧ NothingDone s t ∧
        Answers t k m 0 ((im.drop (pl m 4 2)).take (pl m 6 2)) ∧
        (∀ i, i < 512 → getAt 0 im i = getAt 0 (frameHeader w w.haltInfo true) i) ∧
        (∀ j, j < 64 → fr im (512 + 8 * j) 8 = (sGet w.regs j).toNat) ∧
        (∀ r l, r < 56 → l < 32 → (vEntry w.regs r).st = .unmapped → fr im (1024 + 128 * r + 4 * l) 4 = 0) ∧
        ((∀ r, r < 56 → (vEntry w.regs r).st ≠ .spilled) → ∀ r l, r < 56 → l < 32 → (vEntry w.regs r).st = .mapped →
          (vEntry w.regs r).val ≠ [] → fr im (1024 + 128 * r + 4 * l) 4 = (lane (vGet w.regs r) l).toNat))) ∧
  (∀ (m : Msg) (s : State) (k : Conn) (w : Warp) (n : Nat) (got : List Byte), FromOwner s m k n → 8 ≤ n → n ≤ 4096 →
    pl m 6 1 ≤ 1 → pl m 7 1 = 0 → (k.ww = some (ctxField m, pl m 0 4, got) ∨ k.ww = none ∧ got = []) →
    (pl m 4 2 ≠ got.length → Refuses (.writeWarp m) s m k 4) ∧
    (pl m 4 2 = got.length → warpFind s (ctxField m) (pl m 0 4) = some w →
      (w.halted = none → Refuses (.writeWarp m) s m k 29) ∧
      (w.halted.isSome = true → w.chain = none →
        let im := got ++ m.payload.drop 8
        (pl m 6 1 = 0 → ∃ t k', Sys2Proof.Machine.exec (.writeWarp m) s = .next t ∧ Answers t k m 0 [] ∧ NothingDone s t ∧
          connFind t m.port m.conn = some k' ∧ k'.ww = some (ctxField m, pl m 0 4, im)) ∧
        (pl m 6 1 = 1 → im.length ≠ 8704 → Refuses (.writeWarp m) s m k 4) ∧
        (pl m 6 1 = 1 → im.length = 8704 → frameBad w im = true → Refuses (.writeWarp m) s m k 14) ∧
        (pl m 6 1 = 1 → im.length = 8704 → frameBad w im = false → inMemory w = false → fr im 200 8 = 0 →
          ∃ t w', Sys2Proof.Machine.exec (.writeWarp m) s = .next t ∧ Answers t k m 0 [] ∧ t.mem = s.mem ∧ t.ctxs = s.ctxs ∧
            warpFind t w.ctx w.num = some w' ∧ w'.inHandler = w.inHandler ∧ w'.f = w.f ∧ w'.halted = w.halted ∧
            (∀ r, vEntry w'.regs r = {}) ∧ (∀ j, j < 64 → sGet w'.regs j = .ofNat 64 (fr im (512 + 8 * j) 8)) ∧
            (∀ j, 0 < j → j < 16 → mGet w'.regs j = .ofNat 32 (fr im (264 + 4 * j) 4)) ∧
            ∀ l, l < 32 → laneBit w.exited l = false → getAt 0 w'.pc l = .ofNat 32 (fr im (4 * l) 4))))) ∧
  (∀ (c core n : Nat) (s : State) (r : Ring), (ctxOf s c).sampleRing = some r → r.period ≠ 0 →
    let here (w : Warp) : Prop := w.ctx = c ∧ w.core = core ∧ (w.place = .resident ∨ w.place = .landed)
    (∃ w ∈ s.warps, here w ∧ w.num = n) →
    ((∀ a, getKey core (ctxOf s c).marks = some a → a < n ∧ ∀ w ∈ s.warps, here w → a < w.num → n ≤ w.num) ∨
      ∃ a, getKey core (ctxOf s c).marks = some a ∧ (∀ w ∈ s.warps, here w → w.num ≤ a ∧ n ≤ w.num)) →
    (getKey core (ctxOf s c).marks = none → ∀ w ∈ s.warps, here w → n ≤ w.num) →
    ∃ t, Sys2Proof.Machine.exec (.sampleMark c core) s = .next t ∧
      t.warps = s.warps.map (fun w => if w.ctx = c ∧ w.num = n then { w with marked := true } else w) ∧
      getKey core (ctxOf t c).marks = some n ∧ t.mem = s.mem ∧ t.l1 = s.l1) ∧
  (∀ (c n : Nat) (s : State) (w : Warp), warpFind s c n = some w → w.marked = true → running w = true → atStopSite s w = true →
    ∃ t, Sys2Proof.Machine.exec (.sampleRecord c n) s = .next t ∧
      (∀ v ∈ t.warps, v.ctx = c → v.num = n → v.marked = false) ∧ t.mem = (ringRecord s c (ctxOf s c).sampleRing (sampleBytes s w)).1.mem ∧
      (ctxOf t c).sampleRing = (ringRecord s c (ctxOf s c).sampleRing (sampleBytes s w)).2) ∧
  (∀ (c n : Nat) (s : State) (w : Warp), warpFind s c n = some w → w.marked = true →
    ∃ t, Sys2Proof.Machine.exec (.sampleMarkDrop c n) s = .next t ∧
      (∀ v ∈ t.warps, v.ctx = c → v.num = n → v.marked = false) ∧
      ((ctxOf s c).sampleRing = none → t.mem = s.mem ∧ t.slices = s.slices))

namespace Sys2Proof.Claim

/-- An access of n bytes passes its checks in a state: from the host under the owner's authority, through the tables of the context
that ADDR names, with the leaf of its page; from a peer, in an import range that admits it (R21, R493, R498). -/
def Reaches (s : State) (k : Conn) (m : Msg) (n : Nat) (rd wr : Bool) (pa : Nat) (e : Option (BitVec 64)) : Prop :=
  (k.port = 0 ∧ k.owner = true ∧ field m.addr 57 57 = 0 ∧ (ctxOf s (ctxField m)).st ≠ .empty ∧ k.bad = [] ∧
    ∃ l, e = some l ∧ (walk s (ctxField m) (field m.addr 56 0)).1 = .leaf l ∧ leafKind l = 0 ∧ (rd = true → leafR l = true) ∧
      (wr = true → leafW l = true) ∧ field m.addr 56 0 + n ≤ leafBase l (field m.addr 56 0) + 2 ^ leafLog l ∧
      pa = leafPa l (field m.addr 56 0) ∧ isMemory pa = true) ∨
  (k.port ≠ 0 ∧ e = none ∧ field m.addr 63 52 = 0 ∧ pa = m.addr.toNat ∧ isMemory pa = true ∧ isMemory (pa + n - 1) = true ∧
    ∃ r ∈ s.imports, r.base.toNat ≤ pa ∧ pa + n ≤ r.base.toNat + r.len.toNat ∧ (rd = true → r.r = true) ∧ (wr = true → r.w = true))

/-- No registration of the host agent is out for the words of n bytes. -/
def NoneOut (s : State) (pa n : Nat) : Prop := ∀ x ∈ s.l1, x.owner = hostOwner → x.st = .pending → ∀ j, j < n → x.wa ≠ (pa + j) / 4

/-- Whether a page still to be collapsed holds up the access (R292). -/
def heldUp (s : State) (m : Msg) (e : Option (BitVec 64)) : Bool :=
  match e with
  | some l => mustCollapse s (ctxField m) (field m.addr 56 0) l
  | none => false

end Sys2Proof.Claim

/-- R21, R493 to R498: READ returns the bytes of memory as all agents see them; WRITE leaves its words in the host agent, registered or
to be registered, and is answered once all are; WRITE_REL takes the connection's registered words home, then writes its own bytes;
ATOMIC changes its word and returns the old value. A host without ownership is answered NOT_OWNER; a page that is not present, and for a write
one that must collapse first, makes the message wait. A COMPLETION gives the device's own request its answer, an ACK drops what it covers. -/
def Obligations.HostAccesses : Prop :=
  (∀ (i : Instr) (m : Msg) (s : State) (k : Conn), Arrives s m k → k.port = 0 →
    (i = .read m ∨ i = .write m ∨ i = .writeRel m ∨ i = .atomic m) →
    (k.owner = false → Refuses i s m k 1) ∧
    (k.owner = true → field m.addr 57 57 = 0 → (ctxOf s (ctxField m)).st = .empty →
      (i = .read m → m.len.toNat ≤ 4096 ∧ m.payload = []) →
      (i = .atomic m → m.op.toNat ≤ 11 ∧ m.payload.length = (if m.op.toNat = 9 then 8 else 4) ∧ m.addr.toNat % 4 = 0) →
      Refuses i s m k 2)) ∧
  (∀ (m : Msg) (s : State) (k : Conn), Arrives s m k → m.len.toNat ≤ 4096 → m.payload = [] →
    (∀ pa e, Reaches (counted s k) k m m.len.toNat true false pa e → NoneOut s pa m.len.toNat →
      ∃ t, Sys2Proof.Machine.exec (.read m) s = .next t ∧ Answers t k m 0 (cohBytes s pa m.len.toNat) ∧ NothingDone s t) ∧
    (∀ lv, k.port = 0 → k.owner = true → field m.addr 57 57 = 0 → (ctxOf s (ctxField m)).st ≠ .empty → k.bad = [] →
      (walk (counted s k) (ctxField m) (field m.addr 56 0)).1 = .notPresent lv →
      ∃ t, Sys2Proof.Machine.exec (.read m) s = .next t ∧ WaitsThere t m 1 ∧ CoresAs s t ∧ t.ctxs = s.ctxs)) ∧
  (∀ (m : Msg) (s : State) (k : Conn) (pa : Nat) (e : Option (BitVec 64)), Arrives s m k →
    Reaches (counted s k) k m m.payload.length false true pa e → NoneOut s pa m.payload.length →
    (hostWords (counted s k) k).length + m.payload.length ≤ 16384 → heldUp (counted s k) m e = false →
    let s1 := counted s k
    let here (x : Nat × BitVec 4 × Word) : Bool := agentHas s1 x.1
    ∃ t, Sys2Proof.Machine.exec (.write m) s = .next t ∧ t.warps = s.warps ∧ t.blocks = s.blocks ∧ t.mem = s.mem ∧
      t.slices = s.slices ∧ t.ctxs = s.ctxs ∧
      (∀ x ∈ wordParts pa m.payload, ∃ y, l1Find t.l1 hostOwner x.1 = some y ∧ y.conn = connId k ∧
        (here x = true → ∃ y0, l1Find s.l1 hostOwner x.1 = some y0 ∧ y.st = .registered ∧ y.val = overlay y0.val x.2.2 x.2.1 ∧
          y.mask = y0.mask ||| x.2.1) ∧
        (here x = false → y.st = .pending ∧ y.val = x.2.2 ∧ y.mask = x.2.1)) ∧
      (∀ o wa, (o ≠ hostOwner ∨ ∀ x ∈ wordParts pa m.payload, x.1 ≠ wa) → l1Find t.l1 o wa = l1Find s.l1 o wa) ∧
      ((∀ x ∈ wordParts pa m.payload, here x = true) → Answers t k m 0 []) ∧
      ((∃ x ∈ wordParts pa m.payload, here x = false) → t.conns = s1.conns ∧ ∃ ids, ids ≠ [] ∧
        t.hostOps = s.hostOps ++ [⟨answerOf k m, ids⟩])) ∧
  (∀ (m : Msg) (s : State) (k : Conn) (pa : Nat) (e : Option (BitVec 64)), Arrives s m k →
    Reaches (counted s k) k m m.payload.length false true pa e → hostPending s k = false → heldUp (counted s k) m e = false →
    ∃ t, Sys2Proof.Machine.exec (.writeRel m) s = .next t ∧ Answers t k m 0 [] ∧ t.warps = s.warps ∧ t.ctxs = s.ctxs ∧
      (∀ j, j < m.payload.length → cohByte t (pa + j) = getAt 0 m.payload j) ∧
      (∀ a, (a < pa ∨ pa + m.payload.length ≤ a) → cohByte t a = cohByte s a) ∧
      ∀ y ∈ hostWords s k, y.st = .registered → (sliceGet t y.wa).st = .home) ∧
  (∀ (m : Msg) (s : State) (k : Conn) (pa : Nat) (e : Option (BitVec 64)), Arrives s m k → m.op.toNat ≤ 11 →
    m.payload.length = (if m.op.toNat = 9 then 8 else 4) → m.addr.toNat % 4 = 0 →
    Reaches (counted s k) k m 4 true true pa e → NoneOut s pa 4 → heldUp (counted s k) m e = false →
    ∃ t, Sys2Proof.Machine.exec (.atomic m) s = .next t ∧ Answers t k m 0 (natLe 4 (cohWord s (pa / 4)).toNat) ∧
      t.warps = s.warps ∧ t.ctxs = s.ctxs ∧
      cohWord t (pa / 4) = atomOp m.op.toNat (cohWord s (pa / 4)) (.ofNat 32 (pl m 0 4)) (.ofNat 32 (pl m 4 4)) ∧
      ∀ j, j ≠ pa / 4 → cohWord t j = cohWord s j) ∧
  (∀ (i : Instr) (ty : Nat) (m : Msg) (s : State) (k : Conn) (pa : Nat) (l : BitVec 64), Arrives s m k →
    heldUp (counted s k) m (some l) = true →
    (i = .write m ∧ ty = 2 ∧ Reaches (counted s k) k m m.payload.length false true pa (some l) ∧ NoneOut s pa m.payload.length ∨
      i = .writeRel m ∧ ty = 3 ∧ Reaches (counted s k) k m m.payload.length false true pa (some l) ∧ hostPending s k = false ∨
      i = .atomic m ∧ ty = 4 ∧ Reaches (counted s k) k m 4 true true pa (some l) ∧ NoneOut s pa 4 ∧ m.op.toNat ≤ 11 ∧
        m.payload.length = (if m.op.toNat = 9 then 8 else 4) ∧ m.addr.toNat % 4 = 0) →
    ∃ t, Sys2Proof.Machine.exec i s = .next t ∧ WaitsThere t m ty ∧ CoresAs s t ∧ PackageAs s t ∧ t.ctxs = s.ctxs ∧
      (collapseOf t (ctxField m) (leafBase l (field m.addr 56 0))).isSome = true) ∧
  (∀ (m : Msg) (s : State) (k : Conn), Arrives s m k → ¬ (m.len = 0 ∧ (m.op = 5 ∨ m.op = 6)) →
    let ReqGone (t : State) : Prop := ∃ k', connFind t m.port m.conn = some k' ∧ ∀ r ∈ k'.reqs, r.1 ≠ m.tag
    (∀ q, k.reqs.find? (fun r => r.1 == m.tag) = some (q, .event) →
      ∃ t, Sys2Proof.Machine.exec (.completion m) s = .next t ∧ ReqGone t ∧ NothingDone s t) ∧
    (∀ q c n op wa w, k.reqs.find? (fun r => r.1 == m.tag) = some (q, .window c n op wa) → m.op = 0 →
      m.payload.length = (if readsPair s c n op = true then 8 else 4) →
      warpFind s c n = some w → ∃ t w', Sys2Proof.Machine.exec (.completion m) s = .next t ∧ ReqGone t ∧ warpFind t c n = some w' ∧
        w'.pend = w.pend.map (fun p => if p.id = op then
          (if readsPair s c n op = true then learn (wa + 1) (.ofNat 32 (pl m 4 4)) s.tick (learn wa (.ofNat 32 (pl m 0 4)) s.tick p)
           else learn wa (.ofNat 32 (pl m 0 4)) s.tick p) else p) ∧ w'.regs = w.regs ∧
        t.mem = s.mem ∧ t.ctxs = s.ctxs) ∧
    (∀ q c n op wa, k.reqs.find? (fun r => r.1 == m.tag) = some (q, .window c n op wa) → m.op ≠ 0 →
      ((ctxOf s c).st = .running ∨ (ctxOf s c).st = .runnable) →
      ∃ t, Sys2Proof.Machine.exec (.completion m) s = .next t ∧ (ctxOf t c).st = .faulted ∧
        (ctxOf t c).faultrec.take 3 = [.ofNat 8 c, .ofNat 8 (causeCode .protection), .ofNat 8 ((causeClass .protection).getD 0xFF)] ∧
        t.mem = s.mem) ∧
    (∀ q c n id, k.reqs.find? (fun r => r.1 == m.tag) = some (q, .store c n id) → m.op = 0 →
      ∃ t, Sys2Proof.Machine.exec (.completion m) s = .next t ∧ ReqGone t ∧ (∀ w ∈ t.warps, ∀ y ∈ w.stores, y.msg ≠ id) ∧
        t.mem = s.mem ∧ t.ctxs = s.ctxs)) ∧
  (∀ (m : Msg) (s : State) (k : Conn), (s.dev = .unowned ∨ s.dev = .owned ∨ s.dev = .handover ∨ s.dev = .failed) →
    (getAt {} s.ports m.port).st = .up → connFind s m.port m.conn = some k → k.peer = m.peer → m.len = 0 → m.op = 5 →
    ∃ t k', Sys2Proof.Machine.exec (.completion m) s = .next t ∧ NothingDone s t ∧ connFind t m.port m.conn = some k' ∧ k'.rx = k.rx ∧
      k'.tx = k.tx ∧ k'.unacked = k.unacked.filter (fun q => decide ((q.seq - m.ack).toNat < 2 ^ 31)))

namespace Sys2Proof.Claim

/-- A signed command of the owner, with n bytes of its own, whose signature verifies over the nonce of its connection, under the owner's
key or that of the outgoing owner in whose time it came (R17, R19, R23). -/
def Signed (s : State) (m : Msg) (k : Conn) (n : Nat) : Prop :=
  Arrives s m k ∧ k.owner = true ∧ k.port = 0 ∧ m.addr = 0 ∧ m.payload.length = n + 96 ∧ k.nonceOk = true ∧
  ∃ key, k.lateKey.or s.ownerKey = some key ∧ ecdsaVerify key (commandDigest s k m (m.payload.take n)) (m.payload.drop n) = true

/-- A claim whose signature verifies under the key that it brings, which the allow list admits (R19, R20). -/
def GoodClaim (s : State) (m : Msg) (k : Conn) (key : List Byte) : Prop :=
  Arrives s m k ∧ k.port = 0 ∧ m.addr = 0 ∧ m.payload.length = 193 ∧ key = m.payload.take 97 ∧ k.nonceOk = true ∧
  ecdsaVerify key (claimDigest s k key) (m.payload.drop 97) = true ∧ (s.allow = [] ∨ sha384 key ∈ s.allow)

/-- The signed commands, and how many bytes of their own they have (R23, R500). -/
def signedCommand : Instr → Option (Msg × Nat)
  | .handover m => some (m, 48)
  | .release m => some (m, 0)
  | .cancel m => some (m, 0)
  | .reset m => some (m, 0)
  | .fwActivate m => some (m, 8)
  | .fwAdvance m => some (m, 8)
  | _ => none

/-- A command replaces the connection's nonce (R19). -/
def NewNonce (s t : State) (m : Msg) : Prop :=
  ∃ k', connFind t m.port m.conn = some k' ∧ k'.nonce = freshNonce s.free ∧ k'.nonceOk = true ∧ t.free = s.free + 1

/-- A REGWRITE of the owner that writes the doubleword v at management address 8n, of a context's record or of the package. -/
def WritesReg (s : State) (m : Msg) (k : Conn) (n : Nat) (v : DWord) : Prop :=
  Arrives s m k ∧ k.owner = true ∧ k.port = 0 ∧ s.dev ≠ .failed ∧ field m.addr 57 32 = 0 ∧ field m.addr 31 0 = 8 * n ∧
  (ctxField m ≠ 0 → 0x2000 ≤ n) ∧ m.payload.length = 8 ∧ v = .ofNat 64 (pl m 0 8)

end Sys2Proof.Claim

/-- R489, R492, R498, R504: OPEN opens a connection, or answers that it is open, BUSY for another's number, BAD; CLOSE ends it. R16, R17,
R19 to R23: CLAIM, HANDOVER, CANCEL, RELEASE and RESET; a command whose signature does not verify is BAD_SIGNATURE, and every signed
command renews the nonce. R26 to R29, R36: FW_STAGE, FW_ACTIVATE, FW_ADVANCE, ATTEST and SPARE. -/
def Obligations.OwnershipCommands : Prop :=
  (∀ (m : Msg) (s : State), m.conn = 0 → (s.dev = .unowned ∨ s.dev = .owned ∨ s.dev = .handover ∨ s.dev = .failed) →
    (getAt {} s.ports m.port).st = .up → m.payload.length = 16 → m.addr = 0 → pl m 0 4 ≠ 0 → pl m 8 8 = 0 →
    (m.port = 0 → pl m 4 4 = 0) → (m.port ≠ 0 → pl m 6 2 = s.pkgNum.toNat) →
    let num : BitVec 32 := .ofNat 32 (pl m 0 4)
    let tells (t : State) (status : Nat) : Prop := ∃ d, t.sent = [d] ∧ d.port = m.port ∧ d.peer = m.peer ∧ d.conn = 0 ∧ d.msg.ty = 7 ∧
      d.msg.op = .ofNat 8 status ∧ d.msg.tag = m.tag
    (connFind s m.port num = none → (s.conns.filter (fun k => k.port == m.port && !k.failed)).length < 4096 →
      ∃ t k, Sys2Proof.Machine.exec (.openConn m) s = .next t ∧ tells t 0 ∧ t.conns = s.conns ++ [k] ∧ k.port = m.port ∧ k.num = num ∧
        k.peer = m.peer ∧ k.owner = false ∧ k.rx = 0 ∧ k.tx = 0 ∧ k.unacked = [] ∧ k.failed = false ∧ k.nonce = freshNonce s.free ∧ CoresAs s t ∧
        PackageAs s t ∧ t.ctxs = s.ctxs) ∧
    (∀ k, connFind s m.port num = some k → ∃ t, Sys2Proof.Machine.exec (.openConn m) s = .next t ∧ NothingDone s t ∧ t.conns = s.conns ∧
      tells t (if k.peer = m.peer then 0 else 7))) ∧
  (∀ (m : Msg) (s : State) (k : Conn), Arrives s m k → m.payload = [] → m.addr = 0 →
    ∃ t, Sys2Proof.Machine.exec (.close m) s = .next t ∧ connFind t m.port m.conn = none ∧
      (∃ d ∈ t.sent, d.port = m.port ∧ d.conn = m.conn ∧ d.msg.ty = 7 ∧ d.msg.op = 0 ∧ d.msg.tag = m.tag) ∧
      (k.reqs = [] → t.warps = s.warps ∧ t.mem = s.mem ∧ t.ctxs = s.ctxs)) ∧
  (∀ (i : Instr) (m : Msg) (n : Nat) (s : State) (k : Conn), signedCommand i = some (m, n) → Arrives s m k → k.owner = true → k.port = 0 →
    m.addr = 0 → m.payload.length = n + 96 → (s.dev = .failed → ∃ m', i = .reset m') →
    (k.nonceOk = false ∨ ∀ key, k.lateKey.or s.ownerKey = some key →
      ecdsaVerify key (commandDigest s k m (m.payload.take n)) (m.payload.drop n) = false) →
    ∃ t, Sys2Proof.Machine.exec i s = .next t ∧ Answers t k m 12 [] ∧ NothingDone s t ∧ NewNonce s t m) ∧
  (∀ (m : Msg) (s : State) (k : Conn) (key : List Byte), GoodClaim s m k key → s.outbox = [] →
    (s.dev = .unowned → ∃ t k', Sys2Proof.Machine.exec (.claim m) s = .next t ∧ Answers t k m 0 [] ∧ NewNonce s t m ∧ t.dev = .owned ∧
      t.ownerKey = some key ∧ CoresAs s t ∧ t.ctxs = s.ctxs ∧ connFind t m.port m.conn = some k' ∧ k'.owner = true) ∧
    (s.dev ≠ .unowned → s.ownerKey = some key → ∃ t k', Sys2Proof.Machine.exec (.claim m) s = .next t ∧ Answers t k m 0 [] ∧
      NewNonce s t m ∧ NothingDone s t ∧ connFind t m.port m.conn = some k' ∧ k'.owner = true) ∧
    (s.dev = .handover → s.ownerKey ≠ some key → s.successor = some (sha384 key) →
      ∃ t k', Sys2Proof.Machine.exec (.claim m) s = .next t ∧ Answers t k m 0 [] ∧ t.dev = .owned ∧ t.ownerKey = some key ∧
        t.successor = none ∧ CoresAs s t ∧ t.ctxs = s.ctxs ∧ connFind t m.port m.conn = some k' ∧ k'.owner = true ∧
        ∀ y ∈ t.conns, y.owner = true → y.port = m.port ∧ y.num = m.conn) ∧
    (s.dev = .owned → s.ownerKey ≠ some key → ∃ t, Sys2Proof.Machine.exec (.claim m) s = .next t ∧ Answers t k m 13 [] ∧
      NothingDone s t ∧ NewNonce s t m)) ∧
  (∀ (m : Msg) (s : State) (k : Conn) (key : List Byte), Arrives s m k → k.port = 0 → m.addr = 0 → m.payload.length = 193 →
    key = m.payload.take 97 →
    ((k.nonceOk = false ∨ ecdsaVerify key (claimDigest s k key) (m.payload.drop 97) = false) →
      ∃ t, Sys2Proof.Machine.exec (.claim m) s = .next t ∧ Answers t k m 12 [] ∧ NothingDone s t ∧ NewNonce s t m)) ∧
  (∀ (m : Msg) (s : State) (k : Conn), Signed s m k 48 →
    (s.dev = .owned → ∃ t, Sys2Proof.Machine.exec (.handover m) s = .next t ∧ Answers t k m 0 [] ∧ NewNonce s t m ∧ t.dev = .handover ∧
      t.successor = some (m.payload.take 48) ∧ t.ownerKey = s.ownerKey ∧ CoresAs s t ∧ t.ctxs = s.ctxs) ∧
    (s.dev = .handover → ∃ t, Sys2Proof.Machine.exec (.handover m) s = .next t ∧ Answers t k m 8 [] ∧ NothingDone s t)) ∧
  (∀ (m : Msg) (s : State) (k : Conn), Signed s m k 0 →
    (s.dev = .handover → ∃ t, Sys2Proof.Machine.exec (.cancel m) s = .next t ∧ Answers t k m 0 [] ∧ NewNonce s t m ∧ t.dev = .owned ∧
      t.successor = none ∧ t.ownerKey = s.ownerKey ∧ CoresAs s t ∧ t.ctxs = s.ctxs) ∧
    (s.dev = .owned → ∃ t, Sys2Proof.Machine.exec (.cancel m) s = .next t ∧ Answers t k m 8 [] ∧ NothingDone s t) ∧
    (s.dev = .owned → (∃ c, c < 64 ∧ (ctxOf s c).st ≠ .empty) →
      ∃ t, Sys2Proof.Machine.exec (.release m) s = .next t ∧ Answers t k m 7 [] ∧ NothingDone s t) ∧
    (s.dev = .owned → (∀ c, (ctxOf s c).st = .empty) → ∃ t, Sys2Proof.Machine.exec (.release m) s = .next t ∧ Answers t k m 0 [] ∧
      t.dev = .unowned ∧ t.ownerKey = none ∧ t.featAccept = 0 ∧ t.featWritten = false ∧ (∀ y ∈ t.conns, y.owner = false) ∧
      (∀ p, 1 ≤ p → p ≤ 8 → (getAt {} t.ports p).st = .disabled ∧ (getAt {} t.ports p).en = false) ∧ t.ctxs = s.ctxs) ∧
    (∃ t, Sys2Proof.Machine.exec (.reset m) s = .next t ∧ t.dev = .reset ∧ t.mem = s.mem ∧ t.ownerKey = s.ownerKey ∧ t.conns = [] ∧
      t.warps = [] ∧ t.blocks = [] ∧ t.tasks = [] ∧ t.l1 = [] ∧ t.slices = [] ∧ t.queues = [] ∧ t.graphs = [] ∧ t.featAccept = 0 ∧
      t.firmware = s.firmware ∧ ∀ c, (ctxOf t c).st = .empty)) ∧
  (∀ (m : Msg) (s : State) (k : Conn), Arrives s m k → m.payload.length = 48 → m.addr = 0 →
    ∃ t r, Sys2Proof.Machine.exec (.attest m) s = .next t ∧ NothingDone s t ∧ Answers t k m 0 (r ++ signatureBytes (Config.identitySign (sha384 r))) ∧
      fr r 0 4 = 1 ∧ fr r 4 4 = devCode s.dev ∧ (r.drop 8).take 16 = serialBytes s ∧ (r.drop 24).take 48 = m.payload) ∧
  (∀ (m : Msg) (s : State) (k : Conn) (n : Nat) (got : List Byte), FromOwner s m k n → m.addr = 0 → 8 ≤ n → n ≤ 4096 → pl m 0 1 ≤ 3 →
    pl m 1 1 ≤ 1 → pl m 2 2 = 0 → (k.fw = some (pl m 0 1, got) ∨ k.fw = none ∧ got = []) →
    let im := got ++ m.payload.drop 8
    let x := getAt ({} : Firmware) s.firmware (pl m 0 1)
    (pl m 4 4 ≠ got.length → Refuses (.fwStage m) s m k 4) ∧
    (pl m 4 4 = got.length → pl m 1 1 = 0 → ∃ t k', Sys2Proof.Machine.exec (.fwStage m) s = .next t ∧ Answers t k m 0 [] ∧
      NothingDone s t ∧ t.firmware = s.firmware ∧ connFind t m.port m.conn = some k' ∧ k'.fw = some (pl m 0 1, im)) ∧
    (pl m 4 4 = got.length → pl m 1 1 = 1 → imageOk x (pl m 0 1) im = true →
      ∃ t y, Sys2Proof.Machine.exec (.fwStage m) s = .next t ∧ Answers t k m 0 [] ∧ NothingDone s t ∧
        y = getAt ({} : Firmware) t.firmware (pl m 0 1) ∧ y.activeB = x.activeB ∧ y.minver = x.minver ∧
        (x.activeB = false → y.slotB.body = im ∧ y.slotA = x.slotA) ∧ (x.activeB = true → y.slotA.body = im ∧ y.slotB = x.slotB)) ∧
    (pl m 4 4 = got.length → pl m 1 1 = 1 → imageOk x (pl m 0 1) im = false →
      ∃ t, Sys2Proof.Machine.exec (.fwStage m) s = .next t ∧ Answers t k m 14 [] ∧ t.firmware = s.firmware ∧ CoresAs s t ∧
        t.errLogWr = s.errLogWr + 1)) ∧
  (∀ (m : Msg) (s : State) (k : Conn), Signed s m k 8 → s.dev ≠ .failed → pl m 0 1 ≤ 3 → pl m 1 7 = 0 →
    let x := getAt ({} : Firmware) s.firmware (pl m 0 1)
    let active := if x.activeB then x.slotB else x.slotA
    let other := if x.activeB then x.slotA else x.slotB
    (s.featAccept.getLsbD 5 = false → (∃ c, c < 64 ∧ (ctxOf s c).st ≠ .empty) →
      ∃ t, Sys2Proof.Machine.exec (.fwActivate m) s = .next t ∧ Answers t k m 7 [] ∧ NothingDone s t ∧ t.firmware = s.firmware) ∧
    ((s.featAccept.getLsbD 5 = true ∨ ∀ c, c < 64 → (ctxOf s c).st = .empty) → other.body = [] →
      ∃ t, Sys2Proof.Machine.exec (.fwActivate m) s = .next t ∧ Answers t k m 14 [] ∧ NothingDone s t ∧ t.firmware = s.firmware) ∧
    ((s.featAccept.getLsbD 5 = true ∨ ∀ c, c < 64 → (ctxOf s c).st = .empty) → other.body ≠ [] →
      ∃ t, Sys2Proof.Machine.exec (.fwActivate m) s = .next t ∧ Answers t k m 0 [] ∧ NewNonce s t m ∧ CoresAs s t ∧ t.ctxs = s.ctxs ∧
        getAt ({} : Firmware) t.firmware (pl m 0 1) = { x with activeB := !x.activeB }) ∧
    (active.secver < x.minver → ∃ t, Sys2Proof.Machine.exec (.fwAdvance m) s = .next t ∧ Answers t k m 11 [] ∧ NothingDone s t ∧
      t.firmware = s.firmware) ∧
    (x.minver ≤ active.secver → ∃ t, Sys2Proof.Machine.exec (.fwAdvance m) s = .next t ∧ Answers t k m 0 [] ∧ NothingDone s t ∧
      getAt ({} : Firmware) t.firmware (pl m 0 1) = { x with minver := active.secver })) ∧
  (∀ (m : Msg) (s : State) (k : Conn), FromOwner s m k 8 → m.addr = 0 → pl m 0 1 < 8 → pl m 1 1 < 128 → pl m 2 6 = 0 →
    let die := pl m 0 1
    let core := 128 * die + pl m 1 1
    ((core ∈ s.sparing ∨ s.featAccept.getLsbD 4 = false ∧ ∃ c, c < 64 ∧ (ctxOf s c).st ≠ .empty) → Refuses (.spare m) s m k 7) ∧
    (core ∉ s.sparing → (s.featAccept.getLsbD 4 = true ∨ ∀ c, c < 64 → (ctxOf s c).st = .empty) →
      (4 ≤ getAt 0 s.spares die → Refuses (.spare m) s m k 15) ∧
      (getAt 0 s.spares die < 4 → ∃ t, Sys2Proof.Machine.exec (.spare m) s = .next t ∧ Answers t k m 0 [] ∧ NothingDone s t ∧
        t.sparing = core :: s.sparing ∧ getAt 0 t.spares die = getAt 0 s.spares die + 1)))

/-- R18, R22, R24, R25, R32, R33, R330, R486, R487, R499, R502, R503, R509: REGREAD returns bytes of the registers, to a host without
ownership only those of its table's any-host rows; REGWRITE writes POWERCAP; the feature set is written once, within what is
offered; a GO begins an island's transition, or says why not; PORTCTL.EN trains or disables a port; the debug registers and the RD
of a completion queue are written. -/
def Obligations.RegisterAccesses : Prop :=
  (∀ (m : Msg) (s : State) (k : Conn), Arrives s m k → m.payload.length = 8 → pl m 4 4 = 0 → pl m 0 4 ≠ 0 → pl m 0 4 % 4 = 0 →
    pl m 0 4 ≤ 4096 → field m.addr 57 32 = 0 →
    let n := pl m 0 4
    let a := field m.addr 31 0
    (isOwner k = false → (∃ i, i < n ∧ anyHost (a + i) = false) → Refuses (.regread m) s m k 1) ∧
    ((isOwner k = true ∨ ∀ i, i < n → anyHost (a + i) = true) → (ctxField m ≠ 0 → 0x10000 ≤ a) → s.dev ≠ .failed →
      ((∃ i, i < n ∧ regByte (counted s k) k (ctxField m) (a + i) = none) → Refuses (.regread m) s m k 4) ∧
      (∀ bs, bs.length = n → (∀ i, i < n → regByte (counted s k) k (ctxField m) (a + i) = some (getAt 0 bs i)) →
        ∃ t, Sys2Proof.Machine.exec (.regread m) s = .next t ∧ Answers t k m 0 bs ∧ NothingDone s t))) ∧
  (∀ (s : State) (k : Conn) (c : Nat),
    regDword s k c 0 = some (.ofNat 64 (devCode s.dev)) ∧ regDword s k c 8 = some (Config.featOffer.setWidth 64) ∧
    regDword s k c 12 = some (s.featAccept.setWidth 64) ∧ regDword s k c 18 = some s.errLogWr ∧
    (∀ p, p < 9 → regDword s k c (0xE0 + p) = some (.ofNat 64 (bit (getAt ({} : Port) s.ports p).en + 2 * (getAt ({} : Port) s.ports p).maxl))) ∧
    regDword s k c 0x2000 = some (.ofNat 64 (ctxCode (ctxOf s c).st)) ∧ regDword s k c 0x2008 = some (ctxOf s c).codebase ∧
    regDword s k c 0x200D = some (ctxOf s c).ptroot ∧ regDword s k c 0x2020 = some ((ctxOf s c).dbgctl.setWidth 64)) ∧
  (∀ (m : Msg) (s : State) (k : Conn) (v : DWord), WritesReg s m k 16 v →
    ∃ t, Sys2Proof.Machine.exec (.regwrite m) s = .next t ∧ Answers t k m 0 [] ∧ NothingDone s t ∧ t.powerCap = .ofNat 32 v.toNat) ∧
  (∀ (m : Msg) (s : State) (k : Conn), Arrives s m k → k.owner = true → k.port = 0 → s.dev ≠ .failed → m.addr = 96 →
    m.payload.length = 32 →
    let v : BitVec 256 := .ofNat 256 (leNat m.payload)
    (s.featWritten = true → Refuses (.featacceptWrite m) s m k 11) ∧
    (s.featWritten = false → (v &&& ~~~ Config.featOffer ≠ 0 ∨ v.getLsbD 0 = false) → Refuses (.featacceptWrite m) s m k 10) ∧
    (s.featWritten = false → v &&& ~~~ Config.featOffer = 0 → v.getLsbD 0 = true →
      ∃ t, Sys2Proof.Machine.exec (.featacceptWrite m) s = .next t ∧ Answers t k m 0 [] ∧ t.featAccept = v ∧ t.featWritten = true ∧
        CoresAs s t ∧ t.ctxs = s.ctxs ∧ t.ports = s.ports)) ∧
  (∀ (m : Msg) (s : State) (k : Conn) (n : Nat) (v : DWord), WritesReg s m k (0x20 + n) v → n < 40 → v.getLsbD 0 = true →
    let x := getAt ({} : Island) s.islands n
    let y : Island := { x with reqSt := field v 7 6, reqPoint := field v 5 3 }
    let z := { counted s k with islands := setAt {} s.islands n y }
    ∃ t, Sys2Proof.Machine.exec (.islandGo m) s = .next t ∧ Answers t k m 0 [] ∧ CoresAs s t ∧ t.ctxs = s.ctxs ∧
      (∀ j, j ≠ n → getAt ({} : Island) t.islands j = getAt {} s.islands j) ∧
      (x.busy = true → getAt ({} : Island) t.islands n = { y with busyGo := true }) ∧
      (x.busy = false → goRefused z n y = none →
        getAt ({} : Island) t.islands n = { y with busy := true, toSt := field v 7 6, toPoint := field v 5 3 }) ∧
      (x.busy = false → ∀ r, goRefused z n y = some r → getAt ({} : Island) t.islands n = { y with result := r })) ∧
  (∀ (m : Msg) (s : State) (k : Conn) (p : Nat) (v : DWord), WritesReg s m k (0xE0 + p) v → p < 9 →
    let x := getAt ({} : Port) s.ports p
    let y : Port := if field v 2 1 = 3 then x else { x with maxl := field v 2 1 }
    (v.getLsbD 0 = true → ∃ t, Sys2Proof.Machine.exec (.portEnable m) s = .next t ∧ Answers t k m 0 [] ∧ CoresAs s t ∧ t.ctxs = s.ctxs ∧
      (∀ j, j ≠ p → getAt ({} : Port) t.ports j = getAt {} s.ports j) ∧
      getAt ({} : Port) t.ports p = { y with en := true, st :=
        if x.st = .disabled ∧ (p = 0 ∨ s.featAccept.getLsbD 1 = true) then .training else x.st }) ∧
    (v.getLsbD 0 = false → x.en = true → ∃ t, Sys2Proof.Machine.exec (.portDisable m) s = .next t ∧
      getAt ({} : Port) t.ports p = { y with en := false, st := .disabled, lanes := 0 } ∧
      (∀ j, j ≠ p → getAt ({} : Port) t.ports j = getAt {} s.ports j) ∧ (∀ num, connFind t p num = none) ∧
      (p ≠ 0 → (∀ q ∈ s.conns, q.port = p → q.reqs = []) → Answers t k m 0 []))) ∧
  (∀ (m : Msg) (s : State) (k : Conn) (n : Nat) (v : DWord), WritesReg s m k n v → 0x2020 ≤ n → n < 0x2039 →
    let x := ctxOf s (ctxField m)
    let i := .debugRegisterWrite m
    (x.st = .empty → Refuses i s m k 8) ∧
    (x.st ≠ .empty →
      (n = 0x2020 → SetsContext i s m k { x with dbgctl := .ofNat 32 v.toNat &&& 0xC1 }) ∧
      (∀ j, j < 8 → n = 0x2021 + j →
        ((x.safept = none ∧ v.getLsbD 31 = false ∨ ∃ b l, x.safept = some (b, l) ∧ field v 15 0 < l) →
          SetsContext i s m k { x with bp := setAt 0 x.bp j (.ofNat 32 v.toNat &&& 0x8000FFFF) }) ∧
        ((x.safept = none ∧ v.getLsbD 31 = true ∨ ∃ b l, x.safept = some (b, l) ∧ l ≤ field v 15 0) → Refuses i s m k 27)) ∧
      (∀ j, j < 8 → n = 0x2029 + j → SetsContext i s m k { x with wpbase := setAt 0 x.wpbase j (v &&& 0x1FFFFFFFFFFFFFF) }) ∧
      (∀ j, j < 8 → n = 0x2031 + j → SetsContext i s m k { x with wpctl := setAt 0 x.wpctl j (.ofNat 32 v.toNat &&& 0xE0FFFFFF) }))) ∧
  (∀ (m : Msg) (s : State) (k : Conn) (n : Nat) (v : DWord) (q : Queue), WritesReg s m k (0x400 + 4 * n + 2) v → n < 256 →
    queueFind s n = some q → q.kind = 1 → q.st ≠ 0 →
    ∃ t, Sys2Proof.Machine.exec (.completionQueueRdWrite m) s = .next t ∧ Answers t k m 0 [] ∧ CoresAs s t ∧ t.ctxs = s.ctxs ∧
      queueFind t n = some { q with rd := .ofNat 32 v.toNat } ∧ ∀ j, j ≠ n → queueFind t j = queueFind s j)

/-! ## The package and its parts (01_device.md R16 to R40; 26_link.md R482, R486, R490, R492; 27_debug.md R520) -/

/-- R16, R19, R32 to R40, R482, R486, R490, R492, R520: the package from power to SELF_TEST and its end; a thermal trip; what the sensors and
the meter report; the ends of the nonce's, the handover's and the retransmission timers; an island's transition; training,
retraining and lanes of a port; beats of Piste; the failure of a core, soft errors and the scrubber. -/
def Obligations.PackageEvents : Prop :=
  (∀ (s : State), s.dev = .powerOff → ∃ t, Sys2Proof.Machine.exec .powerInputValid s = .next t ∧ t.dev = .reset ∧ t.conns = [] ∧
    t.warps = [] ∧ t.mem = [] ∧ t.ownerKey = none ∧ t.firmware = s.firmware ∧ t.errLogWr = s.errLogWr + 1 ∧ t.retired = s.retired) ∧
  (∀ (s : State), s.dev = .reset → ∃ t, Sys2Proof.Machine.exec .resetRelease s = .next t ∧ t.dev = .selfTest ∧ CoresAs s t ∧
    ((getAt {} s.ports 0).en = true → (getAt ({} : Port) s.ports 0).st = .disabled → (getAt ({} : Port) t.ports 0).st = .training)) ∧
  (∀ (s : State), s.dev = .selfTest →
    (∃ t, Sys2Proof.Machine.exec (.selfTestDone true) s = .next t ∧ t.dev = .unowned ∧ t.ownerKey = none ∧ CoresAs s t ∧
      (∀ n, n < s.islands.length → (getAt ({} : Island) t.islands n).st = 0 ∧ (getAt ({} : Island) t.islands n).point = 3) ∧
      t.errLogWr = s.errLogWr + 1) ∧
    (∃ t, Sys2Proof.Machine.exec (.selfTestDone false) s = .next t ∧ t.dev = .failed ∧ CoresAs s t ∧ t.errLogWr = s.errLogWr + 2)) ∧
  (∀ (s : State), (s.dev = .thermalTrip ∨ s.dev = .failed) → ∃ t, Sys2Proof.Machine.exec .powerRemoved s = .next t ∧ t.dev = .powerOff ∧
    t.warps = [] ∧ t.mem = [] ∧ t.conns = [] ∧ t.firmware = s.firmware) ∧
  (∀ (socket : Nat) (s : State), s.dev ≠ .powerOff → s.dev ≠ .thermalTrip → ∃ t, Sys2Proof.Machine.exec (.thermalTrip socket) s = .next t ∧
    t.dev = .thermalTrip ∧ t.warps = [] ∧ t.mem = [] ∧ t.conns = [] ∧ t.errLogWr = s.errLogWr + 2 ∧
    ∀ n, n < 40 → (getAt ({} : Island) t.islands n).st = 3) ∧
  (∀ (s : State), s.outbox = [] → (∀ q ∈ s.conns, q.owner = false) →
    let keeps (t : State) : Prop := CoresAs s t ∧ t.dev = s.dev ∧ t.ctxs = s.ctxs ∧ t.islands = s.islands
    (∀ socket (temp : BitVec 32), 1600 ≤ temp.toNat → s.dev ≠ .powerOff → s.dev ≠ .thermalTrip →
      ∃ t d, Sys2Proof.Machine.exec (.thermalWarning socket temp) s = .next t ∧ keeps t ∧ t.outbox = [d] ∧ d.op = 0x43 ∧
        fr d.payload 0 1 = socket % 256 ∧ fr d.payload 8 4 = temp.toNat ∧ t.errLogWr = s.errLogWr + 1) ∧
    (∀ watts : BitVec 32, s.powerCap ≠ 0 → s.powerCap.toNat < watts.toNat →
      ∃ t d, Sys2Proof.Machine.exec (.powerCapExceeded watts) s = .next t ∧ keeps t ∧ t.outbox = [d] ∧ d.op = 0x44 ∧
        fr d.payload 0 4 = watts.toNat ∧ fr d.payload 4 4 = s.powerCap.toNat)) ∧
  (∀ (temps : List (Nat × BitVec 16)) (power : BitVec 64) (s : State), (temps.map (fun x => x.1)).Nodup →
    ∃ t, Sys2Proof.Machine.exec (.temperatureReport temps power) s = .next t ∧ t.powerIn = power ∧ NothingDone s t ∧
      ∀ x ∈ temps, getAt 0 t.dieTemp x.1 = x.2) ∧
  (∀ (e : EnergySample) (s : State),
    (e.uses = [] → ∃ t, Sys2Proof.Machine.exec (.energyInterval [e]) s = .next t ∧ CoresAs s t ∧ t.ctxs = s.ctxs ∧ t.launches = s.launches ∧
      (getAt ({} : Island) t.islands e.island).energy = (getAt ({} : Island) s.islands e.island).energy + e.dyn + e.idle ∧
      ∀ n, n ≠ e.island → getAt ({} : Island) t.islands n = getAt {} s.islands n) ∧
    (∀ id u r, e.island < 32 → 0 < u → 0 < r → e.uses = [(id, u, r)] →
      ∃ t, Sys2Proof.Machine.exec (.energyInterval [e]) s = .next t ∧ CoresAs s t ∧
        t.launches = s.launches.map (fun l => if l.id = id then { l with energy := l.energy + e.dyn + e.idle } else l))) ∧
  (∀ (port : Nat) (num : BitVec 32) (s : State) (k : Conn), connFind s port num = some k →
    (k.nonceOk = true → ∃ t, Sys2Proof.Machine.exec (.claimNonceExpiry port num) s = .next t ∧ NothingDone s t ∧
      connFind t port num = some { k with nonceOk := false }) ∧
    (k.unacked ≠ [] → (∀ q ∈ k.unacked, q.retries < 16) → k.unacked.length ≤ 512 →
      ∃ t, Sys2Proof.Machine.exec (.retransmitTimeout port num) s = .next t ∧ NothingDone s t ∧
        connFind t port num = some { k with unacked := k.unacked.map (fun q => { q with retries := q.retries + 1 }) }) ∧
    ((∃ q ∈ k.unacked, 16 ≤ q.retries) → ∃ t, Sys2Proof.Machine.exec (.retransmitTimeout port num) s = .next t ∧
      connFind t port num = none)) ∧
  (∀ (s : State), s.dev = .handover → ∃ t, Sys2Proof.Machine.exec .handoverTimeout s = .next t ∧ t.dev = .owned ∧ t.successor = none ∧
    t.ownerKey = s.ownerKey ∧ CoresAs s t ∧ t.conns = s.conns) ∧
  (∀ (n : Nat) (s : State), n < 40 → (getAt ({} : Island) s.islands n).busy = true →
    let x := getAt ({} : Island) s.islands n
    ∃ t y, Sys2Proof.Machine.exec (.islandTransitionDone n) s = .next t ∧ y = getAt ({} : Island) t.islands n ∧ y.st = x.toSt ∧
      y.point = x.toPoint ∧ y.busy = false ∧ y.result = (if x.busyGo then 4 else 0) ∧ (x.toSt ≠ 3 → CoresAs s t ∧ t.ctxs = s.ctxs) ∧
      (x.toSt = 3 → n < 32 → (∀ e ∈ s.l1, e.st = .valid ∧ e.owner < 1024) → (∀ e ∈ s.slices, e.st = .home) →
        t.mem = s.mem ∧ t.ctxs = s.ctxs ∧ (∀ e, e ∈ t.l1 ↔ e ∈ s.l1 ∧ e.owner / 32 ≠ n) ∧
        (∀ e, e ∈ t.slices ↔ e ∈ s.slices ∧ sliceOf s (4 * e.wa) / 8 ≠ n) ∧
        ∀ v ∈ t.views, ∀ k, v.core = some k → k / 32 = n → v.val = {})) ∧
  (∀ (p : Nat) (good : BitVec 8) (s : State),
    let x := getAt ({} : Port) s.ports p
    let n := bestGroup good (maxLanes x)
    let sets (i : Instr) (y : Port) : Prop := ∃ t, Sys2Proof.Machine.exec i s = .next t ∧ CoresAs s t ∧ t.ctxs = s.ctxs ∧
      t.conns = s.conns ∧ getAt ({} : Port) t.ports p = y ∧ ∀ j, j ≠ p → getAt ({} : Port) t.ports j = getAt {} s.ports j
    (x.st = .training → n ≠ 0 → sets (.portTrainingDone p good) { x with st := .up, good := good, lanes := n }) ∧
    (x.st = .training → sets (.portTrainingTimeout p) { x with st := .down, lanes := 0 }) ∧
    (x.st = .down → sets (.portRetrain p) { x with st := .training }) ∧
    (x.st = .up → x.lanes < n → sets (.laneRestore p good) { x with good := good, lanes := n }) ∧
    (∀ lane, x.st = .up → usesLane x lane = true →
      let left := x.good &&& ~~~ (1#8 <<< lane)
      (bestGroup left (x.lanes - 1) ≠ 0 → sets (.laneFailure p lane)
        { x with good := left, lanes := bestGroup left (x.lanes - 1), degrade := x.degrade + 1 }) ∧
      (bestGroup left (x.lanes - 1) = 0 → sets (.laneFailure p lane) { x with good := left, st := .down, lanes := 0 }))) ∧
  (∀ (good : BitVec 8), (bestGroup good 8 = 8 ↔ good = 0xFF) ∧
    (bestGroup good 8 = 4 ↔ good ≠ 0xFF ∧ (good &&& 0x0F = 0x0F ∨ good &&& 0xF0 = 0xF0)) ∧
    (bestGroup good 8 = 0 ↔ good &&& 0x03 ≠ 0x03 ∧ good &&& 0x0C ≠ 0x0C ∧ good &&& 0x30 ≠ 0x30 ∧ good &&& 0xC0 ≠ 0xC0)) ∧
  (∀ (die src dst n : Nat) (s : State), die < 8 → src < 32 → dst < 32 → neighbours src dst = true →
    ((n = 0 ∧ ∀ x ∈ s.piste, ¬ (x.1 = die ∧ x.2.1 = src ∧ x.2.2.1 = dst)) ∨
      s.piste.find? (fun x => x.1 == die && x.2.1 == src && x.2.2.1 == dst) = some (die, src, dst, n, false)) →
    ∃ t, Sys2Proof.Machine.exec (.pisteBeatCrcFail die src dst) s = .next t ∧ (die, src, dst, n + 1, decide (16 ≤ n + 1)) ∈ t.piste ∧
      CoresAs s t ∧ t.errLogWr = (if n + 1 < 16 then s.errLogWr else s.errLogWr + 1)) ∧
  (∀ (core : Nat) (s : State), core < 1024 → core ∉ s.fenced →
    ∃ t, Sys2Proof.Machine.exec (.coreFailure core) s = .next t ∧ core ∈ t.fenced ∧ (∀ w ∈ t.warps, standsOn core w = false) ∧
      (∀ y ∈ t.l1, y.owner ≠ core) ∧
      ∀ w ∈ s.warps, standsOn core w = true → ((ctxOf s w.ctx).st = .running ∨ (ctxOf s w.ctx).st = .halted) →
        (ctxOf t w.ctx).st = .faulted ∧ fr (ctxOf t w.ctx).faultrec 1 1 = causeCode .hardware) ∧
  (∀ (core pa : Nat) (s : State) (y : L1Word), l1Find s.l1 (ownerOf s core) (pa / 4) = some y →
    (y.st = .valid → ∃ t, Sys2Proof.Machine.exec (.uncorrectableSoftError (.l1Word core pa)) s = .next t ∧
      t.l1 = l1Drop s.l1 y.owner y.wa ∧ t.ctxs = s.ctxs ∧ t.slices = s.slices ∧ t.mem = s.mem ∧ t.warps = s.warps) ∧
    (y.st = .registered → (s.slices.map (fun e => e.wa)).Nodup → ∀ e, sliceFind s.slices (pa / 4) = some e → e.st = .registered → e.owner = y.owner →
      ((ctxOf s e.ctx).st = .running ∨ (ctxOf s e.ctx).st = .halted) →
      ∃ t, Sys2Proof.Machine.exec (.uncorrectableSoftError (.l1Word core pa)) s = .next t ∧ (ctxOf t e.ctx).st = .faulted ∧
        fr (ctxOf t e.ctx).faultrec 1 1 = causeCode .ownerLost ∧ cohWord t (pa / 4) = memWord s.mem (pa / 4) ∧
        l1Find t.l1 y.owner (pa / 4) = none ∧ t.errLogWr = s.errLogWr + 1) ∧
    (y.st = .pending → ∃ t, Sys2Proof.Machine.exec (.uncorrectableSoftError (.l1Word core pa)) s = .next t ∧ pa / 4096 ∈ t.retired ∧
      t.warps = s.warps ∧ t.mem = s.mem ∧ t.slices = s.slices ∧
      (∀ c, c < 64 → c ∈ mappers s pa → (ctxOf s c).st = .running → (ctxOf t c).st = .faulted) ∧
      ∃ z, l1Find t.l1 y.owner (pa / 4) = some z ∧ z = { y with val := z.val })) ∧
  (∀ (die pa : Nat) (s : State), die < 8 → ∃ t, Sys2Proof.Machine.exec (.uncorrectableSoftError (.replica die pa)) s = .next t ∧
    t.mem = s.mem ∧ t.slices = s.slices ∧ t.ctxs = s.ctxs ∧ t.warps = s.warps ∧ t.net = s.net ∧ t.retired = s.retired ∧
    ∀ e, e ∈ t.l1 ↔ e ∈ s.l1 ∧ ¬ (e.owner = l2Owner die ∧ e.wa / 16 = pa / 64)) ∧
  (∀ (pa way : Nat) (s : State), way < 12 → Memory.wf s.mem = true → (s.slices.map (fun e => e.wa)).Nodup →
    (∀ e ∈ s.slices, e.wa / 16 = pa / 64 → e.st = .home ∧ e.dirty = false) →
    ∃ t, Sys2Proof.Machine.exec (.uncorrectableSoftError (.l2Line pa way)) s = .next t ∧ t.retired = s.retired ∧ t.warps = s.warps ∧
      t.dev = s.dev ∧ (∀ c, (ctxOf t c).st = (ctxOf s c).st) ∧ (∀ e ∈ t.slices, e.wa / 16 ≠ pa / 64) ∧
      ∀ a, a / 64 = pa / 64 → cohByte t a = cohByte s a) ∧
  (∀ (pa way : Nat) (s : State) (e : SliceWord), e ∈ s.slices → e.wa / 16 = pa / 64 → (e.st ≠ .home ∨ e.dirty = true) →
    ∃ t, Sys2Proof.Machine.exec (.uncorrectableSoftError (.l2Line pa way)) s = .next t ∧ pa / 4096 ∈ t.retired ∧ t.warps = s.warps ∧
      ∀ c, c < 64 → c ∈ mappers s pa → (ctxOf s c).st = .running → (ctxOf t c).st = .faulted) ∧
  (∀ (pa : Nat) (s : State), isMemory pa = true →
    (∃ e ∈ s.slices, e.wa / 16 = pa / 64 ∧ (e.st ≠ .home ∨ e.dirty = true)) →
    ∃ t, Sys2Proof.Machine.exec (.uncorrectableSoftError (.hbm pa)) s = .next t ∧ pa / 4096 ∈ t.retired ∧ t.warps = s.warps ∧
      t.slices = s.slices ∧ (∀ c, c < 64 → c ∈ mappers s pa → (ctxOf s c).st = .running → (ctxOf t c).st = .faulted) ∧
      (Memory.wf s.mem = true → ∀ a, (a < pa / 8 * 8 ∨ pa / 8 * 8 + 8 ≤ a) → memGet t.mem a = memGet s.mem a)) ∧
  (∀ (n k : Nat) (s : State), ∃ t, Sys2Proof.Machine.exec (.patrolScrub ⟨[(n, k)], [], []⟩) s = .next t ∧ CoresAs s t ∧ t.ctxs = s.ctxs ∧
    (getAt ({} : Island) t.islands n).soft = (getAt ({} : Island) s.islands n).soft + k ∧
    ∀ j, j ≠ n → getAt ({} : Island) t.islands j = getAt {} s.islands j) ∧
  (∀ (x : Nat × Nat × Nat) (s : State), x ∉ s.rows → (s.rows.filter (fun y => y.1 == x.1 && y.2.1 == x.2.1)).length < 8 →
    ∃ t, Sys2Proof.Machine.exec (.patrolScrub ⟨[], [x, x], []⟩) s = .next t ∧ CoresAs s t ∧ t.rows = x :: s.rows ∧
      t.errLogWr = s.errLogWr + 1)

/-! ## Reset, decoding and the step (01_device.md R16; 03_encoding.md R72 to R101; 04_thread.md R113 to R118) -/

/-- R16, R32, R306, R487: right after reset the package is in RESET with no owner and no feature accepted; every context is EMPTY; port 0
is enabled and not yet trained, ports 1 to 8 are not enabled; no connection, warp, block, task, queue or graph exists; memory is in
its canonical form, with nothing listed. -/
def Obligations.ResetState : Prop :=
  let s := State.reset
  s.dev = .reset ∧ s.ownerKey = none ∧ s.featAccept = 0 ∧ s.featWritten = false ∧ s.tb = 0 ∧ (∀ c, (ctxOf s c).st = .empty) ∧
  (∀ p, p ≤ 8 → (getAt ({} : Port) s.ports p).en = decide (p = 0) ∧ (getAt ({} : Port) s.ports p).st = .disabled) ∧
  s.conns = [] ∧ s.warps = [] ∧ s.blocks = [] ∧ s.tasks = [] ∧ s.queues = [] ∧ s.graphs = [] ∧ s.l1 = [] ∧ s.slices = [] ∧
  s.mem = [] ∧ Safe s

/-- R72, R73, R76, R80, R82, R95, R97: words written out from the encodings decode to the instructions that they stand for; a word of a
reserved major and a 16-bit parcel that is none of those of R77 are refused. -/
def Obligations.DecodeWords : Prop :=
  let g : Grp := ⟨false, 0, none, none⟩
  decode (leBytes 4 0x20184083) = .ok (.iadd { g with dist := 1 } ⟨1, 2, 3, false, false⟩) ∧
  decode (leBytes 4 0x040C2A17) = .ok (.icmp g ⟨4, 5, 6, false, false, 2⟩) ∧
  decode (leBytes 4 0x0008C0BB) = .ok (.ld g ⟨1, 6, 1, false, false, 0, 0⟩) ∧
  decode (leBytes 4 0x0002095B) = .ok (.bra g ⟨2, true, 16⟩) ∧
  decode (leBytes 4 0x000001DD) = .ok (.exit g ⟨0, false, 0⟩) ∧
  decode (leBytes 4 0x1FFFE2A9) = .ok (.smovi g ⟨5, 0xFFFF⟩) ∧
  decode (leBytes 4 0x02059071) = .ok (.csrr g ⟨8, 11, 16, false, false⟩) ∧
  decode (leBytes 4 0x02000059) = .ok (.fence g ⟨0, 0, false, false, 2⟩) ∧
  decode (leBytes 2 0x18C2) = .ok (.iaddC ⟨3, 3, false⟩) ∧
  decode (leBytes 2 0x005E) = .ok (.wait 5) ∧
  decode (leBytes 4 0x00000001) = .error ⟨.reservedMajor, 1, 0, 4⟩ ∧
  decode (leBytes 2 0x0000) = .error ⟨.laneForm, 0, 0, 2⟩

/-- R72 to R99: every well-formed instruction of the stream is the one that its encoding decodes to, whatever follows it in the stream,
and the encoding has the length of its group. -/
def Obligations.EncodeDecode : Prop :=
  ∀ (i : Instr) (rest : List Byte), encode i ≠ [] → wellFormed i = true →
    decode (encode i ++ rest) = .ok i ∧ (encode i).length = instrLen i

/-- R72, R113, R117, R118, R230 to R233, R521: a step in which a slot issues, by the agenda or in its turn, with no latch chain in hand,
goes on to the first cycle in which a warp of the slot is eligible and takes the warp that the slot chooses and its chosen split; where
the bytes of the group at the split's PC decode to i, the step is what i does in an issue for that warp and split, then what i's partner
does where there is one, and what follows at once (`finish`, `wake` and `passOver` are the model's own; so is `overrun`, which finds the
latch reader that may not follow i, R154). A step of the agenda that is an event does the event. Every step answers a next state and
counts itself. -/
def Obligations.StepRunsDecoded : Prop :=
  (∀ (s s0 : State) (slot : Nat) (w : Warp) (p : LaneMask) (bs : List Byte) (i : Instr) (t : State),
    (∀ v ∈ s.warps, inChain s v = false) →
    ((∃ rest, s.agenda = .issue slot :: rest ∧ s0 = { s with agenda := rest }) ∨
      s.agenda = [] ∧ s.turn = false ∧ nextSlot s (readySlots s) = some slot ∧
        s0 = { s with lastWarp := s.lastWarp.filter (fun r => (readySlots s).contains r.1) }) →
    let n := nextCycle s0 slot (candidates s0 slot)
    let ws := (candidates s0 slot).filter (fun v => decide (dueAt s0 v ≤ n))
    let s1 := { idleTo s0 slot n with slotNow := slot + 1 }
    let ends (u : State) : Prop :=
      step s = .next (finish s (if hasIssued s1 u slot then passOver (wake u) slot w ws else wake u))
    choose (idleTo s0 slot n) slot ws = some w → w.deferred = [] → w.marked = false → chosenSplit s1 w = some p →
    fetchBytes s1 w 3 .start (((ctxOf s w.ctx).codebase.toNat / 16 * 16 + (pcOf w p).toNat) % 2 ^ 64) = .ok bs → decode bs = .ok i →
    Sys2Proof.Machine.exec i { s1 with issue := some ⟨w.ctx, w.num, p, none⟩ } = .next t →
    (t.issue ≠ none → step s = .next (finish s { t with issue := none })) ∧
    (t.issue = none → warpFind t w.ctx w.num = none → ends t) ∧
    (∀ v, t.issue = none → warpFind t w.ctx w.num = some v →
      (completed w v = false → ends t) ∧
      (completed w v = true → overrun s1 w t = none → secondOf s1 w p i v.now = none → ends t) ∧
      (∀ q j u, completed w v = true → overrun s1 w t = none → secondOf s1 w p i v.now = some (q, j) →
        Sys2Proof.Machine.exec j { t with issue := some ⟨w.ctx, w.num, q, some (prepared s1 w p i)⟩ } = .next u →
        ends { u with issue := none }) ∧
      (∀ u, completed w v = true → overrun s1 w t = some u →
        (u.issue = none → ends u) ∧ (u.issue ≠ none → step s = .next (finish s { u with issue := none }))))) ∧
  (∀ (s : State) (i : Instr) (rest : List Act), (∀ v ∈ s.warps, inChain s v = false) → s.agenda = .ev i :: rest →
    (∀ t, Sys2Proof.Machine.exec i { s with agenda := rest } = .next t → step s = .next (finish s (wake { t with issue := none }))) ∧
    ((∀ t, Sys2Proof.Machine.exec i { s with agenda := rest } ≠ .next t) → step s = .next (finish s { s with agenda := rest }))) ∧
  (∀ (s : State), ∃ t, step s = .next t ∧ t.tick = s.tick + 1 ∧ t.turn = !s.turn)

/-- Every step of the machine keeps the canonical form of memory and of every scratchpad: addresses strictly rising, and no byte listed
that reads as an unlisted one does (the form is the model's own, as assumption 1 says). -/
def Obligations.StepKeepsMemoryForm : Prop :=
  ∀ (s t : State), Safe s → step s = .next t → Safe t
end

