-- ==== Sys2Proof/Laws/Lists.lean ====
section
/-! SUPPORT. Laws of the lists that hold registers, lanes and keys: reading after writing, lanes from functions, masks. -/

namespace Sys2Proof.Machine

theorem getAt_setAt {α : Type} (d : α) (xs : List α) (n k : Nat) (y : α) :
    getAt d (setAt d xs n y) k = if k = n then y else getAt d xs k := by
  induction n generalizing xs k with
  | zero => cases xs <;> cases k <;> simp [setAt, getAt]
  | succ n ih => cases xs <;> cases k <;> simp [setAt, getAt, ih]

@[simp] theorem getAt_setAt_same {α : Type} (d : α) (xs : List α) (n : Nat) (y : α) : getAt d (setAt d xs n y) n = y := by
  simp [getAt_setAt]

theorem getAt_setAt_other {α : Type} (d : α) (xs : List α) {n k : Nat} (y : α) (h : k ≠ n) :
    getAt d (setAt d xs n y) k = getAt d xs k := by simp [getAt_setAt, h]

@[simp] theorem getAt_nil {α : Type} (d : α) (k : Nat) : getAt d [] k = d := rfl

theorem getAt_eq_getD {α : Type} (d : α) (xs : List α) (k : Nat) : getAt d xs k = xs.getD k d := by
  induction xs generalizing k with
  | nil => simp [getAt]
  | cons x xs ih => cases k <;> simp [getAt, ih]

theorem laneIdx_eq : laneIdx = List.range 32 := by decide

/-- A lane of a list of lanes made from a function. -/
theorem getAt_laneMap {α : Type} (d : α) (f : Nat → α) {l : Nat} (h : l < 32) : getAt d (laneIdx.map f) l = f l := by
  rw [getAt_eq_getD, laneIdx_eq]
  simp [List.getD, h]

theorem getAt_laneMap_out {α : Type} (d : α) (f : Nat → α) {l : Nat} (h : ¬ l < 32) : getAt d (laneIdx.map f) l = d := by
  rw [getAt_eq_getD, laneIdx_eq]
  simp [List.getD, h]

theorem mem_laneIdx {l : Nat} : l ∈ laneIdx ↔ l < 32 := by rw [laneIdx_eq]; simp

theorem laneBit_lt {m : LaneMask} {l : Nat} (h : laneBit m l = true) : l < 32 := by
  unfold laneBit at h
  exact BitVec.lt_of_getLsbD h

@[simp] theorem laneBit_and (a b : LaneMask) (l : Nat) : laneBit (a &&& b) l = (laneBit a l && laneBit b l) := by
  simp [laneBit]

@[simp] theorem laneBit_or (a b : LaneMask) (l : Nat) : laneBit (a ||| b) l = (laneBit a l || laneBit b l) := by
  simp [laneBit]

@[simp] theorem laneBit_xor (a b : LaneMask) (l : Nat) : laneBit (a ^^^ b) l = (laneBit a l ^^ laneBit b l) := by
  simp [laneBit]

theorem laneBit_not (a : LaneMask) {l : Nat} (h : l < 32) : laneBit (~~~ a) l = !laneBit a l := by
  simp [laneBit, h]

@[simp] theorem laneBit_zero (l : Nat) : laneBit 0#32 l = false := by simp [laneBit]

theorem laneBit_ones {l : Nat} (h : l < 32) : laneBit 0xFFFFFFFF#32 l = true := by
  have : (0xFFFFFFFF#32) = BitVec.allOnes 32 := by decide
  rw [laneBit, this, BitVec.getLsbD_allOnes]
  simp [h]

theorem laneBit_laneOne {l k : Nat} (h : k < 32) : laneBit (laneOne l) k = decide (k = l) := by
  simp only [laneBit, laneOne, BitVec.getLsbD_shiftLeft, BitVec.getLsbD_one]
  by_cases hk : k < l
  · simp [hk, h]; omega
  · by_cases he : k = l
    · simp [he]; omega
    · simp [h, hk, he]; omega

theorem getKey_putKey {β : Type} (k j : Nat) (x : β) (r : List (Nat × β)) :
    getKey j (putKey k x r) = if j = k then some x else getKey j r := by
  induction r with
  | nil => by_cases h : j = k <;> simp [putKey, getKey, h] <;> omega
  | cons p r ih =>
    obtain ⟨i, y⟩ := p
    by_cases h : i = k
    · by_cases hj : j = k
      · simp [putKey, getKey, h, hj]
      · simp [putKey, getKey, h, hj, Ne.symm hj]
    · by_cases hi : i = j
      · subst hi; simp [putKey, getKey, h]
      · simp [putKey, getKey, h, hi, ih]

end Sys2Proof.Machine
end

