-- ==== Sys2Proof/Laws/Regs.lean ====
section
/-! SUPPORT. Laws of a warp's registers: what a write, a release and a landing leave in each register (R135, R136, R138 to
R142). -/

namespace Sys2Proof.Machine

theorem laneBit_mkMask (f : Nat → Bool) {l : Nat} (h : l < 32) : laneBit (mkMask f) l = f l := by
  have key : ∀ (ls : List Nat) (m : LaneMask),
      laneBit (ls.foldl (fun m l => if f l then m ||| laneOne l else m) m) l = (laneBit m l || (decide (l ∈ ls) && f l)) := by
    intro ls
    induction ls with
    | nil => intro m; simp
    | cons a ls ih =>
      intro m
      simp only [List.foldl_cons, ih]
      by_cases hf : f a
      · by_cases ha : l = a
        · subst ha; simp [hf, laneBit_laneOne h]
        · simp [hf, laneBit_laneOne h, ha]
      · by_cases ha : l = a
        · subst ha; simp [hf]
        · simp [hf, ha]
  rw [mkMask, key]
  simp [mem_laneIdx, h]

@[simp] theorem lane_nil (l : Nat) : lane [] l = 0 := rfl

theorem lane_laneMap (f : Nat → Word) {l : Nat} (h : l < 32) : lane (laneIdx.map f) l = f l := getAt_laneMap 0 f h

theorem lane_laneMap_out (f : Nat → Word) {l : Nat} (h : ¬ l < 32) : lane (laneIdx.map f) l = 0 := getAt_laneMap_out 0 f h

theorem lane_blend (m : LaneMask) (a b : Lanes) {l : Nat} (h : l < 32) :
    lane (blend m a b) l = if laneBit m l then lane a l else lane b l := by
  rw [blend, lane_laneMap _ h]

/-! ## Vector registers -/

theorem vEntry_putV (r : Regs) (w : VWrite) (n : Nat) :
    vEntry (putV r w) n = if n = w.reg then ⟨.mapped, blend w.lanes w.val (vGet r w.reg)⟩ else vEntry r n := by
  unfold putV vGet
  cases h : (vEntry r w.reg).st <;> simp [vEntry, getAt_setAt]

theorem vGet_of_entry {r q : Regs} {n : Nat} (h : vEntry r n = vEntry q n) : vGet r n = vGet q n := by simp [vGet, h]

@[simp] theorem putV_s (r : Regs) (w : VWrite) : (putV r w).s = r.s := by unfold putV; split <;> rfl
@[simp] theorem putV_m (r : Regs) (w : VWrite) : (putV r w).m = r.m := by unfold putV; split <;> rfl
@[simp] theorem putV_flags (r : Regs) (w : VWrite) : (putV r w).flags = r.flags := by unfold putV; split <;> rfl
@[simp] theorem putV_q (r : Regs) (w : VWrite) : (putV r w).q = r.q := by unfold putV; split <;> rfl
@[simp] theorem putV_draw (r : Regs) (w : VWrite) : (putV r w).draw = r.draw := by unfold putV; split <;> rfl

theorem vEntry_freeV (r : Regs) (k n : Nat) : vEntry (freeV r k) n = if n = k then {} else vEntry r n := by
  simp [freeV, vEntry, getAt_setAt]

@[simp] theorem freeV_s (r : Regs) (n : Nat) : (freeV r n).s = r.s := rfl
@[simp] theorem freeV_m (r : Regs) (n : Nat) : (freeV r n).m = r.m := rfl
@[simp] theorem freeV_flags (r : Regs) (n : Nat) : (freeV r n).flags = r.flags := rfl
@[simp] theorem freeV_q (r : Regs) (n : Nat) : (freeV r n).q = r.q := rfl
@[simp] theorem freeV_draw (r : Regs) (n : Nat) : (freeV r n).draw = r.draw := rfl

/-! ## Scalar and mask registers -/

theorem sGet_putS (r : Regs) (k n : Nat) (x : DWord) : sGet (putS r k x) n = if n = k then x else sGet r n := by
  simp [putS, sGet, getAt_setAt]

@[simp] theorem putS_v (r : Regs) (n : Nat) (x : DWord) : (putS r n x).v = r.v := rfl
@[simp] theorem putS_m (r : Regs) (n : Nat) (x : DWord) : (putS r n x).m = r.m := rfl
@[simp] theorem putS_flags (r : Regs) (n : Nat) (x : DWord) : (putS r n x).flags = r.flags := rfl
@[simp] theorem putS_q (r : Regs) (n : Nat) (x : DWord) : (putS r n x).q = r.q := rfl
@[simp] theorem putS_draw (r : Regs) (n : Nat) (x : DWord) : (putS r n x).draw = r.draw := rfl

@[simp] theorem mGet_zero (r : Regs) : mGet r 0 = 0xFFFFFFFF#32 := rfl

theorem mGet_mPut (r : Regs) (k n : Nat) (x : LaneMask) : mGet (mPut r k x) n = if n = k ∧ k ≠ 0 then x else mGet r n := by
  unfold mPut mGet
  by_cases hk : k = 0
  · simp [hk]
  · by_cases hn : n = 0
    · simp [hn, hk]; omega
    · simp [hn, hk, getAt_setAt]

@[simp] theorem mPut_v (r : Regs) (n : Nat) (x : LaneMask) : (mPut r n x).v = r.v := by unfold mPut; split <;> rfl
@[simp] theorem mPut_s (r : Regs) (n : Nat) (x : LaneMask) : (mPut r n x).s = r.s := by unfold mPut; split <;> rfl
@[simp] theorem mPut_flags (r : Regs) (n : Nat) (x : LaneMask) : (mPut r n x).flags = r.flags := by unfold mPut; split <;> rfl
@[simp] theorem mPut_q (r : Regs) (n : Nat) (x : LaneMask) : (mPut r n x).q = r.q := by unfold mPut; split <;> rfl
@[simp] theorem mPut_draw (r : Regs) (n : Nat) (x : LaneMask) : (mPut r n x).draw = r.draw := by unfold mPut; split <;> rfl
@[simp] theorem putM_v (r : Regs) (n : Nat) (a b : LaneMask) : (putM r n a b).v = r.v := by simp [putM]
@[simp] theorem putM_s (r : Regs) (n : Nat) (a b : LaneMask) : (putM r n a b).s = r.s := by simp [putM]
@[simp] theorem putM_flags (r : Regs) (n : Nat) (a b : LaneMask) : (putM r n a b).flags = r.flags := by simp [putM]
@[simp] theorem putM_q (r : Regs) (n : Nat) (a b : LaneMask) : (putM r n a b).q = r.q := by simp [putM]
@[simp] theorem putM_draw (r : Regs) (n : Nat) (a b : LaneMask) : (putM r n a b).draw = r.draw := by simp [putM]

theorem mGet_putM (r : Regs) (k n : Nat) (lanes val : LaneMask) :
    mGet (putM r k lanes val) n = if n = k ∧ k ≠ 0 then (val &&& lanes) ||| (mGet r k &&& ~~~ lanes) else mGet r n := by
  simp [putM, mGet_mPut]

theorem foldPutM_v (ms : List (Nat × LaneMask × LaneMask)) (r : Regs) :
    (ms.foldl (fun r q => putM r q.1 q.2.1 q.2.2) r).v = r.v := by
  induction ms generalizing r with
  | nil => rfl
  | cons q ms ih => simp [ih]

theorem foldPutM_s (ms : List (Nat × LaneMask × LaneMask)) (r : Regs) :
    (ms.foldl (fun r q => putM r q.1 q.2.1 q.2.2) r).s = r.s := by
  induction ms generalizing r with
  | nil => rfl
  | cons q ms ih => simp [ih]

theorem foldPutM_flags (ms : List (Nat × LaneMask × LaneMask)) (r : Regs) :
    (ms.foldl (fun r q => putM r q.1 q.2.1 q.2.2) r).flags = r.flags := by
  induction ms generalizing r with
  | nil => rfl
  | cons q ms ih => simp [ih]

theorem foldPutM_q (ms : List (Nat × LaneMask × LaneMask)) (r : Regs) :
    (ms.foldl (fun r q => putM r q.1 q.2.1 q.2.2) r).q = r.q := by
  induction ms generalizing r with
  | nil => rfl
  | cons q ms ih => simp [ih]

/-! ## Releases and writes of a member (R142) -/

theorem foldFreeV_entry (ks : List Nat) (r : Regs) (n : Nat) :
    vEntry (ks.foldl freeV r) n = if n ∈ ks then {} else vEntry r n := by
  induction ks generalizing r with
  | nil => simp
  | cons k ks ih =>
    simp only [List.foldl_cons, ih, vEntry_freeV, List.mem_cons]
    by_cases h1 : n ∈ ks <;> by_cases h2 : n = k <;> simp [h1, h2]

theorem foldFreeV_frame (ks : List Nat) (r : Regs) :
    (ks.foldl freeV r).s = r.s ∧ (ks.foldl freeV r).m = r.m ∧ (ks.foldl freeV r).flags = r.flags ∧
    (ks.foldl freeV r).q = r.q ∧ (ks.foldl freeV r).draw = r.draw := by
  induction ks generalizing r with
  | nil => simp
  | cons k ks ih => simp [ih]

theorem foldPutS0_get (ks : List Nat) (r : Regs) (n : Nat) :
    sGet (ks.foldl (fun r n => putS r n 0) r) n = if n ∈ ks then 0 else sGet r n := by
  induction ks generalizing r with
  | nil => simp
  | cons k ks ih =>
    simp only [List.foldl_cons, ih, sGet_putS, List.mem_cons]
    by_cases h1 : n ∈ ks <;> by_cases h2 : n = k <;> simp [h1, h2]

theorem foldPutS0_frame (ks : List Nat) (r : Regs) :
    (ks.foldl (fun r n => putS r n 0) r).v = r.v ∧ (ks.foldl (fun r n => putS r n 0) r).m = r.m ∧
    (ks.foldl (fun r n => putS r n 0) r).flags = r.flags ∧ (ks.foldl (fun r n => putS r n 0) r).q = r.q ∧
    (ks.foldl (fun r n => putS r n 0) r).draw = r.draw := by
  induction ks generalizing r with
  | nil => simp
  | cons k ks ih => exact ih _

theorem foldPutV_frame (ws : List VWrite) (r : Regs) :
    (ws.foldl putV r).s = r.s ∧ (ws.foldl putV r).m = r.m ∧ (ws.foldl putV r).flags = r.flags ∧
    (ws.foldl putV r).q = r.q ∧ (ws.foldl putV r).draw = r.draw := by
  induction ws generalizing r with
  | nil => simp
  | cons k ws ih => simp [ih]

theorem foldPutV_other (ws : List VWrite) (r : Regs) (n : Nat) (h : ∀ w ∈ ws, w.reg ≠ n) :
    vEntry (ws.foldl putV r) n = vEntry r n := by
  induction ws generalizing r with
  | nil => rfl
  | cons w ws ih =>
    have hw : n ≠ w.reg := fun e => h w (by simp) e.symm
    simp only [List.foldl_cons]
    rw [ih _ (fun x hx => h x (by simp [hx])), vEntry_putV]
    simp [hw]

theorem foldPutSs_frame (ps : List (Nat × DWord)) (r : Regs) :
    (ps.foldl (fun r p => putS r p.1 p.2) r).v = r.v ∧ (ps.foldl (fun r p => putS r p.1 p.2) r).m = r.m ∧
    (ps.foldl (fun r p => putS r p.1 p.2) r).flags = r.flags ∧ (ps.foldl (fun r p => putS r p.1 p.2) r).q = r.q ∧
    (ps.foldl (fun r p => putS r p.1 p.2) r).draw = r.draw := by
  induction ps generalizing r with
  | nil => simp
  | cons k ps ih => simp [ih]

theorem foldPutSs_other (ps : List (Nat × DWord)) (r : Regs) (n : Nat) (h : ∀ p ∈ ps, p.1 ≠ n) :
    sGet (ps.foldl (fun r p => putS r p.1 p.2) r) n = sGet r n := by
  induction ps generalizing r with
  | nil => rfl
  | cons p ps ih =>
    have hp : n ≠ p.1 := fun e => h p (by simp) e.symm
    simp only [List.foldl_cons]
    rw [ih _ (fun x hx => h x (by simp [hx])), sGet_putS]
    simp [hp]

theorem vEntry_congr {r q : Regs} (h : r.v = q.v) (n : Nat) : vEntry r n = vEntry q n := by simp [vEntry, h]
theorem sGet_congr {r q : Regs} (h : r.s = q.s) (n : Nat) : sGet r n = sGet q n := by simp [sGet, h]
theorem mGet_congr {r q : Regs} (h : r.m = q.m) (n : Nat) : mGet r n = mGet q n := by simp [mGet, h]

/-- What a member leaves of the registers it does not write: released ones UNMAPPED and zero, the others as they were, the
masks, FLAGS and counters untouched. -/
theorem applyMember_frame (r : Regs) (m : Member) :
    (applyMember r m).m = r.m ∧ (applyMember r m).flags = r.flags ∧ (applyMember r m).q = r.q ∧
    (applyMember r m).draw = r.draw := by
  unfold applyMember
  obtain ⟨_, a2, a3, a4, a5⟩ := foldPutSs_frame m.wrS (m.wrV.foldl putV (m.relS.foldl (fun r n => putS r n 0) (m.relV.foldl freeV r)))
  obtain ⟨_, b2, b3, b4, b5⟩ := foldPutV_frame m.wrV (m.relS.foldl (fun r n => putS r n 0) (m.relV.foldl freeV r))
  obtain ⟨_, c2, c3, c4, c5⟩ := foldPutS0_frame m.relS (m.relV.foldl freeV r)
  obtain ⟨_, d2, d3, d4, d5⟩ := foldFreeV_frame m.relV r
  simp only [a2, a3, a4, a5, b2, b3, b4, b5, c2, c3, c4, c5, d2, d3, d4, d5, and_self]

theorem applyMember_vOther (r : Regs) (m : Member) (n : Nat) (h : ∀ w ∈ m.wrV, w.reg ≠ n) :
    vEntry (applyMember r m) n = if n ∈ m.relV then {} else vEntry r n := by
  unfold applyMember
  rw [vEntry_congr (foldPutSs_frame _ _).1, foldPutV_other _ _ _ h, vEntry_congr (foldPutS0_frame _ _).1, foldFreeV_entry]

theorem applyMember_sOther (r : Regs) (m : Member) (n : Nat) (h : ∀ p ∈ m.wrS, p.1 ≠ n) :
    sGet (applyMember r m) n = if n ∈ m.relS then 0 else sGet r n := by
  unfold applyMember
  rw [foldPutSs_other _ _ _ h, sGet_congr (foldPutV_frame _ _).1, foldPutS0_get, sGet_congr (foldFreeV_frame _ _).1]

/-- The one vector register that a member writes: the value in the lanes written, and elsewhere what it held, or zero when it
was not MAPPED or is released in the same instruction. -/
theorem applyMember_vWrite (r : Regs) (m : Member) (w : VWrite) (h : m.wrV = [w]) :
    vEntry (applyMember r m) w.reg =
      ⟨.mapped, blend w.lanes w.val (if w.reg ∈ m.relV then [] else vGet r w.reg)⟩ := by
  unfold applyMember
  rw [vEntry_congr (foldPutSs_frame _ _).1, h]
  simp only [List.foldl_cons, List.foldl_nil, vEntry_putV, if_true]
  congr 2
  have e : vEntry (m.relS.foldl (fun r n => putS r n 0) (m.relV.foldl freeV r)) w.reg = if w.reg ∈ m.relV then {} else vEntry r w.reg := by
    rw [vEntry_congr (foldPutS0_frame m.relS (m.relV.foldl freeV r)).1, foldFreeV_entry]
  rw [vGet, e]
  by_cases hr : w.reg ∈ m.relV <;> simp [hr, vGet]

theorem applyMember_sWrite (r : Regs) (m : Member) (n : Nat) (x : DWord) (h : m.wrS = [(n, x)]) :
    sGet (applyMember r m) n = x := by
  unfold applyMember
  simp [h, sGet_putS]

theorem applyMembers_snoc (r : Regs) (ms : List Member) (m : Member) :
    applyMembers r (ms ++ [m]) = applyMember (applyMembers r ms) m := by simp [applyMembers]

theorem applyMembers_frame (ms : List Member) (r : Regs) :
    (applyMembers r ms).m = r.m ∧ (applyMembers r ms).flags = r.flags ∧ (applyMembers r ms).q = r.q ∧
    (applyMembers r ms).draw = r.draw := by
  induction ms generalizing r with
  | nil => simp [applyMembers]
  | cons m ms ih =>
    have h := ih (applyMember r m)
    have g := applyMember_frame r m
    simp only [applyMembers, List.foldl_cons] at h ⊢
    simp only [h, g, and_self]

/-! ## What a member's effect on one kind of register depends on -/

theorem putV_v_congr {r q : Regs} (w : VWrite) (h : r.v = q.v) : (putV r w).v = (putV q w).v := by
  have e : vEntry r w.reg = vEntry q w.reg := vEntry_congr h _
  unfold putV
  rw [e]
  cases (vEntry q w.reg).st <;> simp [h]

theorem foldFreeV_v_congr (ks : List Nat) {r q : Regs} (h : r.v = q.v) : (ks.foldl freeV r).v = (ks.foldl freeV q).v := by
  induction ks generalizing r q with
  | nil => exact h
  | cons k ks ih => exact ih (by simp [freeV, h])

theorem foldPutV_v_congr (ws : List VWrite) {r q : Regs} (h : r.v = q.v) : (ws.foldl putV r).v = (ws.foldl putV q).v := by
  induction ws generalizing r q with
  | nil => exact h
  | cons w ws ih => exact ih (putV_v_congr w h)

theorem applyMember_v_congr {r q : Regs} (m : Member) (h : r.v = q.v) : (applyMember r m).v = (applyMember q m).v := by
  unfold applyMember
  rw [(foldPutSs_frame _ _).1, (foldPutSs_frame _ _).1]
  exact foldPutV_v_congr _ (by rw [(foldPutS0_frame _ _).1, (foldPutS0_frame _ _).1]; exact foldFreeV_v_congr _ h)

theorem foldPutS0_s_congr (ks : List Nat) {r q : Regs} (h : r.s = q.s) :
    (ks.foldl (fun r n => putS r n 0) r).s = (ks.foldl (fun r n => putS r n 0) q).s := by
  induction ks generalizing r q with
  | nil => exact h
  | cons k ks ih => exact ih (by simp [putS, h])

theorem foldPutSs_s_congr (ps : List (Nat × DWord)) {r q : Regs} (h : r.s = q.s) :
    (ps.foldl (fun r p => putS r p.1 p.2) r).s = (ps.foldl (fun r p => putS r p.1 p.2) q).s := by
  induction ps generalizing r q with
  | nil => exact h
  | cons k ps ih => exact ih (by simp [putS, h])

theorem applyMember_s_congr {r q : Regs} (m : Member) (h : r.s = q.s) : (applyMember r m).s = (applyMember q m).s := by
  unfold applyMember
  refine foldPutSs_s_congr _ ?_
  rw [(foldPutV_frame _ _).1, (foldPutV_frame _ _).1]
  exact foldPutS0_s_congr _ (by rw [(foldFreeV_frame _ _).1, (foldFreeV_frame _ _).1]; exact h)

theorem applyMembers_v_congr (ms : List Member) {r q : Regs} (h : r.v = q.v) : (applyMembers r ms).v = (applyMembers q ms).v := by
  induction ms generalizing r q with
  | nil => exact h
  | cons m ms ih => exact ih (applyMember_v_congr m h)

theorem applyMembers_s_congr (ms : List Member) {r q : Regs} (h : r.s = q.s) : (applyMembers r ms).s = (applyMembers q ms).s := by
  induction ms generalizing r q with
  | nil => exact h
  | cons m ms ih => exact ih (applyMember_s_congr m h)

end Sys2Proof.Machine
end

