-- ==== Sys2Proof/Laws/State.lean ====
section
/-! SUPPORT. What each update of the machine leaves unchanged, field by field. -/

namespace Sys2Proof.Machine

/-! ## The fresh identifier -/

@[simp] theorem takeFresh_fst (s : State) : (takeFresh s).1 = s.fresh := rfl
@[simp] theorem takeFresh_snd (s : State) : (takeFresh s).2 = { s with fresh := s.fresh + 1 } := rfl

/-! ## setCtx -/

@[simp] theorem setCtx_dev (s : State) (c : Nat) (x : Ctx) : (setCtx s c x).dev = s.dev := rfl
@[simp] theorem setCtx_ownerKey (s : State) (c : Nat) (x : Ctx) : (setCtx s c x).ownerKey = s.ownerKey := rfl
@[simp] theorem setCtx_successor (s : State) (c : Nat) (x : Ctx) : (setCtx s c x).successor = s.successor := rfl
@[simp] theorem setCtx_allow (s : State) (c : Nat) (x : Ctx) : (setCtx s c x).allow = s.allow := rfl
@[simp] theorem setCtx_serial (s : State) (c : Nat) (x : Ctx) : (setCtx s c x).serial = s.serial := rfl
@[simp] theorem setCtx_featAccept (s : State) (c : Nat) (x : Ctx) : (setCtx s c x).featAccept = s.featAccept := rfl
@[simp] theorem setCtx_featWritten (s : State) (c : Nat) (x : Ctx) : (setCtx s c x).featWritten = s.featWritten := rfl
@[simp] theorem setCtx_islands (s : State) (c : Nat) (x : Ctx) : (setCtx s c x).islands = s.islands := rfl
@[simp] theorem setCtx_firmware (s : State) (c : Nat) (x : Ctx) : (setCtx s c x).firmware = s.firmware := rfl
@[simp] theorem setCtx_spares (s : State) (c : Nat) (x : Ctx) : (setCtx s c x).spares = s.spares := rfl
@[simp] theorem setCtx_fenced (s : State) (c : Nat) (x : Ctx) : (setCtx s c x).fenced = s.fenced := rfl
@[simp] theorem setCtx_sparing (s : State) (c : Nat) (x : Ctx) : (setCtx s c x).sparing = s.sparing := rfl
@[simp] theorem setCtx_retired (s : State) (c : Nat) (x : Ctx) : (setCtx s c x).retired = s.retired := rfl
@[simp] theorem setCtx_ways (s : State) (c : Nat) (x : Ctx) : (setCtx s c x).ways = s.ways := rfl
@[simp] theorem setCtx_rows (s : State) (c : Nat) (x : Ctx) : (setCtx s c x).rows = s.rows := rfl
@[simp] theorem setCtx_powerCap (s : State) (c : Nat) (x : Ctx) : (setCtx s c x).powerCap = s.powerCap := rfl
@[simp] theorem setCtx_pkgNum (s : State) (c : Nat) (x : Ctx) : (setCtx s c x).pkgNum = s.pkgNum := rfl
@[simp] theorem setCtx_powerIn (s : State) (c : Nat) (x : Ctx) : (setCtx s c x).powerIn = s.powerIn := rfl
@[simp] theorem setCtx_dieTemp (s : State) (c : Nat) (x : Ctx) : (setCtx s c x).dieTemp = s.dieTemp := rfl
@[simp] theorem setCtx_errLog (s : State) (c : Nat) (x : Ctx) : (setCtx s c x).errLog = s.errLog := rfl
@[simp] theorem setCtx_errLogWr (s : State) (c : Nat) (x : Ctx) : (setCtx s c x).errLogWr = s.errLogWr := rfl
@[simp] theorem setCtx_evDrop (s : State) (c : Nat) (x : Ctx) : (setCtx s c x).evDrop = s.evDrop := rfl
@[simp] theorem setCtx_imports (s : State) (c : Nat) (x : Ctx) : (setCtx s c x).imports = s.imports := rfl
@[simp] theorem setCtx_ports (s : State) (c : Nat) (x : Ctx) : (setCtx s c x).ports = s.ports := rfl
@[simp] theorem setCtx_conns (s : State) (c : Nat) (x : Ctx) : (setCtx s c x).conns = s.conns := rfl
@[simp] theorem setCtx_outbox (s : State) (c : Nat) (x : Ctx) : (setCtx s c x).outbox = s.outbox := rfl
@[simp] theorem setCtx_sent (s : State) (c : Nat) (x : Ctx) : (setCtx s c x).sent = s.sent := rfl
@[simp] theorem setCtx_tb (s : State) (c : Nat) (x : Ctx) : (setCtx s c x).tb = s.tb := rfl
@[simp] theorem setCtx_warps (s : State) (c : Nat) (x : Ctx) : (setCtx s c x).warps = s.warps := rfl
@[simp] theorem setCtx_blocks (s : State) (c : Nat) (x : Ctx) : (setCtx s c x).blocks = s.blocks := rfl
@[simp] theorem setCtx_tasks (s : State) (c : Nat) (x : Ctx) : (setCtx s c x).tasks = s.tasks := rfl
@[simp] theorem setCtx_views (s : State) (c : Nat) (x : Ctx) : (setCtx s c x).views = s.views := rfl
@[simp] theorem setCtx_deques (s : State) (c : Nat) (x : Ctx) : (setCtx s c x).deques = s.deques := rfl
@[simp] theorem setCtx_lastWarp (s : State) (c : Nat) (x : Ctx) : (setCtx s c x).lastWarp = s.lastWarp := rfl
@[simp] theorem setCtx_clocks (s : State) (c : Nat) (x : Ctx) : (setCtx s c x).clocks = s.clocks := rfl
@[simp] theorem setCtx_copies (s : State) (c : Nat) (x : Ctx) : (setCtx s c x).copies = s.copies := rfl
@[simp] theorem setCtx_bbcs (s : State) (c : Nat) (x : Ctx) : (setCtx s c x).bbcs = s.bbcs := rfl
@[simp] theorem setCtx_fused (s : State) (c : Nat) (x : Ctx) : (setCtx s c x).fused = s.fused := rfl
@[simp] theorem setCtx_l1 (s : State) (c : Nat) (x : Ctx) : (setCtx s c x).l1 = s.l1 := rfl
@[simp] theorem setCtx_epochs (s : State) (c : Nat) (x : Ctx) : (setCtx s c x).epochs = s.epochs := rfl
@[simp] theorem setCtx_slices (s : State) (c : Nat) (x : Ctx) : (setCtx s c x).slices = s.slices := rfl
@[simp] theorem setCtx_homes (s : State) (c : Nat) (x : Ctx) : (setCtx s c x).homes = s.homes := rfl
@[simp] theorem setCtx_lru (s : State) (c : Nat) (x : Ctx) : (setCtx s c x).lru = s.lru := rfl
@[simp] theorem setCtx_fwdLines (s : State) (c : Nat) (x : Ctx) : (setCtx s c x).fwdLines = s.fwdLines := rfl
@[simp] theorem setCtx_net (s : State) (c : Nat) (x : Ctx) : (setCtx s c x).net = s.net := rfl
@[simp] theorem setCtx_mem (s : State) (c : Nat) (x : Ctx) : (setCtx s c x).mem = s.mem := rfl
@[simp] theorem setCtx_tlb (s : State) (c : Nat) (x : Ctx) : (setCtx s c x).tlb = s.tlb := rfl
@[simp] theorem setCtx_tcache (s : State) (c : Nat) (x : Ctx) : (setCtx s c x).tcache = s.tcache := rfl
@[simp] theorem setCtx_walks (s : State) (c : Nat) (x : Ctx) : (setCtx s c x).walks = s.walks := rfl
@[simp] theorem setCtx_refused (s : State) (c : Nat) (x : Ctx) : (setCtx s c x).refused = s.refused := rfl
@[simp] theorem setCtx_faults (s : State) (c : Nat) (x : Ctx) : (setCtx s c x).faults = s.faults := rfl
@[simp] theorem setCtx_heldFaults (s : State) (c : Nat) (x : Ctx) : (setCtx s c x).heldFaults = s.heldFaults := rfl
@[simp] theorem setCtx_pages (s : State) (c : Nat) (x : Ctx) : (setCtx s c x).pages = s.pages := rfl
@[simp] theorem setCtx_casts (s : State) (c : Nat) (x : Ctx) : (setCtx s c x).casts = s.casts := rfl
@[simp] theorem setCtx_piste (s : State) (c : Nat) (x : Ctx) : (setCtx s c x).piste = s.piste := rfl
@[simp] theorem setCtx_queues (s : State) (c : Nat) (x : Ctx) : (setCtx s c x).queues = s.queues := rfl
@[simp] theorem setCtx_graphs (s : State) (c : Nat) (x : Ctx) : (setCtx s c x).graphs = s.graphs := rfl
@[simp] theorem setCtx_insts (s : State) (c : Nat) (x : Ctx) : (setCtx s c x).insts = s.insts := rfl
@[simp] theorem setCtx_launches (s : State) (c : Nat) (x : Ctx) : (setCtx s c x).launches = s.launches := rfl
@[simp] theorem setCtx_hostOps (s : State) (c : Nat) (x : Ctx) : (setCtx s c x).hostOps = s.hostOps := rfl
@[simp] theorem setCtx_agenda (s : State) (c : Nat) (x : Ctx) : (setCtx s c x).agenda = s.agenda := rfl
@[simp] theorem setCtx_issue (s : State) (c : Nat) (x : Ctx) : (setCtx s c x).issue = s.issue := rfl
@[simp] theorem setCtx_turn (s : State) (c : Nat) (x : Ctx) : (setCtx s c x).turn = s.turn := rfl
@[simp] theorem setCtx_tick (s : State) (c : Nat) (x : Ctx) : (setCtx s c x).tick = s.tick := rfl
@[simp] theorem setCtx_slotNow (s : State) (c : Nat) (x : Ctx) : (setCtx s c x).slotNow = s.slotNow := rfl
@[simp] theorem setCtx_free (s : State) (c : Nat) (x : Ctx) : (setCtx s c x).free = s.free := rfl
@[simp] theorem setCtx_fresh (s : State) (c : Nat) (x : Ctx) : (setCtx s c x).fresh = s.fresh := rfl

/-! ## setWarp -/

@[simp] theorem setWarp_dev (s : State) (w : Warp) : (setWarp s w).dev = s.dev := rfl
@[simp] theorem setWarp_ownerKey (s : State) (w : Warp) : (setWarp s w).ownerKey = s.ownerKey := rfl
@[simp] theorem setWarp_successor (s : State) (w : Warp) : (setWarp s w).successor = s.successor := rfl
@[simp] theorem setWarp_allow (s : State) (w : Warp) : (setWarp s w).allow = s.allow := rfl
@[simp] theorem setWarp_serial (s : State) (w : Warp) : (setWarp s w).serial = s.serial := rfl
@[simp] theorem setWarp_featAccept (s : State) (w : Warp) : (setWarp s w).featAccept = s.featAccept := rfl
@[simp] theorem setWarp_featWritten (s : State) (w : Warp) : (setWarp s w).featWritten = s.featWritten := rfl
@[simp] theorem setWarp_islands (s : State) (w : Warp) : (setWarp s w).islands = s.islands := rfl
@[simp] theorem setWarp_firmware (s : State) (w : Warp) : (setWarp s w).firmware = s.firmware := rfl
@[simp] theorem setWarp_spares (s : State) (w : Warp) : (setWarp s w).spares = s.spares := rfl
@[simp] theorem setWarp_fenced (s : State) (w : Warp) : (setWarp s w).fenced = s.fenced := rfl
@[simp] theorem setWarp_sparing (s : State) (w : Warp) : (setWarp s w).sparing = s.sparing := rfl
@[simp] theorem setWarp_retired (s : State) (w : Warp) : (setWarp s w).retired = s.retired := rfl
@[simp] theorem setWarp_ways (s : State) (w : Warp) : (setWarp s w).ways = s.ways := rfl
@[simp] theorem setWarp_rows (s : State) (w : Warp) : (setWarp s w).rows = s.rows := rfl
@[simp] theorem setWarp_powerCap (s : State) (w : Warp) : (setWarp s w).powerCap = s.powerCap := rfl
@[simp] theorem setWarp_pkgNum (s : State) (w : Warp) : (setWarp s w).pkgNum = s.pkgNum := rfl
@[simp] theorem setWarp_powerIn (s : State) (w : Warp) : (setWarp s w).powerIn = s.powerIn := rfl
@[simp] theorem setWarp_dieTemp (s : State) (w : Warp) : (setWarp s w).dieTemp = s.dieTemp := rfl
@[simp] theorem setWarp_errLog (s : State) (w : Warp) : (setWarp s w).errLog = s.errLog := rfl
@[simp] theorem setWarp_errLogWr (s : State) (w : Warp) : (setWarp s w).errLogWr = s.errLogWr := rfl
@[simp] theorem setWarp_evDrop (s : State) (w : Warp) : (setWarp s w).evDrop = s.evDrop := rfl
@[simp] theorem setWarp_imports (s : State) (w : Warp) : (setWarp s w).imports = s.imports := rfl
@[simp] theorem setWarp_ports (s : State) (w : Warp) : (setWarp s w).ports = s.ports := rfl
@[simp] theorem setWarp_conns (s : State) (w : Warp) : (setWarp s w).conns = s.conns := rfl
@[simp] theorem setWarp_outbox (s : State) (w : Warp) : (setWarp s w).outbox = s.outbox := rfl
@[simp] theorem setWarp_sent (s : State) (w : Warp) : (setWarp s w).sent = s.sent := rfl
@[simp] theorem setWarp_tb (s : State) (w : Warp) : (setWarp s w).tb = s.tb := rfl
@[simp] theorem setWarp_ctxs (s : State) (w : Warp) : (setWarp s w).ctxs = s.ctxs := rfl
@[simp] theorem setWarp_blocks (s : State) (w : Warp) : (setWarp s w).blocks = s.blocks := rfl
@[simp] theorem setWarp_tasks (s : State) (w : Warp) : (setWarp s w).tasks = s.tasks := rfl
@[simp] theorem setWarp_views (s : State) (w : Warp) : (setWarp s w).views = s.views := rfl
@[simp] theorem setWarp_deques (s : State) (w : Warp) : (setWarp s w).deques = s.deques := rfl
@[simp] theorem setWarp_lastWarp (s : State) (w : Warp) : (setWarp s w).lastWarp = s.lastWarp := rfl
@[simp] theorem setWarp_clocks (s : State) (w : Warp) : (setWarp s w).clocks = s.clocks := rfl
@[simp] theorem setWarp_copies (s : State) (w : Warp) : (setWarp s w).copies = s.copies := rfl
@[simp] theorem setWarp_bbcs (s : State) (w : Warp) : (setWarp s w).bbcs = s.bbcs := rfl
@[simp] theorem setWarp_fused (s : State) (w : Warp) : (setWarp s w).fused = s.fused := rfl
@[simp] theorem setWarp_l1 (s : State) (w : Warp) : (setWarp s w).l1 = s.l1 := rfl
@[simp] theorem setWarp_epochs (s : State) (w : Warp) : (setWarp s w).epochs = s.epochs := rfl
@[simp] theorem setWarp_slices (s : State) (w : Warp) : (setWarp s w).slices = s.slices := rfl
@[simp] theorem setWarp_homes (s : State) (w : Warp) : (setWarp s w).homes = s.homes := rfl
@[simp] theorem setWarp_lru (s : State) (w : Warp) : (setWarp s w).lru = s.lru := rfl
@[simp] theorem setWarp_fwdLines (s : State) (w : Warp) : (setWarp s w).fwdLines = s.fwdLines := rfl
@[simp] theorem setWarp_net (s : State) (w : Warp) : (setWarp s w).net = s.net := rfl
@[simp] theorem setWarp_mem (s : State) (w : Warp) : (setWarp s w).mem = s.mem := rfl
@[simp] theorem setWarp_tlb (s : State) (w : Warp) : (setWarp s w).tlb = s.tlb := rfl
@[simp] theorem setWarp_tcache (s : State) (w : Warp) : (setWarp s w).tcache = s.tcache := rfl
@[simp] theorem setWarp_walks (s : State) (w : Warp) : (setWarp s w).walks = s.walks := rfl
@[simp] theorem setWarp_refused (s : State) (w : Warp) : (setWarp s w).refused = s.refused := rfl
@[simp] theorem setWarp_faults (s : State) (w : Warp) : (setWarp s w).faults = s.faults := rfl
@[simp] theorem setWarp_heldFaults (s : State) (w : Warp) : (setWarp s w).heldFaults = s.heldFaults := rfl
@[simp] theorem setWarp_pages (s : State) (w : Warp) : (setWarp s w).pages = s.pages := rfl
@[simp] theorem setWarp_casts (s : State) (w : Warp) : (setWarp s w).casts = s.casts := rfl
@[simp] theorem setWarp_piste (s : State) (w : Warp) : (setWarp s w).piste = s.piste := rfl
@[simp] theorem setWarp_queues (s : State) (w : Warp) : (setWarp s w).queues = s.queues := rfl
@[simp] theorem setWarp_graphs (s : State) (w : Warp) : (setWarp s w).graphs = s.graphs := rfl
@[simp] theorem setWarp_insts (s : State) (w : Warp) : (setWarp s w).insts = s.insts := rfl
@[simp] theorem setWarp_launches (s : State) (w : Warp) : (setWarp s w).launches = s.launches := rfl
@[simp] theorem setWarp_hostOps (s : State) (w : Warp) : (setWarp s w).hostOps = s.hostOps := rfl
@[simp] theorem setWarp_agenda (s : State) (w : Warp) : (setWarp s w).agenda = s.agenda := rfl
@[simp] theorem setWarp_issue (s : State) (w : Warp) : (setWarp s w).issue = s.issue := rfl
@[simp] theorem setWarp_turn (s : State) (w : Warp) : (setWarp s w).turn = s.turn := rfl
@[simp] theorem setWarp_tick (s : State) (w : Warp) : (setWarp s w).tick = s.tick := rfl
@[simp] theorem setWarp_slotNow (s : State) (w : Warp) : (setWarp s w).slotNow = s.slotNow := rfl
@[simp] theorem setWarp_free (s : State) (w : Warp) : (setWarp s w).free = s.free := rfl
@[simp] theorem setWarp_fresh (s : State) (w : Warp) : (setWarp s w).fresh = s.fresh := rfl

/-! ## setBlock -/

@[simp] theorem setBlock_dev (s : State) (b : Block) : (setBlock s b).dev = s.dev := rfl
@[simp] theorem setBlock_ownerKey (s : State) (b : Block) : (setBlock s b).ownerKey = s.ownerKey := rfl
@[simp] theorem setBlock_successor (s : State) (b : Block) : (setBlock s b).successor = s.successor := rfl
@[simp] theorem setBlock_allow (s : State) (b : Block) : (setBlock s b).allow = s.allow := rfl
@[simp] theorem setBlock_serial (s : State) (b : Block) : (setBlock s b).serial = s.serial := rfl
@[simp] theorem setBlock_featAccept (s : State) (b : Block) : (setBlock s b).featAccept = s.featAccept := rfl
@[simp] theorem setBlock_featWritten (s : State) (b : Block) : (setBlock s b).featWritten = s.featWritten := rfl
@[simp] theorem setBlock_islands (s : State) (b : Block) : (setBlock s b).islands = s.islands := rfl
@[simp] theorem setBlock_firmware (s : State) (b : Block) : (setBlock s b).firmware = s.firmware := rfl
@[simp] theorem setBlock_spares (s : State) (b : Block) : (setBlock s b).spares = s.spares := rfl
@[simp] theorem setBlock_fenced (s : State) (b : Block) : (setBlock s b).fenced = s.fenced := rfl
@[simp] theorem setBlock_sparing (s : State) (b : Block) : (setBlock s b).sparing = s.sparing := rfl
@[simp] theorem setBlock_retired (s : State) (b : Block) : (setBlock s b).retired = s.retired := rfl
@[simp] theorem setBlock_ways (s : State) (b : Block) : (setBlock s b).ways = s.ways := rfl
@[simp] theorem setBlock_rows (s : State) (b : Block) : (setBlock s b).rows = s.rows := rfl
@[simp] theorem setBlock_powerCap (s : State) (b : Block) : (setBlock s b).powerCap = s.powerCap := rfl
@[simp] theorem setBlock_pkgNum (s : State) (b : Block) : (setBlock s b).pkgNum = s.pkgNum := rfl
@[simp] theorem setBlock_powerIn (s : State) (b : Block) : (setBlock s b).powerIn = s.powerIn := rfl
@[simp] theorem setBlock_dieTemp (s : State) (b : Block) : (setBlock s b).dieTemp = s.dieTemp := rfl
@[simp] theorem setBlock_errLog (s : State) (b : Block) : (setBlock s b).errLog = s.errLog := rfl
@[simp] theorem setBlock_errLogWr (s : State) (b : Block) : (setBlock s b).errLogWr = s.errLogWr := rfl
@[simp] theorem setBlock_evDrop (s : State) (b : Block) : (setBlock s b).evDrop = s.evDrop := rfl
@[simp] theorem setBlock_imports (s : State) (b : Block) : (setBlock s b).imports = s.imports := rfl
@[simp] theorem setBlock_ports (s : State) (b : Block) : (setBlock s b).ports = s.ports := rfl
@[simp] theorem setBlock_conns (s : State) (b : Block) : (setBlock s b).conns = s.conns := rfl
@[simp] theorem setBlock_outbox (s : State) (b : Block) : (setBlock s b).outbox = s.outbox := rfl
@[simp] theorem setBlock_sent (s : State) (b : Block) : (setBlock s b).sent = s.sent := rfl
@[simp] theorem setBlock_tb (s : State) (b : Block) : (setBlock s b).tb = s.tb := rfl
@[simp] theorem setBlock_ctxs (s : State) (b : Block) : (setBlock s b).ctxs = s.ctxs := rfl
@[simp] theorem setBlock_warps (s : State) (b : Block) : (setBlock s b).warps = s.warps := rfl
@[simp] theorem setBlock_tasks (s : State) (b : Block) : (setBlock s b).tasks = s.tasks := rfl
@[simp] theorem setBlock_views (s : State) (b : Block) : (setBlock s b).views = s.views := rfl
@[simp] theorem setBlock_deques (s : State) (b : Block) : (setBlock s b).deques = s.deques := rfl
@[simp] theorem setBlock_lastWarp (s : State) (b : Block) : (setBlock s b).lastWarp = s.lastWarp := rfl
@[simp] theorem setBlock_clocks (s : State) (b : Block) : (setBlock s b).clocks = s.clocks := rfl
@[simp] theorem setBlock_copies (s : State) (b : Block) : (setBlock s b).copies = s.copies := rfl
@[simp] theorem setBlock_bbcs (s : State) (b : Block) : (setBlock s b).bbcs = s.bbcs := rfl
@[simp] theorem setBlock_fused (s : State) (b : Block) : (setBlock s b).fused = s.fused := rfl
@[simp] theorem setBlock_l1 (s : State) (b : Block) : (setBlock s b).l1 = s.l1 := rfl
@[simp] theorem setBlock_epochs (s : State) (b : Block) : (setBlock s b).epochs = s.epochs := rfl
@[simp] theorem setBlock_slices (s : State) (b : Block) : (setBlock s b).slices = s.slices := rfl
@[simp] theorem setBlock_homes (s : State) (b : Block) : (setBlock s b).homes = s.homes := rfl
@[simp] theorem setBlock_lru (s : State) (b : Block) : (setBlock s b).lru = s.lru := rfl
@[simp] theorem setBlock_fwdLines (s : State) (b : Block) : (setBlock s b).fwdLines = s.fwdLines := rfl
@[simp] theorem setBlock_net (s : State) (b : Block) : (setBlock s b).net = s.net := rfl
@[simp] theorem setBlock_mem (s : State) (b : Block) : (setBlock s b).mem = s.mem := rfl
@[simp] theorem setBlock_tlb (s : State) (b : Block) : (setBlock s b).tlb = s.tlb := rfl
@[simp] theorem setBlock_tcache (s : State) (b : Block) : (setBlock s b).tcache = s.tcache := rfl
@[simp] theorem setBlock_walks (s : State) (b : Block) : (setBlock s b).walks = s.walks := rfl
@[simp] theorem setBlock_refused (s : State) (b : Block) : (setBlock s b).refused = s.refused := rfl
@[simp] theorem setBlock_faults (s : State) (b : Block) : (setBlock s b).faults = s.faults := rfl
@[simp] theorem setBlock_heldFaults (s : State) (b : Block) : (setBlock s b).heldFaults = s.heldFaults := rfl
@[simp] theorem setBlock_pages (s : State) (b : Block) : (setBlock s b).pages = s.pages := rfl
@[simp] theorem setBlock_casts (s : State) (b : Block) : (setBlock s b).casts = s.casts := rfl
@[simp] theorem setBlock_piste (s : State) (b : Block) : (setBlock s b).piste = s.piste := rfl
@[simp] theorem setBlock_queues (s : State) (b : Block) : (setBlock s b).queues = s.queues := rfl
@[simp] theorem setBlock_graphs (s : State) (b : Block) : (setBlock s b).graphs = s.graphs := rfl
@[simp] theorem setBlock_insts (s : State) (b : Block) : (setBlock s b).insts = s.insts := rfl
@[simp] theorem setBlock_launches (s : State) (b : Block) : (setBlock s b).launches = s.launches := rfl
@[simp] theorem setBlock_hostOps (s : State) (b : Block) : (setBlock s b).hostOps = s.hostOps := rfl
@[simp] theorem setBlock_agenda (s : State) (b : Block) : (setBlock s b).agenda = s.agenda := rfl
@[simp] theorem setBlock_issue (s : State) (b : Block) : (setBlock s b).issue = s.issue := rfl
@[simp] theorem setBlock_turn (s : State) (b : Block) : (setBlock s b).turn = s.turn := rfl
@[simp] theorem setBlock_tick (s : State) (b : Block) : (setBlock s b).tick = s.tick := rfl
@[simp] theorem setBlock_slotNow (s : State) (b : Block) : (setBlock s b).slotNow = s.slotNow := rfl
@[simp] theorem setBlock_free (s : State) (b : Block) : (setBlock s b).free = s.free := rfl
@[simp] theorem setBlock_fresh (s : State) (b : Block) : (setBlock s b).fresh = s.fresh := rfl

/-! ## setConn -/

@[simp] theorem setConn_dev (s : State) (k : Conn) : (setConn s k).dev = s.dev := rfl
@[simp] theorem setConn_ownerKey (s : State) (k : Conn) : (setConn s k).ownerKey = s.ownerKey := rfl
@[simp] theorem setConn_successor (s : State) (k : Conn) : (setConn s k).successor = s.successor := rfl
@[simp] theorem setConn_allow (s : State) (k : Conn) : (setConn s k).allow = s.allow := rfl
@[simp] theorem setConn_serial (s : State) (k : Conn) : (setConn s k).serial = s.serial := rfl
@[simp] theorem setConn_featAccept (s : State) (k : Conn) : (setConn s k).featAccept = s.featAccept := rfl
@[simp] theorem setConn_featWritten (s : State) (k : Conn) : (setConn s k).featWritten = s.featWritten := rfl
@[simp] theorem setConn_islands (s : State) (k : Conn) : (setConn s k).islands = s.islands := rfl
@[simp] theorem setConn_firmware (s : State) (k : Conn) : (setConn s k).firmware = s.firmware := rfl
@[simp] theorem setConn_spares (s : State) (k : Conn) : (setConn s k).spares = s.spares := rfl
@[simp] theorem setConn_fenced (s : State) (k : Conn) : (setConn s k).fenced = s.fenced := rfl
@[simp] theorem setConn_sparing (s : State) (k : Conn) : (setConn s k).sparing = s.sparing := rfl
@[simp] theorem setConn_retired (s : State) (k : Conn) : (setConn s k).retired = s.retired := rfl
@[simp] theorem setConn_ways (s : State) (k : Conn) : (setConn s k).ways = s.ways := rfl
@[simp] theorem setConn_rows (s : State) (k : Conn) : (setConn s k).rows = s.rows := rfl
@[simp] theorem setConn_powerCap (s : State) (k : Conn) : (setConn s k).powerCap = s.powerCap := rfl
@[simp] theorem setConn_pkgNum (s : State) (k : Conn) : (setConn s k).pkgNum = s.pkgNum := rfl
@[simp] theorem setConn_powerIn (s : State) (k : Conn) : (setConn s k).powerIn = s.powerIn := rfl
@[simp] theorem setConn_dieTemp (s : State) (k : Conn) : (setConn s k).dieTemp = s.dieTemp := rfl
@[simp] theorem setConn_errLog (s : State) (k : Conn) : (setConn s k).errLog = s.errLog := rfl
@[simp] theorem setConn_errLogWr (s : State) (k : Conn) : (setConn s k).errLogWr = s.errLogWr := rfl
@[simp] theorem setConn_evDrop (s : State) (k : Conn) : (setConn s k).evDrop = s.evDrop := rfl
@[simp] theorem setConn_imports (s : State) (k : Conn) : (setConn s k).imports = s.imports := rfl
@[simp] theorem setConn_ports (s : State) (k : Conn) : (setConn s k).ports = s.ports := rfl
@[simp] theorem setConn_outbox (s : State) (k : Conn) : (setConn s k).outbox = s.outbox := rfl
@[simp] theorem setConn_sent (s : State) (k : Conn) : (setConn s k).sent = s.sent := rfl
@[simp] theorem setConn_tb (s : State) (k : Conn) : (setConn s k).tb = s.tb := rfl
@[simp] theorem setConn_ctxs (s : State) (k : Conn) : (setConn s k).ctxs = s.ctxs := rfl
@[simp] theorem setConn_warps (s : State) (k : Conn) : (setConn s k).warps = s.warps := rfl
@[simp] theorem setConn_blocks (s : State) (k : Conn) : (setConn s k).blocks = s.blocks := rfl
@[simp] theorem setConn_tasks (s : State) (k : Conn) : (setConn s k).tasks = s.tasks := rfl
@[simp] theorem setConn_views (s : State) (k : Conn) : (setConn s k).views = s.views := rfl
@[simp] theorem setConn_deques (s : State) (k : Conn) : (setConn s k).deques = s.deques := rfl
@[simp] theorem setConn_lastWarp (s : State) (k : Conn) : (setConn s k).lastWarp = s.lastWarp := rfl
@[simp] theorem setConn_clocks (s : State) (k : Conn) : (setConn s k).clocks = s.clocks := rfl
@[simp] theorem setConn_copies (s : State) (k : Conn) : (setConn s k).copies = s.copies := rfl
@[simp] theorem setConn_bbcs (s : State) (k : Conn) : (setConn s k).bbcs = s.bbcs := rfl
@[simp] theorem setConn_fused (s : State) (k : Conn) : (setConn s k).fused = s.fused := rfl
@[simp] theorem setConn_l1 (s : State) (k : Conn) : (setConn s k).l1 = s.l1 := rfl
@[simp] theorem setConn_epochs (s : State) (k : Conn) : (setConn s k).epochs = s.epochs := rfl
@[simp] theorem setConn_slices (s : State) (k : Conn) : (setConn s k).slices = s.slices := rfl
@[simp] theorem setConn_homes (s : State) (k : Conn) : (setConn s k).homes = s.homes := rfl
@[simp] theorem setConn_lru (s : State) (k : Conn) : (setConn s k).lru = s.lru := rfl
@[simp] theorem setConn_fwdLines (s : State) (k : Conn) : (setConn s k).fwdLines = s.fwdLines := rfl
@[simp] theorem setConn_net (s : State) (k : Conn) : (setConn s k).net = s.net := rfl
@[simp] theorem setConn_mem (s : State) (k : Conn) : (setConn s k).mem = s.mem := rfl
@[simp] theorem setConn_tlb (s : State) (k : Conn) : (setConn s k).tlb = s.tlb := rfl
@[simp] theorem setConn_tcache (s : State) (k : Conn) : (setConn s k).tcache = s.tcache := rfl
@[simp] theorem setConn_walks (s : State) (k : Conn) : (setConn s k).walks = s.walks := rfl
@[simp] theorem setConn_refused (s : State) (k : Conn) : (setConn s k).refused = s.refused := rfl
@[simp] theorem setConn_faults (s : State) (k : Conn) : (setConn s k).faults = s.faults := rfl
@[simp] theorem setConn_heldFaults (s : State) (k : Conn) : (setConn s k).heldFaults = s.heldFaults := rfl
@[simp] theorem setConn_pages (s : State) (k : Conn) : (setConn s k).pages = s.pages := rfl
@[simp] theorem setConn_casts (s : State) (k : Conn) : (setConn s k).casts = s.casts := rfl
@[simp] theorem setConn_piste (s : State) (k : Conn) : (setConn s k).piste = s.piste := rfl
@[simp] theorem setConn_queues (s : State) (k : Conn) : (setConn s k).queues = s.queues := rfl
@[simp] theorem setConn_graphs (s : State) (k : Conn) : (setConn s k).graphs = s.graphs := rfl
@[simp] theorem setConn_insts (s : State) (k : Conn) : (setConn s k).insts = s.insts := rfl
@[simp] theorem setConn_launches (s : State) (k : Conn) : (setConn s k).launches = s.launches := rfl
@[simp] theorem setConn_hostOps (s : State) (k : Conn) : (setConn s k).hostOps = s.hostOps := rfl
@[simp] theorem setConn_agenda (s : State) (k : Conn) : (setConn s k).agenda = s.agenda := rfl
@[simp] theorem setConn_issue (s : State) (k : Conn) : (setConn s k).issue = s.issue := rfl
@[simp] theorem setConn_turn (s : State) (k : Conn) : (setConn s k).turn = s.turn := rfl
@[simp] theorem setConn_tick (s : State) (k : Conn) : (setConn s k).tick = s.tick := rfl
@[simp] theorem setConn_slotNow (s : State) (k : Conn) : (setConn s k).slotNow = s.slotNow := rfl
@[simp] theorem setConn_free (s : State) (k : Conn) : (setConn s k).free = s.free := rfl
@[simp] theorem setConn_fresh (s : State) (k : Conn) : (setConn s k).fresh = s.fresh := rfl

/-! ## wake -/

@[simp] theorem wake_dev (s : State) : (wake s).dev = s.dev := rfl
@[simp] theorem wake_ownerKey (s : State) : (wake s).ownerKey = s.ownerKey := rfl
@[simp] theorem wake_successor (s : State) : (wake s).successor = s.successor := rfl
@[simp] theorem wake_allow (s : State) : (wake s).allow = s.allow := rfl
@[simp] theorem wake_serial (s : State) : (wake s).serial = s.serial := rfl
@[simp] theorem wake_featAccept (s : State) : (wake s).featAccept = s.featAccept := rfl
@[simp] theorem wake_featWritten (s : State) : (wake s).featWritten = s.featWritten := rfl
@[simp] theorem wake_islands (s : State) : (wake s).islands = s.islands := rfl
@[simp] theorem wake_firmware (s : State) : (wake s).firmware = s.firmware := rfl
@[simp] theorem wake_spares (s : State) : (wake s).spares = s.spares := rfl
@[simp] theorem wake_fenced (s : State) : (wake s).fenced = s.fenced := rfl
@[simp] theorem wake_sparing (s : State) : (wake s).sparing = s.sparing := rfl
@[simp] theorem wake_retired (s : State) : (wake s).retired = s.retired := rfl
@[simp] theorem wake_ways (s : State) : (wake s).ways = s.ways := rfl
@[simp] theorem wake_rows (s : State) : (wake s).rows = s.rows := rfl
@[simp] theorem wake_powerCap (s : State) : (wake s).powerCap = s.powerCap := rfl
@[simp] theorem wake_pkgNum (s : State) : (wake s).pkgNum = s.pkgNum := rfl
@[simp] theorem wake_powerIn (s : State) : (wake s).powerIn = s.powerIn := rfl
@[simp] theorem wake_dieTemp (s : State) : (wake s).dieTemp = s.dieTemp := rfl
@[simp] theorem wake_errLog (s : State) : (wake s).errLog = s.errLog := rfl
@[simp] theorem wake_errLogWr (s : State) : (wake s).errLogWr = s.errLogWr := rfl
@[simp] theorem wake_evDrop (s : State) : (wake s).evDrop = s.evDrop := rfl
@[simp] theorem wake_imports (s : State) : (wake s).imports = s.imports := rfl
@[simp] theorem wake_ports (s : State) : (wake s).ports = s.ports := rfl
@[simp] theorem wake_conns (s : State) : (wake s).conns = s.conns := rfl
@[simp] theorem wake_outbox (s : State) : (wake s).outbox = s.outbox := rfl
@[simp] theorem wake_sent (s : State) : (wake s).sent = s.sent := rfl
@[simp] theorem wake_tb (s : State) : (wake s).tb = s.tb := rfl
@[simp] theorem wake_ctxs (s : State) : (wake s).ctxs = s.ctxs := rfl
@[simp] theorem wake_blocks (s : State) : (wake s).blocks = s.blocks := rfl
@[simp] theorem wake_tasks (s : State) : (wake s).tasks = s.tasks := rfl
@[simp] theorem wake_views (s : State) : (wake s).views = s.views := rfl
@[simp] theorem wake_deques (s : State) : (wake s).deques = s.deques := rfl
@[simp] theorem wake_lastWarp (s : State) : (wake s).lastWarp = s.lastWarp := rfl
@[simp] theorem wake_clocks (s : State) : (wake s).clocks = s.clocks := rfl
@[simp] theorem wake_copies (s : State) : (wake s).copies = s.copies := rfl
@[simp] theorem wake_bbcs (s : State) : (wake s).bbcs = s.bbcs := rfl
@[simp] theorem wake_fused (s : State) : (wake s).fused = s.fused := rfl
@[simp] theorem wake_l1 (s : State) : (wake s).l1 = s.l1 := rfl
@[simp] theorem wake_epochs (s : State) : (wake s).epochs = s.epochs := rfl
@[simp] theorem wake_slices (s : State) : (wake s).slices = s.slices := rfl
@[simp] theorem wake_homes (s : State) : (wake s).homes = s.homes := rfl
@[simp] theorem wake_lru (s : State) : (wake s).lru = s.lru := rfl
@[simp] theorem wake_fwdLines (s : State) : (wake s).fwdLines = s.fwdLines := rfl
@[simp] theorem wake_net (s : State) : (wake s).net = s.net := rfl
@[simp] theorem wake_mem (s : State) : (wake s).mem = s.mem := rfl
@[simp] theorem wake_tlb (s : State) : (wake s).tlb = s.tlb := rfl
@[simp] theorem wake_tcache (s : State) : (wake s).tcache = s.tcache := rfl
@[simp] theorem wake_walks (s : State) : (wake s).walks = s.walks := rfl
@[simp] theorem wake_refused (s : State) : (wake s).refused = s.refused := rfl
@[simp] theorem wake_faults (s : State) : (wake s).faults = s.faults := rfl
@[simp] theorem wake_heldFaults (s : State) : (wake s).heldFaults = s.heldFaults := rfl
@[simp] theorem wake_pages (s : State) : (wake s).pages = s.pages := rfl
@[simp] theorem wake_casts (s : State) : (wake s).casts = s.casts := rfl
@[simp] theorem wake_piste (s : State) : (wake s).piste = s.piste := rfl
@[simp] theorem wake_queues (s : State) : (wake s).queues = s.queues := rfl
@[simp] theorem wake_graphs (s : State) : (wake s).graphs = s.graphs := rfl
@[simp] theorem wake_insts (s : State) : (wake s).insts = s.insts := rfl
@[simp] theorem wake_launches (s : State) : (wake s).launches = s.launches := rfl
@[simp] theorem wake_hostOps (s : State) : (wake s).hostOps = s.hostOps := rfl
@[simp] theorem wake_agenda (s : State) : (wake s).agenda = s.agenda := rfl
@[simp] theorem wake_issue (s : State) : (wake s).issue = s.issue := rfl
@[simp] theorem wake_turn (s : State) : (wake s).turn = s.turn := rfl
@[simp] theorem wake_tick (s : State) : (wake s).tick = s.tick := rfl
@[simp] theorem wake_slotNow (s : State) : (wake s).slotNow = s.slotNow := rfl
@[simp] theorem wake_free (s : State) : (wake s).free = s.free := rfl
@[simp] theorem wake_fresh (s : State) : (wake s).fresh = s.fresh := rfl

/-! ## noteIssue -/

@[simp] theorem noteIssue_dev (s : State) (w : Warp) : (noteIssue s w).dev = s.dev := rfl
@[simp] theorem noteIssue_ownerKey (s : State) (w : Warp) : (noteIssue s w).ownerKey = s.ownerKey := rfl
@[simp] theorem noteIssue_successor (s : State) (w : Warp) : (noteIssue s w).successor = s.successor := rfl
@[simp] theorem noteIssue_allow (s : State) (w : Warp) : (noteIssue s w).allow = s.allow := rfl
@[simp] theorem noteIssue_serial (s : State) (w : Warp) : (noteIssue s w).serial = s.serial := rfl
@[simp] theorem noteIssue_featAccept (s : State) (w : Warp) : (noteIssue s w).featAccept = s.featAccept := rfl
@[simp] theorem noteIssue_featWritten (s : State) (w : Warp) : (noteIssue s w).featWritten = s.featWritten := rfl
@[simp] theorem noteIssue_islands (s : State) (w : Warp) : (noteIssue s w).islands = s.islands := rfl
@[simp] theorem noteIssue_firmware (s : State) (w : Warp) : (noteIssue s w).firmware = s.firmware := rfl
@[simp] theorem noteIssue_spares (s : State) (w : Warp) : (noteIssue s w).spares = s.spares := rfl
@[simp] theorem noteIssue_fenced (s : State) (w : Warp) : (noteIssue s w).fenced = s.fenced := rfl
@[simp] theorem noteIssue_sparing (s : State) (w : Warp) : (noteIssue s w).sparing = s.sparing := rfl
@[simp] theorem noteIssue_retired (s : State) (w : Warp) : (noteIssue s w).retired = s.retired := rfl
@[simp] theorem noteIssue_ways (s : State) (w : Warp) : (noteIssue s w).ways = s.ways := rfl
@[simp] theorem noteIssue_rows (s : State) (w : Warp) : (noteIssue s w).rows = s.rows := rfl
@[simp] theorem noteIssue_powerCap (s : State) (w : Warp) : (noteIssue s w).powerCap = s.powerCap := rfl
@[simp] theorem noteIssue_pkgNum (s : State) (w : Warp) : (noteIssue s w).pkgNum = s.pkgNum := rfl
@[simp] theorem noteIssue_powerIn (s : State) (w : Warp) : (noteIssue s w).powerIn = s.powerIn := rfl
@[simp] theorem noteIssue_dieTemp (s : State) (w : Warp) : (noteIssue s w).dieTemp = s.dieTemp := rfl
@[simp] theorem noteIssue_errLog (s : State) (w : Warp) : (noteIssue s w).errLog = s.errLog := rfl
@[simp] theorem noteIssue_errLogWr (s : State) (w : Warp) : (noteIssue s w).errLogWr = s.errLogWr := rfl
@[simp] theorem noteIssue_evDrop (s : State) (w : Warp) : (noteIssue s w).evDrop = s.evDrop := rfl
@[simp] theorem noteIssue_imports (s : State) (w : Warp) : (noteIssue s w).imports = s.imports := rfl
@[simp] theorem noteIssue_ports (s : State) (w : Warp) : (noteIssue s w).ports = s.ports := rfl
@[simp] theorem noteIssue_conns (s : State) (w : Warp) : (noteIssue s w).conns = s.conns := rfl
@[simp] theorem noteIssue_outbox (s : State) (w : Warp) : (noteIssue s w).outbox = s.outbox := rfl
@[simp] theorem noteIssue_sent (s : State) (w : Warp) : (noteIssue s w).sent = s.sent := rfl
@[simp] theorem noteIssue_tb (s : State) (w : Warp) : (noteIssue s w).tb = s.tb := rfl
@[simp] theorem noteIssue_ctxs (s : State) (w : Warp) : (noteIssue s w).ctxs = s.ctxs := rfl
@[simp] theorem noteIssue_blocks (s : State) (w : Warp) : (noteIssue s w).blocks = s.blocks := rfl
@[simp] theorem noteIssue_tasks (s : State) (w : Warp) : (noteIssue s w).tasks = s.tasks := rfl
@[simp] theorem noteIssue_views (s : State) (w : Warp) : (noteIssue s w).views = s.views := rfl
@[simp] theorem noteIssue_deques (s : State) (w : Warp) : (noteIssue s w).deques = s.deques := rfl
@[simp] theorem noteIssue_copies (s : State) (w : Warp) : (noteIssue s w).copies = s.copies := rfl
@[simp] theorem noteIssue_bbcs (s : State) (w : Warp) : (noteIssue s w).bbcs = s.bbcs := rfl
@[simp] theorem noteIssue_fused (s : State) (w : Warp) : (noteIssue s w).fused = s.fused := rfl
@[simp] theorem noteIssue_l1 (s : State) (w : Warp) : (noteIssue s w).l1 = s.l1 := rfl
@[simp] theorem noteIssue_epochs (s : State) (w : Warp) : (noteIssue s w).epochs = s.epochs := rfl
@[simp] theorem noteIssue_slices (s : State) (w : Warp) : (noteIssue s w).slices = s.slices := rfl
@[simp] theorem noteIssue_homes (s : State) (w : Warp) : (noteIssue s w).homes = s.homes := rfl
@[simp] theorem noteIssue_lru (s : State) (w : Warp) : (noteIssue s w).lru = s.lru := rfl
@[simp] theorem noteIssue_fwdLines (s : State) (w : Warp) : (noteIssue s w).fwdLines = s.fwdLines := rfl
@[simp] theorem noteIssue_net (s : State) (w : Warp) : (noteIssue s w).net = s.net := rfl
@[simp] theorem noteIssue_mem (s : State) (w : Warp) : (noteIssue s w).mem = s.mem := rfl
@[simp] theorem noteIssue_tlb (s : State) (w : Warp) : (noteIssue s w).tlb = s.tlb := rfl
@[simp] theorem noteIssue_tcache (s : State) (w : Warp) : (noteIssue s w).tcache = s.tcache := rfl
@[simp] theorem noteIssue_walks (s : State) (w : Warp) : (noteIssue s w).walks = s.walks := rfl
@[simp] theorem noteIssue_refused (s : State) (w : Warp) : (noteIssue s w).refused = s.refused := rfl
@[simp] theorem noteIssue_faults (s : State) (w : Warp) : (noteIssue s w).faults = s.faults := rfl
@[simp] theorem noteIssue_heldFaults (s : State) (w : Warp) : (noteIssue s w).heldFaults = s.heldFaults := rfl
@[simp] theorem noteIssue_pages (s : State) (w : Warp) : (noteIssue s w).pages = s.pages := rfl
@[simp] theorem noteIssue_casts (s : State) (w : Warp) : (noteIssue s w).casts = s.casts := rfl
@[simp] theorem noteIssue_piste (s : State) (w : Warp) : (noteIssue s w).piste = s.piste := rfl
@[simp] theorem noteIssue_queues (s : State) (w : Warp) : (noteIssue s w).queues = s.queues := rfl
@[simp] theorem noteIssue_graphs (s : State) (w : Warp) : (noteIssue s w).graphs = s.graphs := rfl
@[simp] theorem noteIssue_insts (s : State) (w : Warp) : (noteIssue s w).insts = s.insts := rfl
@[simp] theorem noteIssue_launches (s : State) (w : Warp) : (noteIssue s w).launches = s.launches := rfl
@[simp] theorem noteIssue_hostOps (s : State) (w : Warp) : (noteIssue s w).hostOps = s.hostOps := rfl
@[simp] theorem noteIssue_agenda (s : State) (w : Warp) : (noteIssue s w).agenda = s.agenda := rfl
@[simp] theorem noteIssue_issue (s : State) (w : Warp) : (noteIssue s w).issue = s.issue := rfl
@[simp] theorem noteIssue_turn (s : State) (w : Warp) : (noteIssue s w).turn = s.turn := rfl
@[simp] theorem noteIssue_tick (s : State) (w : Warp) : (noteIssue s w).tick = s.tick := rfl
@[simp] theorem noteIssue_slotNow (s : State) (w : Warp) : (noteIssue s w).slotNow = s.slotNow := rfl
@[simp] theorem noteIssue_free (s : State) (w : Warp) : (noteIssue s w).free = s.free := rfl
@[simp] theorem noteIssue_fresh (s : State) (w : Warp) : (noteIssue s w).fresh = s.fresh := rfl

/-! ## netSend -/

@[simp] theorem netSend_dev (s : State) (o : Nat) (k : NetKind) : (netSend s o k).dev = s.dev := rfl
@[simp] theorem netSend_ownerKey (s : State) (o : Nat) (k : NetKind) : (netSend s o k).ownerKey = s.ownerKey := rfl
@[simp] theorem netSend_successor (s : State) (o : Nat) (k : NetKind) : (netSend s o k).successor = s.successor := rfl
@[simp] theorem netSend_allow (s : State) (o : Nat) (k : NetKind) : (netSend s o k).allow = s.allow := rfl
@[simp] theorem netSend_serial (s : State) (o : Nat) (k : NetKind) : (netSend s o k).serial = s.serial := rfl
@[simp] theorem netSend_featAccept (s : State) (o : Nat) (k : NetKind) : (netSend s o k).featAccept = s.featAccept := rfl
@[simp] theorem netSend_featWritten (s : State) (o : Nat) (k : NetKind) : (netSend s o k).featWritten = s.featWritten := rfl
@[simp] theorem netSend_islands (s : State) (o : Nat) (k : NetKind) : (netSend s o k).islands = s.islands := rfl
@[simp] theorem netSend_firmware (s : State) (o : Nat) (k : NetKind) : (netSend s o k).firmware = s.firmware := rfl
@[simp] theorem netSend_spares (s : State) (o : Nat) (k : NetKind) : (netSend s o k).spares = s.spares := rfl
@[simp] theorem netSend_fenced (s : State) (o : Nat) (k : NetKind) : (netSend s o k).fenced = s.fenced := rfl
@[simp] theorem netSend_sparing (s : State) (o : Nat) (k : NetKind) : (netSend s o k).sparing = s.sparing := rfl
@[simp] theorem netSend_retired (s : State) (o : Nat) (k : NetKind) : (netSend s o k).retired = s.retired := rfl
@[simp] theorem netSend_ways (s : State) (o : Nat) (k : NetKind) : (netSend s o k).ways = s.ways := rfl
@[simp] theorem netSend_rows (s : State) (o : Nat) (k : NetKind) : (netSend s o k).rows = s.rows := rfl
@[simp] theorem netSend_powerCap (s : State) (o : Nat) (k : NetKind) : (netSend s o k).powerCap = s.powerCap := rfl
@[simp] theorem netSend_pkgNum (s : State) (o : Nat) (k : NetKind) : (netSend s o k).pkgNum = s.pkgNum := rfl
@[simp] theorem netSend_powerIn (s : State) (o : Nat) (k : NetKind) : (netSend s o k).powerIn = s.powerIn := rfl
@[simp] theorem netSend_dieTemp (s : State) (o : Nat) (k : NetKind) : (netSend s o k).dieTemp = s.dieTemp := rfl
@[simp] theorem netSend_errLog (s : State) (o : Nat) (k : NetKind) : (netSend s o k).errLog = s.errLog := rfl
@[simp] theorem netSend_errLogWr (s : State) (o : Nat) (k : NetKind) : (netSend s o k).errLogWr = s.errLogWr := rfl
@[simp] theorem netSend_evDrop (s : State) (o : Nat) (k : NetKind) : (netSend s o k).evDrop = s.evDrop := rfl
@[simp] theorem netSend_imports (s : State) (o : Nat) (k : NetKind) : (netSend s o k).imports = s.imports := rfl
@[simp] theorem netSend_ports (s : State) (o : Nat) (k : NetKind) : (netSend s o k).ports = s.ports := rfl
@[simp] theorem netSend_conns (s : State) (o : Nat) (k : NetKind) : (netSend s o k).conns = s.conns := rfl
@[simp] theorem netSend_outbox (s : State) (o : Nat) (k : NetKind) : (netSend s o k).outbox = s.outbox := rfl
@[simp] theorem netSend_sent (s : State) (o : Nat) (k : NetKind) : (netSend s o k).sent = s.sent := rfl
@[simp] theorem netSend_tb (s : State) (o : Nat) (k : NetKind) : (netSend s o k).tb = s.tb := rfl
@[simp] theorem netSend_ctxs (s : State) (o : Nat) (k : NetKind) : (netSend s o k).ctxs = s.ctxs := rfl
@[simp] theorem netSend_warps (s : State) (o : Nat) (k : NetKind) : (netSend s o k).warps = s.warps := rfl
@[simp] theorem netSend_blocks (s : State) (o : Nat) (k : NetKind) : (netSend s o k).blocks = s.blocks := rfl
@[simp] theorem netSend_tasks (s : State) (o : Nat) (k : NetKind) : (netSend s o k).tasks = s.tasks := rfl
@[simp] theorem netSend_views (s : State) (o : Nat) (k : NetKind) : (netSend s o k).views = s.views := rfl
@[simp] theorem netSend_deques (s : State) (o : Nat) (k : NetKind) : (netSend s o k).deques = s.deques := rfl
@[simp] theorem netSend_lastWarp (s : State) (o : Nat) (k : NetKind) : (netSend s o k).lastWarp = s.lastWarp := rfl
@[simp] theorem netSend_clocks (s : State) (o : Nat) (k : NetKind) : (netSend s o k).clocks = s.clocks := rfl
@[simp] theorem netSend_copies (s : State) (o : Nat) (k : NetKind) : (netSend s o k).copies = s.copies := rfl
@[simp] theorem netSend_bbcs (s : State) (o : Nat) (k : NetKind) : (netSend s o k).bbcs = s.bbcs := rfl
@[simp] theorem netSend_fused (s : State) (o : Nat) (k : NetKind) : (netSend s o k).fused = s.fused := rfl
@[simp] theorem netSend_l1 (s : State) (o : Nat) (k : NetKind) : (netSend s o k).l1 = s.l1 := rfl
@[simp] theorem netSend_epochs (s : State) (o : Nat) (k : NetKind) : (netSend s o k).epochs = s.epochs := rfl
@[simp] theorem netSend_slices (s : State) (o : Nat) (k : NetKind) : (netSend s o k).slices = s.slices := rfl
@[simp] theorem netSend_homes (s : State) (o : Nat) (k : NetKind) : (netSend s o k).homes = s.homes := rfl
@[simp] theorem netSend_lru (s : State) (o : Nat) (k : NetKind) : (netSend s o k).lru = s.lru := rfl
@[simp] theorem netSend_fwdLines (s : State) (o : Nat) (k : NetKind) : (netSend s o k).fwdLines = s.fwdLines := rfl
@[simp] theorem netSend_mem (s : State) (o : Nat) (k : NetKind) : (netSend s o k).mem = s.mem := rfl
@[simp] theorem netSend_tlb (s : State) (o : Nat) (k : NetKind) : (netSend s o k).tlb = s.tlb := rfl
@[simp] theorem netSend_tcache (s : State) (o : Nat) (k : NetKind) : (netSend s o k).tcache = s.tcache := rfl
@[simp] theorem netSend_walks (s : State) (o : Nat) (k : NetKind) : (netSend s o k).walks = s.walks := rfl
@[simp] theorem netSend_refused (s : State) (o : Nat) (k : NetKind) : (netSend s o k).refused = s.refused := rfl
@[simp] theorem netSend_faults (s : State) (o : Nat) (k : NetKind) : (netSend s o k).faults = s.faults := rfl
@[simp] theorem netSend_heldFaults (s : State) (o : Nat) (k : NetKind) : (netSend s o k).heldFaults = s.heldFaults := rfl
@[simp] theorem netSend_pages (s : State) (o : Nat) (k : NetKind) : (netSend s o k).pages = s.pages := rfl
@[simp] theorem netSend_casts (s : State) (o : Nat) (k : NetKind) : (netSend s o k).casts = s.casts := rfl
@[simp] theorem netSend_piste (s : State) (o : Nat) (k : NetKind) : (netSend s o k).piste = s.piste := rfl
@[simp] theorem netSend_queues (s : State) (o : Nat) (k : NetKind) : (netSend s o k).queues = s.queues := rfl
@[simp] theorem netSend_graphs (s : State) (o : Nat) (k : NetKind) : (netSend s o k).graphs = s.graphs := rfl
@[simp] theorem netSend_insts (s : State) (o : Nat) (k : NetKind) : (netSend s o k).insts = s.insts := rfl
@[simp] theorem netSend_launches (s : State) (o : Nat) (k : NetKind) : (netSend s o k).launches = s.launches := rfl
@[simp] theorem netSend_hostOps (s : State) (o : Nat) (k : NetKind) : (netSend s o k).hostOps = s.hostOps := rfl
@[simp] theorem netSend_agenda (s : State) (o : Nat) (k : NetKind) : (netSend s o k).agenda = s.agenda := rfl
@[simp] theorem netSend_issue (s : State) (o : Nat) (k : NetKind) : (netSend s o k).issue = s.issue := rfl
@[simp] theorem netSend_turn (s : State) (o : Nat) (k : NetKind) : (netSend s o k).turn = s.turn := rfl
@[simp] theorem netSend_tick (s : State) (o : Nat) (k : NetKind) : (netSend s o k).tick = s.tick := rfl
@[simp] theorem netSend_slotNow (s : State) (o : Nat) (k : NetKind) : (netSend s o k).slotNow = s.slotNow := rfl
@[simp] theorem netSend_free (s : State) (o : Nat) (k : NetKind) : (netSend s o k).free = s.free := rfl

/-! ## netDrop -/

@[simp] theorem netDrop_dev (s : State) (n : Nat) : (netDrop s n).dev = s.dev := rfl
@[simp] theorem netDrop_ownerKey (s : State) (n : Nat) : (netDrop s n).ownerKey = s.ownerKey := rfl
@[simp] theorem netDrop_successor (s : State) (n : Nat) : (netDrop s n).successor = s.successor := rfl
@[simp] theorem netDrop_allow (s : State) (n : Nat) : (netDrop s n).allow = s.allow := rfl
@[simp] theorem netDrop_serial (s : State) (n : Nat) : (netDrop s n).serial = s.serial := rfl
@[simp] theorem netDrop_featAccept (s : State) (n : Nat) : (netDrop s n).featAccept = s.featAccept := rfl
@[simp] theorem netDrop_featWritten (s : State) (n : Nat) : (netDrop s n).featWritten = s.featWritten := rfl
@[simp] theorem netDrop_islands (s : State) (n : Nat) : (netDrop s n).islands = s.islands := rfl
@[simp] theorem netDrop_firmware (s : State) (n : Nat) : (netDrop s n).firmware = s.firmware := rfl
@[simp] theorem netDrop_spares (s : State) (n : Nat) : (netDrop s n).spares = s.spares := rfl
@[simp] theorem netDrop_fenced (s : State) (n : Nat) : (netDrop s n).fenced = s.fenced := rfl
@[simp] theorem netDrop_sparing (s : State) (n : Nat) : (netDrop s n).sparing = s.sparing := rfl
@[simp] theorem netDrop_retired (s : State) (n : Nat) : (netDrop s n).retired = s.retired := rfl
@[simp] theorem netDrop_ways (s : State) (n : Nat) : (netDrop s n).ways = s.ways := rfl
@[simp] theorem netDrop_rows (s : State) (n : Nat) : (netDrop s n).rows = s.rows := rfl
@[simp] theorem netDrop_powerCap (s : State) (n : Nat) : (netDrop s n).powerCap = s.powerCap := rfl
@[simp] theorem netDrop_pkgNum (s : State) (n : Nat) : (netDrop s n).pkgNum = s.pkgNum := rfl
@[simp] theorem netDrop_powerIn (s : State) (n : Nat) : (netDrop s n).powerIn = s.powerIn := rfl
@[simp] theorem netDrop_dieTemp (s : State) (n : Nat) : (netDrop s n).dieTemp = s.dieTemp := rfl
@[simp] theorem netDrop_errLog (s : State) (n : Nat) : (netDrop s n).errLog = s.errLog := rfl
@[simp] theorem netDrop_errLogWr (s : State) (n : Nat) : (netDrop s n).errLogWr = s.errLogWr := rfl
@[simp] theorem netDrop_evDrop (s : State) (n : Nat) : (netDrop s n).evDrop = s.evDrop := rfl
@[simp] theorem netDrop_imports (s : State) (n : Nat) : (netDrop s n).imports = s.imports := rfl
@[simp] theorem netDrop_ports (s : State) (n : Nat) : (netDrop s n).ports = s.ports := rfl
@[simp] theorem netDrop_conns (s : State) (n : Nat) : (netDrop s n).conns = s.conns := rfl
@[simp] theorem netDrop_outbox (s : State) (n : Nat) : (netDrop s n).outbox = s.outbox := rfl
@[simp] theorem netDrop_sent (s : State) (n : Nat) : (netDrop s n).sent = s.sent := rfl
@[simp] theorem netDrop_tb (s : State) (n : Nat) : (netDrop s n).tb = s.tb := rfl
@[simp] theorem netDrop_ctxs (s : State) (n : Nat) : (netDrop s n).ctxs = s.ctxs := rfl
@[simp] theorem netDrop_warps (s : State) (n : Nat) : (netDrop s n).warps = s.warps := rfl
@[simp] theorem netDrop_blocks (s : State) (n : Nat) : (netDrop s n).blocks = s.blocks := rfl
@[simp] theorem netDrop_tasks (s : State) (n : Nat) : (netDrop s n).tasks = s.tasks := rfl
@[simp] theorem netDrop_views (s : State) (n : Nat) : (netDrop s n).views = s.views := rfl
@[simp] theorem netDrop_deques (s : State) (n : Nat) : (netDrop s n).deques = s.deques := rfl
@[simp] theorem netDrop_lastWarp (s : State) (n : Nat) : (netDrop s n).lastWarp = s.lastWarp := rfl
@[simp] theorem netDrop_clocks (s : State) (n : Nat) : (netDrop s n).clocks = s.clocks := rfl
@[simp] theorem netDrop_copies (s : State) (n : Nat) : (netDrop s n).copies = s.copies := rfl
@[simp] theorem netDrop_bbcs (s : State) (n : Nat) : (netDrop s n).bbcs = s.bbcs := rfl
@[simp] theorem netDrop_fused (s : State) (n : Nat) : (netDrop s n).fused = s.fused := rfl
@[simp] theorem netDrop_l1 (s : State) (n : Nat) : (netDrop s n).l1 = s.l1 := rfl
@[simp] theorem netDrop_epochs (s : State) (n : Nat) : (netDrop s n).epochs = s.epochs := rfl
@[simp] theorem netDrop_slices (s : State) (n : Nat) : (netDrop s n).slices = s.slices := rfl
@[simp] theorem netDrop_homes (s : State) (n : Nat) : (netDrop s n).homes = s.homes := rfl
@[simp] theorem netDrop_lru (s : State) (n : Nat) : (netDrop s n).lru = s.lru := rfl
@[simp] theorem netDrop_fwdLines (s : State) (n : Nat) : (netDrop s n).fwdLines = s.fwdLines := rfl
@[simp] theorem netDrop_mem (s : State) (n : Nat) : (netDrop s n).mem = s.mem := rfl
@[simp] theorem netDrop_tlb (s : State) (n : Nat) : (netDrop s n).tlb = s.tlb := rfl
@[simp] theorem netDrop_tcache (s : State) (n : Nat) : (netDrop s n).tcache = s.tcache := rfl
@[simp] theorem netDrop_walks (s : State) (n : Nat) : (netDrop s n).walks = s.walks := rfl
@[simp] theorem netDrop_refused (s : State) (n : Nat) : (netDrop s n).refused = s.refused := rfl
@[simp] theorem netDrop_faults (s : State) (n : Nat) : (netDrop s n).faults = s.faults := rfl
@[simp] theorem netDrop_heldFaults (s : State) (n : Nat) : (netDrop s n).heldFaults = s.heldFaults := rfl
@[simp] theorem netDrop_pages (s : State) (n : Nat) : (netDrop s n).pages = s.pages := rfl
@[simp] theorem netDrop_casts (s : State) (n : Nat) : (netDrop s n).casts = s.casts := rfl
@[simp] theorem netDrop_piste (s : State) (n : Nat) : (netDrop s n).piste = s.piste := rfl
@[simp] theorem netDrop_queues (s : State) (n : Nat) : (netDrop s n).queues = s.queues := rfl
@[simp] theorem netDrop_graphs (s : State) (n : Nat) : (netDrop s n).graphs = s.graphs := rfl
@[simp] theorem netDrop_insts (s : State) (n : Nat) : (netDrop s n).insts = s.insts := rfl
@[simp] theorem netDrop_launches (s : State) (n : Nat) : (netDrop s n).launches = s.launches := rfl
@[simp] theorem netDrop_hostOps (s : State) (n : Nat) : (netDrop s n).hostOps = s.hostOps := rfl
@[simp] theorem netDrop_agenda (s : State) (n : Nat) : (netDrop s n).agenda = s.agenda := rfl
@[simp] theorem netDrop_issue (s : State) (n : Nat) : (netDrop s n).issue = s.issue := rfl
@[simp] theorem netDrop_turn (s : State) (n : Nat) : (netDrop s n).turn = s.turn := rfl
@[simp] theorem netDrop_tick (s : State) (n : Nat) : (netDrop s n).tick = s.tick := rfl
@[simp] theorem netDrop_slotNow (s : State) (n : Nat) : (netDrop s n).slotNow = s.slotNow := rfl
@[simp] theorem netDrop_free (s : State) (n : Nat) : (netDrop s n).free = s.free := rfl
@[simp] theorem netDrop_fresh (s : State) (n : Nat) : (netDrop s n).fresh = s.fresh := rfl

end Sys2Proof.Machine
end

