-- ==== Sys2Proof/Laws/Warps.lean ====
section
/-! SUPPORT. Finding warps, contexts and blocks after an update; what an issue's completion leaves in its warp (R113, R138 to
R142, R153, R154) and elsewhere. -/

namespace Sys2Proof.Machine

theorem find_map_key {α : Type} (p : α → Bool) (f : α → α) (xs : List α) (h : ∀ x, p (f x) = p x) :
    (xs.map f).find? p = (xs.find? p).map f := by
  induction xs with
  | nil => rfl
  | cons x xs ih =>
    simp only [List.map_cons, List.find?_cons, h]
    cases p x <;> simp [ih]

/-! ## Contexts -/

theorem ctxOf_setCtx (s : State) (c d : Nat) (x : Ctx) : ctxOf (setCtx s c x) d = if d = c then x else ctxOf s d := by
  simp [ctxOf, setCtx, getAt_setAt]

@[simp] theorem ctxOf_setCtx_same (s : State) (c : Nat) (x : Ctx) : ctxOf (setCtx s c x) c = x := by simp [ctxOf_setCtx]

@[simp] theorem ctxOf_setWarp (s : State) (w : Warp) (c : Nat) : ctxOf (setWarp s w) c = ctxOf s c := rfl
@[simp] theorem ctxOf_wake (s : State) (c : Nat) : ctxOf (wake s) c = ctxOf s c := rfl
@[simp] theorem ctxOf_noteIssue (s : State) (w : Warp) (c : Nat) : ctxOf (noteIssue s w) c = ctxOf s c := rfl
@[simp] theorem ctxOf_setBlock (s : State) (b : Block) (c : Nat) : ctxOf (setBlock s b) c = ctxOf s c := rfl

/-! ## Warps -/

theorem warpFind_key {s : State} {c n : Nat} {w : Warp} (h : warpFind s c n = some w) : w.ctx = c ∧ w.num = n := by
  have := List.find?_some h
  simpa using this

theorem warpFind_setWarp (s : State) (w : Warp) (h : (warpFind s w.ctx w.num).isSome) :
    warpFind (setWarp s w) w.ctx w.num = some w := by
  unfold warpFind setWarp at *
  simp only
  induction hs : s.warps with
  | nil => simp [hs] at h
  | cons x xs ih =>
    rw [hs] at h
    clear hs
    by_cases hx : x.ctx = w.ctx ∧ x.num = w.num
    · simp [hx]
    · have hb : (x.ctx == w.ctx && x.num == w.num) = false := by
        by_cases h1 : x.ctx = w.ctx <;> by_cases h2 : x.num = w.num <;> simp_all
      simp only [List.map_cons, hx, if_false, List.find?_cons, hb] at h ⊢
      clear ih
      induction xs with
      | nil => simp at h
      | cons y ys ih2 =>
        by_cases hy : y.ctx = w.ctx ∧ y.num = w.num
        · simp [hy]
        · have hyb : (y.ctx == w.ctx && y.num == w.num) = false := by
            by_cases h1 : y.ctx = w.ctx <;> by_cases h2 : y.num = w.num <;> simp_all
          simp only [List.map_cons, hy, if_false, List.find?_cons, hyb] at h ⊢
          exact ih2 h

theorem warpFind_setWarp_other (s : State) (w : Warp) {c n : Nat} (h : ¬ (c = w.ctx ∧ n = w.num)) :
    warpFind (setWarp s w) c n = warpFind s c n := by
  unfold warpFind setWarp
  simp only
  induction s.warps with
  | nil => rfl
  | cons x xs ih =>
    by_cases hx : x.ctx = w.ctx ∧ x.num = w.num
    · have h1 : (w.ctx == c && w.num == n) = false := by
        by_cases a : w.ctx = c <;> by_cases b : w.num = n <;> simp_all
      have h2 : (x.ctx == c && x.num == n) = false := by rw [hx.1, hx.2]; exact h1
      simp only [List.map_cons, hx, and_self, if_true, List.find?_cons, h1]
      rw [ih]
    · simp only [List.map_cons, hx, if_false, List.find?_cons]
      split
      · rfl
      · exact ih

theorem warpFind_wake (s : State) (c n : Nat) :
    warpFind (wake s) c n = (warpFind s c n).map (fun w => { w with holds := w.holds.filter (fun h => !(h == .retry)) }) := by
  unfold warpFind wake
  exact find_map_key (fun w : Warp => w.ctx == c && w.num == n) _ s.warps (fun _ => rfl)

theorem warpFind_noteIssue (s : State) (v : Warp) (c n : Nat) :
    warpFind (noteIssue s v) c n = (warpFind s c n).map (fun x =>
      if issueSlot x = issueSlot v ∧ !(x.ctx == v.ctx && x.num == v.num) then { x with yielded := false } else x) := by
  unfold warpFind noteIssue
  refine find_map_key (fun w : Warp => w.ctx == c && w.num == n) _ s.warps (fun x => ?_)
  split <;> rfl

@[simp] theorem warpFind_setCtx (s : State) (d : Nat) (x : Ctx) (c n : Nat) : warpFind (setCtx s d x) c n = warpFind s c n := rfl
@[simp] theorem warpFind_setBlock (s : State) (b : Block) (c n : Nat) : warpFind (setBlock s b) c n = warpFind s c n := rfl

/-! ## A device message -/

theorem devSend_frame (s : State) (op : BitVec 8) (bs : List Byte) :
    (devSend s op bs).warps = s.warps ∧ (devSend s op bs).mem = s.mem ∧ (devSend s op bs).slices = s.slices ∧
    (devSend s op bs).l1 = s.l1 ∧ (devSend s op bs).net = s.net ∧ (devSend s op bs).ctxs = s.ctxs ∧
    (devSend s op bs).blocks = s.blocks ∧ (devSend s op bs).tasks = s.tasks ∧ (devSend s op bs).copies = s.copies ∧
    (devSend s op bs).issue = s.issue ∧ (devSend s op bs).views = s.views := by
  unfold devSend
  split
  · simp
  · split <;> simp

end Sys2Proof.Machine
end

