-- ==== Sys2Proof/Laws/DevMem.lean ====
section
/-! SUPPORT. What the device's own accesses to memory leave alone: all of the machine but the slices, the L1s, the network, the
translations, the page states and the collapses under way; and what making a group's registers ready keeps. -/

namespace Sys2Proof.Machine

/-- t differs from s at most in the slices, the L1s, the network and its numbers, the translations held, the page states and the
collapses. -/
def OnlyMem (s t : State) : Prop :=
  t = { s with slices := t.slices, l1 := t.l1, net := t.net, fresh := t.fresh, tlb := t.tlb, tcache := t.tcache, pages := t.pages,
                casts := t.casts }

theorem OnlyMem.refl (s : State) : OnlyMem s s := rfl

theorem OnlyMem.trans {s t u : State} (h : OnlyMem s t) (g : OnlyMem t u) : OnlyMem s u := by
  unfold OnlyMem at *
  rw [g, h]

theorem slicePut_onlyMem (s : State) (e : SliceWord) : OnlyMem s (slicePut s e) := rfl

theorem netSend_onlyMem (s : State) (o : Nat) (k : NetKind) : OnlyMem s (netSend s o k) := rfl

theorem netSends_onlyMem {α : Type} (f : α → Nat) (g : α → NetKind) (xs : List α) (s : State) :
    OnlyMem s (xs.foldl (fun s x => netSend s (f x) (g x)) s) := by
  induction xs generalizing s with
  | nil => exact OnlyMem.refl s
  | cons x xs ih => exact (netSend_onlyMem s _ _).trans (ih _)

theorem answerForwards_onlyMem (s : State) (o wa : Nat) (v : Word) : OnlyMem s (answerForwards s o wa v) := by
  unfold answerForwards
  simp only
  split
  · exact rfl
  · exact OnlyMem.refl s

/-- Answering what waits for a word sends messages and changes messages, nothing else. -/
theorem answerGiven_onlyMem (s : State) (o wa : Nat) (v : Word) : OnlyMem s (answerGiven s o wa v) := by
  unfold answerGiven
  simp only
  exact (answerForwards_onlyMem s o wa v).trans (netSends_onlyMem (fun _ => o) _ _ _)

theorem flushWord_onlyMem (s : State) (wa : Nat) : OnlyMem s (flushWord s wa) := by
  unfold flushWord
  simp only
  split
  · exact OnlyMem.refl s
  · have h : OnlyMem s (if (sliceGet s wa).ans.isSome = true then s
        else answerGiven s (sliceGet s wa).owner wa (heldWord s (sliceGet s wa))) := by
      split
      · exact OnlyMem.refl s
      · exact answerGiven_onlyMem _ _ _ _
    exact h.trans rfl

theorem cohStore_onlyMem (s : State) (wa : Nat) (m : BitVec 4) (v : Word) : OnlyMem s (cohStore s wa m v) := by
  unfold cohStore
  split
  · exact rfl
  · exact (flushWord_onlyMem s wa).trans rfl

theorem cohPutByte_onlyMem (s : State) (pa : Nat) (b : Byte) : OnlyMem s (cohPutByte s pa b) := cohStore_onlyMem _ _ _ _

theorem cohPutBytes_onlyMem (bs : List Byte) (s : State) (pa : Nat) : OnlyMem s (cohPutBytes s pa bs) := by
  induction bs generalizing s pa with
  | nil => exact OnlyMem.refl s
  | cons b bs ih => exact (cohPutByte_onlyMem s pa b).trans (ih _ _)

theorem collapseNow_onlyMem (s : State) (c va pte : Nat) (e : BitVec 64) : OnlyMem s (collapseNow s c va pte e) := by
  unfold collapseNow
  have d : OnlyMem s (dropReplicas s (fun _ => true) (leafPa e (leafBase e va)) (2 ^ leafLog e)) := rfl
  have h := d.trans (cohPutBytes_onlyMem (natLe 8 (e &&& ~~~ (1#64 <<< 61)).toNat) _ pte)
  exact h.trans rfl

/-- The state of a device write, done or cut short by a fault. -/
def devState : Except (Cause × State) State → State
  | .ok s => s
  | .error e => e.2

theorem devWriteFrom_onlyMem (bs : List Byte) (s : State) (c va : Nat) (known : Option Nat) :
    OnlyMem s (devState (devWriteFrom s c va known bs)) := by
  induction bs generalizing s va known with
  | nil => exact OnlyMem.refl s
  | cons b bs ih =>
    unfold devWriteFrom
    split
    · exact (cohPutByte_onlyMem _ _ _).trans (ih _ _ _)
    · split
      · exact OnlyMem.refl s
      · exact (cohPutByte_onlyMem _ _ _).trans (ih _ _ _)
      · exact ((collapseNow_onlyMem _ _ _ _ _).trans (cohPutByte_onlyMem _ _ _)).trans (ih _ _ _)

theorem devWrite_onlyMem {s t : State} {c va : Nat} {bs : List Byte} (h : devWrite s c va bs = .ok t) : OnlyMem s t := by
  have := devWriteFrom_onlyMem bs s c va none
  unfold devWrite at h
  rw [h] at this
  exact this

theorem ownDrop_onlyMem (s : State) (w : Warp) (va len : Nat) : OnlyMem s (ownDrop s w va len) := rfl

theorem spillOne_onlyMem {s t : State} {w v : Warp} {n : Nat} (h : spillOne s w n = .ok (t, v)) :
    OnlyMem s t ∧ v = { w with regs := v.regs } := by
  unfold spillOne at h
  split at h
  · cases h
  · rename_i _ _ hd
    cases h
    exact ⟨(devWrite_onlyMem hd).trans (ownDrop_onlyMem _ _ _ _), rfl⟩

theorem spillList_onlyMem (ns : List Nat) {s t : State} {w v : Warp} (h : spillList s w ns = .ok (t, v)) :
    OnlyMem s t ∧ v = { w with regs := v.regs } := by
  induction ns generalizing s w with
  | nil => cases h; exact ⟨OnlyMem.refl _, rfl⟩
  | cons n ns ih =>
    unfold spillList at h
    split at h
    · cases h
    · rename_i _ _ _ hd
      obtain ⟨h1, h2⟩ := spillOne_onlyMem hd
      obtain ⟨h3, h4⟩ := ih h
      exact ⟨h1.trans h3, by rw [h4, h2]⟩

theorem map_ok {ε α β : Type} {x : Except ε α} {f : α → β} {b : β} (h : x.map f = .ok b) : ∃ a, x = .ok a ∧ f a = b := by
  cases x with
  | error e => cases h
  | ok a => cases h; exact ⟨a, rfl, rfl⟩

theorem ownDrop_then {s t : State} {w : Warp} (a n : Nat) (u : State) (hu : ownDrop u w a n = t) (h : OnlyMem s u) : OnlyMem s t := by
  subst hu
  exact h.trans (ownDrop_onlyMem u w _ _)

theorem writeMap_eq (s : State) (w : Warp) (b : Bool) :
    writeMap s w b = (devWrite s w.ctx (7168 + backAddr s w)
      (natLe 8 (spilledMap w.regs) ++ (if b then List.replicate 1016 0 else []))).map
        (fun s => ownDrop s w (7168 + backAddr s w) 1024) := by
  unfold writeMap; rfl

theorem writeMap_parts {s t : State} {w : Warp} {b : Bool} (h : writeMap s w b = .ok t) :
    ∃ u bs n, devWrite s w.ctx n bs = .ok u ∧ ownDrop u w (7168 + backAddr u w) 1024 = t := by
  rw [writeMap_eq] at h
  generalize natLe 8 (spilledMap w.regs) ++ (if b then List.replicate 1016 0 else []) = bs at h
  obtain ⟨u, hd, hu⟩ := map_ok h
  exact ⟨u, bs, _, hd, hu⟩

theorem writeMap_onlyMem {s t : State} {w : Warp} {b : Bool} (h : writeMap s w b = .ok t) : OnlyMem s t := by
  obtain ⟨u, bs, n, hd, hu⟩ := writeMap_parts h
  have g := devWrite_onlyMem hd
  exact ownDrop_then _ _ u hu g

theorem spillRegs_onlyMem {s t : State} {w v : Warp} {ns : List Nat} {b : Bool} (h : spillRegs s w ns b = .ok (t, v)) :
    OnlyMem s t ∧ v = { w with regs := v.regs } := by
  unfold spillRegs at h
  split at h
  · cases h
  · rename_i _ _ _ hl
    obtain ⟨h1, h2⟩ := spillList_onlyMem ns hl
    split at h
    · cases h
    · rename_i _ _ hm
      cases h
      exact ⟨h1.trans (writeMap_onlyMem hm), h2⟩

/-- What a grant of the pool keeps, the warp asking apart: the machine but memory's caches, the registers of a victim and a count of
spills. -/
def Kept (s t : State) : Prop :=
  t.issue = s.issue ∧ t.blocks = s.blocks ∧ t.tasks = s.tasks ∧ t.copies = s.copies ∧ t.views = s.views ∧ t.mem = s.mem ∧
  t.free = s.free ∧ ∀ c n, (warpFind s c n).isSome → (warpFind t c n).isSome

theorem Kept.refl (s : State) : Kept s s := ⟨rfl, rfl, rfl, rfl, rfl, rfl, rfl, fun _ _ h => h⟩

theorem Kept.trans {s t u : State} (h : Kept s t) (g : Kept t u) : Kept s u := by
  obtain ⟨a1, a2, a3, a4, a5, a6, a7, a8⟩ := h
  obtain ⟨b1, b2, b3, b4, b5, b6, b7, b8⟩ := g
  exact ⟨b1.trans a1, b2.trans a2, b3.trans a3, b4.trans a4, b5.trans a5, b6.trans a6, b7.trans a7,
    fun c n x => b8 c n (a8 c n x)⟩

theorem OnlyMem.kept {s t : State} (h : OnlyMem s t) : Kept s t := by
  unfold OnlyMem at h
  rw [h]
  exact ⟨rfl, rfl, rfl, rfl, rfl, rfl, rfl, fun _ _ x => x⟩

theorem setCtx_kept (s : State) (c : Nat) (x : Ctx) : Kept s (setCtx s c x) :=
  ⟨rfl, rfl, rfl, rfl, rfl, rfl, rfl, fun _ _ h => h⟩

theorem setWarp_found (s : State) (w : Warp) {c n : Nat} (h : (warpFind s c n).isSome) : (warpFind (setWarp s w) c n).isSome := by
  by_cases hk : c = w.ctx ∧ n = w.num
  · obtain ⟨rfl, rfl⟩ := hk
    rw [warpFind_setWarp s w h]; rfl
  · rw [warpFind_setWarp_other s w hk]; exact h

theorem setWarp_kept (s : State) (w : Warp) : Kept s (setWarp s w) :=
  ⟨rfl, rfl, rfl, rfl, rfl, rfl, rfl, fun _ _ h => setWarp_found s w h⟩

theorem spillVictim_kept {s t : State} {w v : Warp} (h : spillVictim s w = .ok (t, v)) : Kept s t := by
  unfold spillVictim at h
  split at h
  · cases h
  · rename_i _ _ _ hs
    cases h
    exact (spillRegs_onlyMem hs).1.kept.trans (setCtx_kept _ _ _)

theorem poolGrant_kept {s t : State} {w v : Warp} {b : Bool} (h : poolGrant s w b = .ok t v) :
    Kept s t ∧ v = { w with regs := v.regs } := by
  unfold poolGrant at h
  split at h
  · cases h; exact ⟨Kept.refl s, rfl⟩
  · split at h
    · cases h; exact ⟨Kept.refl s, rfl⟩
    · split at h
      · split at h
        · cases h
        · cases h; exact ⟨Kept.refl s, rfl⟩
      · split at h
        · cases h; exact ⟨Kept.refl s, rfl⟩
        · split at h
          · cases h
          · split at h
            · split at h
              · cases h
              · split at h <;> cases h
            · split at h
              · cases h
              · split at h
                · cases h
                · rename_i _ _ _ hs
                  cases h
                  exact ⟨(spillVictim_kept hs).trans (setWarp_kept _ _), rfl⟩

theorem refillOne_regs {s : State} {w v : Warp} {n : Nat} (h : refillOne s w n = .ok v) : v = { w with regs := v.regs } := by
  unfold refillOne at h
  split at h
  · cases h
  · cases h; rfl

theorem refillFor_parts {s t : State} {w v : Warp} {b : Bool} {n : Nat} (h : refillFor s w b n = .ok t v) :
    ∃ s1 w1, poolGrant s w b = .ok s1 w1 ∧ refillOne s1 w1 n = .ok v ∧ writeMap s1 v false = .ok t := by
  unfold refillFor at h
  generalize poolGrant s w b = g at h ⊢
  cases g with
  | held s w => cases h
  | failed k s => cases h
  | ok s1 w1 =>
    simp only at h
    generalize hr : refillOne s1 w1 n = r at h
    cases r with
    | error k => cases h
    | ok w2 =>
      simp only at h
      generalize hm : writeMap s1 w2 false = m at h
      cases m with
      | error e => cases h
      | ok s2 => cases h; exact ⟨s1, w1, rfl, hr, hm⟩

theorem refillFor_kept {s t : State} {w v : Warp} {b : Bool} {n : Nat} (h : refillFor s w b n = .ok t v) :
    Kept s t ∧ v = { w with regs := v.regs } := by
  obtain ⟨s1, w1, hg, hr, hm⟩ := refillFor_parts h
  obtain ⟨h1, h2⟩ := poolGrant_kept hg
  have h3 := refillOne_regs hr
  have h4 := (writeMap_onlyMem hm).kept
  refine ⟨h1.trans h4, ?_⟩
  rw [h3, h2]

/-- Making a group's registers ready changes of its warp only the registers, and of the machine only what `Kept` leaves open. -/
theorem readyRegs_kept (ns : List Nat) {s t : State} {w v : Warp} {b : Bool} {d : Option Nat} (h : readyRegs s w b d ns = .ok t v) :
    Kept s t ∧ v = { w with regs := v.regs } := by
  induction ns generalizing s w with
  | nil =>
    unfold readyRegs at h
    split at h
    · cases h; exact ⟨Kept.refl _, rfl⟩
    · split at h
      · exact poolGrant_kept h
      · cases h; exact ⟨Kept.refl _, rfl⟩
  | cons n ns ih =>
    unfold readyRegs at h
    split at h
    · split at h
      · rename_i _ _ _ hg
        obtain ⟨h1, h2⟩ := refillFor_kept hg
        obtain ⟨h4, h5⟩ := ih h
        exact ⟨h1.trans h4, by rw [h5, h2]⟩
      · cases h
      · cases h
    · exact ih h

theorem operandsReady_kept {s t : State} {base : Code} {x : Iss} {v : Warp} (h : operandsReady s base x = .ok t v) :
    Kept s t ∧ v = { x.w with regs := v.regs } := readyRegs_kept _ h

end Sys2Proof.Machine
end

