-- ==== Sys2Proof/Laws/Issue.lean ====
section
/-! SUPPORT. What an issue's completion leaves: the warp (R113, R138 to R142, R153, R154), and the rest of the machine. -/

namespace Sys2Proof.Machine

theorem warpFind_of_warps {s t : State} (h : s.warps = t.warps) (c n : Nat) : warpFind s c n = warpFind t c n := by
  simp [warpFind, h]

theorem warpFind_haltGranule (s : State) (w : Warp) (scope c n : Nat) :
    warpFind (haltGranule s w scope) c n = (warpFind s c n).map (fun x =>
      if inGranule scope w x ∧ x.halted.isNone then { x with halted := some 0, yielded := false, starve := 0 } else x) := by
  unfold warpFind haltGranule
  refine find_map_key (fun x : Warp => x.ctx == c && x.num == n) _ s.warps (fun x => ?_)
  split <;> rfl

theorem haltScope_frame (s : State) (w : Warp) (scope : Nat) :
    ∃ x, haltScope s w scope = setCtx s w.ctx x ∨ haltScope s w scope = s := by
  unfold haltScope
  simp only
  split
  · exact ⟨_, .inl rfl⟩
  · split
    · exact ⟨_, .inl rfl⟩
    · exact ⟨{}, .inr rfl⟩

theorem haltScope_warps (s : State) (w : Warp) (scope : Nat) : (haltScope s w scope).warps = s.warps := by
  obtain ⟨x, h | h⟩ := haltScope_frame s w scope <;> rw [h] <;> rfl

/-- A debug halt changes, of a warp, only what says that it is halted. -/
theorem debugHalt_warp (s : State) (w : Warp) (t : TrapInfo) (pc : BitVec 32) (h : (warpFind s w.ctx w.num).isSome) :
    warpFind (debugHalt s w t pc) w.ctx w.num = some (haltedBy w t) := by
  have hv : warpFind (setWarp s (haltedBy w t)) w.ctx w.num = some (haltedBy w t) := warpFind_setWarp s (haltedBy w t) h
  unfold debugHalt
  simp only
  rw [warpFind_of_warps (devSend_frame _ _ _).1, warpFind_of_warps (haltScope_warps _ _ _), warpFind_haltGranule, hv]
  simp [haltedBy]

theorem debugHalt_frame (s : State) (w : Warp) (t : TrapInfo) (pc : BitVec 32) :
    (debugHalt s w t pc).mem = s.mem ∧ (debugHalt s w t pc).slices = s.slices ∧ (debugHalt s w t pc).l1 = s.l1 ∧
    (debugHalt s w t pc).net = s.net ∧ (debugHalt s w t pc).blocks = s.blocks ∧ (debugHalt s w t pc).tasks = s.tasks ∧
    (debugHalt s w t pc).copies = s.copies ∧ (debugHalt s w t pc).views = s.views ∧ (debugHalt s w t pc).issue = s.issue := by
  unfold debugHalt
  simp only
  generalize hg : haltGranule (setWarp s (haltedBy w t)) w (field ((ctxOf s w.ctx).dbgctl.setWidth 64) 7 6) = g
  obtain ⟨_, h2, h3, h4, h5, _, h7, h8, h9, h10, h11⟩ :=
    devSend_frame (haltScope g w (field ((ctxOf s w.ctx).dbgctl.setWidth 64) 7 6)) 0x40 (debugEvent s w t pc)
  rw [h2, h3, h4, h5, h7, h8, h9, h10, h11]
  obtain ⟨x, h | h⟩ := haltScope_frame g w (field ((ctxOf s w.ctx).dbgctl.setWidth 64) 7 6) <;> rw [h, ← hg] <;>
    exact ⟨rfl, rfl, rfl, rfl, rfl, rfl, rfl, rfl, rfl⟩

/-- Two warps that agree but in what a halt, a wake or a passing over may change. -/
def SameButHold (a b : Warp) : Prop :=
  a = { b with holds := a.holds, halted := a.halted, haltInfo := a.haltInfo, stepSet := a.stepSet, yielded := a.yielded
               starve := a.starve, chain := a.chain }

/-- The machine as an issue's completion leaves it before a debugger's step. -/
theorem retire_eq (base : Code) (i : Iss) (o : Out) :
    ∃ s2 : State, s2.warps = o.s.warps ∧
      (s2.mem = o.s.mem ∧ s2.slices = o.s.slices ∧ s2.l1 = o.s.l1 ∧ s2.net = o.s.net ∧ s2.blocks = o.s.blocks ∧
        s2.tasks = o.s.tasks ∧ s2.copies = o.s.copies ∧ s2.views = o.s.views ∧ s2.issue = none) ∧
      let wa := warpAfter base i o o.s.fresh
      retire base i o = (match wa.stepSet with
        | some _ => debugHalt (wake (noteIssue (setWarp s2 wa) wa)) { wa with chain := wa.chain.map (fun c => { c with closed := true }) }
            { cause := .step, spl := i.split } (getAt 0 wa.pc ((lanesOf i.split).head?.getD 0))
        | none => wake (noteIssue (setWarp s2 wa) wa)) := by
  refine ⟨_, ?_, ?_, rfl⟩
  · rfl
  · exact ⟨rfl, rfl, rfl, rfl, rfl, rfl, rfl, rfl, rfl⟩

/-- The warp after an issue's completion is `warpAfter`, but for what a wake or a debugger's step changes. -/
theorem retire_warp (base : Code) (i : Iss) (o : Out) (h : (warpFind o.s o.w.ctx o.w.num).isSome) :
    ∃ w', warpFind (retire base i o) o.w.ctx o.w.num = some w' ∧ SameButHold w' (warpAfter base i o o.s.fresh) := by
  obtain ⟨s2, hw, -, he⟩ := retire_eq base i o
  have hk : (warpAfter base i o o.s.fresh).ctx = o.w.ctx ∧ (warpAfter base i o o.s.fresh).num = o.w.num := ⟨rfl, rfl⟩
  generalize warpAfter base i o o.s.fresh = wa at he hk ⊢
  simp only at he
  rw [he, ← hk.1, ← hk.2]
  have h2 : (warpFind s2 wa.ctx wa.num).isSome := by rw [warpFind_of_warps hw, hk.1, hk.2]; exact h
  have hf : warpFind (wake (noteIssue (setWarp s2 wa) wa)) wa.ctx wa.num =
      some { wa with holds := wa.holds.filter (fun h => !(h == .retry)) } := by
    rw [warpFind_wake, warpFind_noteIssue, warpFind_setWarp _ _ h2]
    simp
  split
  · refine ⟨_, debugHalt_warp _ _ _ _ (by simp only; rw [hf]; rfl), rfl⟩
  · exact ⟨_, hf, rfl⟩

/-- What the warp is held for after an issue's completion: all that the instruction left but the holds for the next step. -/
theorem retire_holds (base : Code) (i : Iss) (o : Out) (h : (warpFind o.s o.w.ctx o.w.num).isSome) {w' : Warp}
    (hf : warpFind (retire base i o) o.w.ctx o.w.num = some w') (k : Hold) (hk : k ≠ .retry) : k ∈ w'.holds ↔ k ∈ o.w.holds := by
  obtain ⟨s2, hw, -, he⟩ := retire_eq base i o
  have hc : (warpAfter base i o o.s.fresh).ctx = o.w.ctx ∧ (warpAfter base i o o.s.fresh).num = o.w.num ∧
      (warpAfter base i o o.s.fresh).holds = o.w.holds := ⟨rfl, rfl, rfl⟩
  generalize warpAfter base i o o.s.fresh = wa at he hc
  simp only at he
  rw [he, ← hc.1, ← hc.2.1] at hf
  rw [← hc.2.2]
  have h2 : (warpFind s2 wa.ctx wa.num).isSome := by rw [warpFind_of_warps hw, hc.1, hc.2.1]; exact h
  have hv : warpFind (wake (noteIssue (setWarp s2 wa) wa)) wa.ctx wa.num =
      some { wa with holds := wa.holds.filter (fun h => !(h == .retry)) } := by
    rw [warpFind_wake, warpFind_noteIssue, warpFind_setWarp _ _ h2]
    simp
  cases hst : wa.stepSet with
  | none =>
    simp only [hst] at hf
    rw [hv] at hf
    simp only [Option.some.injEq] at hf
    rw [← hf]
    simp [hk]
  | some m =>
    simp only [hst] at hf
    have e : some w' = some (haltedBy { wa with chain := wa.chain.map (fun c => { c with closed := true }) }
        { cause := .step, spl := i.split }) :=
      hf.symm.trans (debugHalt_warp (wake (noteIssue (setWarp s2 wa) wa))
        { wa with chain := wa.chain.map (fun c => { c with closed := true }) } { cause := .step, spl := i.split }
        (getAt 0 wa.pc ((lanesOf i.split).head?.getD 0)) (by simp only; rw [hv]; rfl))
    rw [Option.some.inj e]
    rfl

/-- An issue's completion leaves memory, the caches, the network and the engines as the instruction left them. -/
theorem retire_frame (base : Code) (i : Iss) (o : Out) :
    (retire base i o).mem = o.s.mem ∧ (retire base i o).slices = o.s.slices ∧ (retire base i o).l1 = o.s.l1 ∧
    (retire base i o).net = o.s.net ∧ (retire base i o).blocks = o.s.blocks ∧ (retire base i o).tasks = o.s.tasks ∧
    (retire base i o).copies = o.s.copies ∧ (retire base i o).views = o.s.views ∧ (retire base i o).issue = none := by
  obtain ⟨s2, -, hs, he⟩ := retire_eq base i o
  simp only at he
  rw [he]
  split
  · obtain ⟨h1, h2, h3, h4, h5, h6, h7, h8, h9⟩ := debugHalt_frame (wake (noteIssue (setWarp s2 (warpAfter base i o o.s.fresh))
      (warpAfter base i o o.s.fresh))) { warpAfter base i o o.s.fresh with
        chain := (warpAfter base i o o.s.fresh).chain.map (fun c => { c with closed := true }) }
      { cause := .step, spl := i.split } (getAt 0 (warpAfter base i o o.s.fresh).pc ((lanesOf i.split).head?.getD 0))
    rw [h1, h2, h3, h4, h5, h6, h7, h8, h9]
    exact hs
  · exact hs

/-- Of the other warps, an issue's completion changes only holds and yields, and a debugger's step may halt them. -/
theorem regsAfter_vector (base : Code) (i : Iss) (o : Out) (w : VWrite) (h : writesOf o = [w]) :
    (vEntry (regsAfter base i o) w.reg).st = .mapped ∧
    ∀ l, laneBit w.lanes l = true → lane (vGet (regsAfter base i o) w.reg) l = lane w.val l := by
  have key : ∃ old, vEntry (regsAfter base i o) w.reg = ⟨.mapped, blend w.lanes w.val old⟩ := by
    have hm : (memberOf base i o).wrV = [w] := h
    have hv : (regsAfter base i o).v = (if i.chained then
        applyMembers { o.w.regs with v := (chainAfter base i o).snap.v, order := (chainAfter base i o).snap.order
                                     s := (chainAfter base i o).snap.s } (chainAfter base i o).members
        else applyMember o.w.regs (memberOf base i o)).v := by
      unfold regsAfter
      simp only [foldPutM_v]
    rw [vEntry_congr hv]
    by_cases hc : i.chained = true
    · simp only [hc, if_true]
      have : ∃ ms, (chainAfter base i o).members = ms ++ [memberOf base i o] := by
        unfold chainAfter
        split
        · exact ⟨_, rfl⟩
        · exact ⟨[], rfl⟩
      obtain ⟨ms, hms⟩ := this
      rw [hms, applyMembers_snoc]
      exact ⟨_, applyMember_vWrite _ _ _ hm⟩
    · simp only [hc]
      exact ⟨_, applyMember_vWrite _ _ _ hm⟩
  obtain ⟨old, hk⟩ := key
  refine ⟨by rw [hk], fun l hl => ?_⟩
  rw [vGet, hk]
  rw [lane_blend _ _ _ (laneBit_lt hl), if_pos hl]

end Sys2Proof.Machine
end

