-- ==== Sys2Proof/Laws/Complete.lean ====
section
/-! SUPPORT. From "the instruction issues" to what its completion leaves: one lemma for every meaning that answers with an
outcome. -/

namespace Sys2Proof.Machine

theorem cohByte_congr {s t : State} (h1 : t.mem = s.mem) (h2 : t.slices = s.slices) (h3 : t.l1 = s.l1) (h4 : t.net = s.net)
    (a : Nat) : cohByte t a = cohByte s a := by
  have e1 : sliceGet t = sliceGet s := by funext k; simp only [sliceGet, h1, h2]
  have e2 : answerFor t = answerFor s := by funext o k; simp only [answerFor, h4]
  have e3 : grantFor t = grantFor s := by funext o k; simp only [grantFor, h4]
  have e4 : registrantWord t = registrantWord s := by funext o k; unfold registrantWord; rw [e2, e3, h1, h3]
  have e5 : heldWord t = heldWord s := by funext e; unfold heldWord; rw [e4]
  unfold cohByte cohWord
  rw [e1, e5]

/-! ## An issue -/

theorem issued_shape {i : Instr} {s s1 : State} {sh : Shape} {x : Iss} (h : Issued i s sh s1 x) : shapeOf i = some sh := by
  obtain ⟨_, _, _, _, _, h, _⟩ := h
  exact h

theorem syncSnap_key (v : Warp) : (syncSnap v).ctx = v.ctx ∧ (syncSnap v).num = v.num := by
  unfold syncSnap; split <;> exact ⟨rfl, rfl⟩

/-- The end of a hold for long-integer results changes the holds alone. -/
theorem endLongHold_eq (w : Warp) : endLongHold w = { w with holds := (endLongHold w).holds } := by
  unfold endLongHold
  split <;> rfl

/-- A completion flag lowered changes the flags alone. -/
theorem lowerFlag_eq (w : Warp) (f : Option Nat) : lowerFlag w f = { w with f := (lowerFlag w f).f } := by
  cases f <;> rfl

theorem landOp_key (w : Warp) (p : POp) (sv : Option DWord) : (landOp w p sv).ctx = w.ctx ∧ (landOp w p sv).num = w.num := by
  unfold landOp
  rw [endLongHold_eq, lowerFlag_eq]
  exact ⟨rfl, rfl⟩

theorem landWhere_key (f : Warp → Nat → Bool) (w : Warp) : (landWhere f w).ctx = w.ctx ∧ (landWhere f w).num = w.num := by
  unfold landWhere
  generalize w.pend = ps
  induction ps generalizing w with
  | nil => exact ⟨rfl, rfl⟩
  | cons p ps ih =>
    simp only [List.foldl_cons]
    have h : ∀ v : Warp, v.ctx = w.ctx ∧ v.num = w.num →
        (ps.foldl (fun w p => match p.ready with
          | some t => if f w t && landsNext w p then landOp w p none else w
          | none => w) v).ctx = w.ctx ∧
        (ps.foldl (fun w p => match p.ready with
          | some t => if f w t && landsNext w p then landOp w p none else w
          | none => w) v).num = w.num := fun v hv => ⟨(ih v).1.trans hv.1, (ih v).2.trans hv.2⟩
    apply h
    cases p.ready with
    | none => exact ⟨rfl, rfl⟩
    | some t =>
      simp only
      split
      · exact landOp_key _ _ _
      · exact ⟨rfl, rfl⟩

theorem atIssue_key (s : State) (p : Issue) (w : Warp) (sh : Shape) : (atIssue s p w sh).ctx = w.ctx ∧ (atIssue s p w sh).num = w.num := by
  unfold atIssue autoLand autoLandBefore
  simp only
  split <;> exact landWhere_key _ _

theorem issued_found {i : Instr} {s s1 : State} {sh : Shape} {x : Iss} (h : Issued i s sh s1 x) :
    (warpFind s1 x.w.ctx x.w.num).isSome := by
  obtain ⟨p, w, w2, -, hw, -, -, -, hr, rfl⟩ := h
  obtain ⟨hk, he⟩ := operandsReady_kept hr
  have hk1 := warpFind_key hw
  have c1 : (issOf s1 p sh (syncSnap w2)).w.ctx = w.ctx := by
    rw [show (issOf s1 p sh (syncSnap w2)).w = syncSnap w2 from rfl, (syncSnap_key w2).1, he]
    exact (atIssue_key s p w sh).1
  have c2 : (issOf s1 p sh (syncSnap w2)).w.num = w.num := by
    rw [show (issOf s1 p sh (syncSnap w2)).w = syncSnap w2 from rfl, (syncSnap_key w2).2, he]
    exact (atIssue_key s p w sh).2
  rw [c1, c2, hk1.1, hk1.2]
  exact hk.2.2.2.2.2.2.2 _ _ (by rw [hw]; rfl)

/-- When the instruction issues and its meaning has an outcome, exec answers with its completion. -/
theorem issueAs_ok {i : Instr} {s s1 : State} {sh : Shape} {x : Iss} {sem : State → Iss → Res} {o : Out}
    (h : Issued i s sh s1 x) (ho : sem s1 x = .ok o) : issueAs s i sem = .next (retire sh.code x o) := by
  obtain ⟨p, w, w2, hp, hw, hs, hc, hl, hr, rfl⟩ := h
  simp [issueAs, hp, hw, hs, runIssue, hc, hl, hr, ho]

/-- When its meaning meets a cause, exec answers with the cause raised. -/
theorem issueAs_cause {i : Instr} {s s1 : State} {sh : Shape} {x : Iss} {sem : State → Iss → Res} {k : Cause} {l : Option Nat}
    {f : DWord} {code : BitVec 8} (h : Issued i s sh s1 x) (ho : sem s1 x = .cause k l f code) :
    issueAs s i sem = .next (raiseIssue s1 x.w x.split x.act sh x.j x.chained x.pc k l f code) := by
  obtain ⟨p, w, w2, hp, hw, hs, hc, hl, hr, hx⟩ := h
  have hsp : p.split = x.split := by rw [hx]; rfl
  rw [hx] at ho
  simp only [issueAs, hp, hw, hs, runIssue, hc, hl, hr, ho, Bool.false_eq_true, if_false]
  rw [← hx, hsp]

/-- When its meaning has done everything itself, exec answers with that. -/
theorem issueAs_done {i : Instr} {s s1 t : State} {sh : Shape} {x : Iss} {sem : State → Iss → Res}
    (h : Issued i s sh s1 x) (ho : sem s1 x = .done t) : issueAs s i sem = .next t := by
  obtain ⟨p, w, w2, hp, hw, hs, hc, hl, hr, rfl⟩ := h
  simp [issueAs, hp, hw, hs, runIssue, hc, hl, hr, ho]

/-- ACTIVE is a part of the split, and a member of a chain has a chain before it. -/
theorem issued_act {i : Instr} {s s1 : State} {sh : Shape} {x : Iss} (h : Issued i s sh s1 x) :
    (∀ l, laneBit x.act l = true → laneBit x.split l = true) ∧ (x.chained = true → x.w.chain.isSome) ∧
    (∀ l, laneBit x.act l = true → laneBit (live x.w) l = true) := by
  obtain ⟨p, w, w2, -, -, -, -, -, -, rfl⟩ := h
  refine ⟨fun l hl => ?_, fun hc => ?_, fun l hl => ?_⟩
  · simp only [issOf, laneBit_and, Bool.and_eq_true] at hl ⊢
    exact hl.1.1
  · simp only [issOf, Bool.and_eq_true] at hc ⊢
    cases hk : (syncSnap w2).chain with
    | none => simp [hk] at hc
    | some ch => rfl
  · simp only [issOf, laneBit_and, Bool.and_eq_true] at hl ⊢
    exact hl.1.2

/-- The lanes written lie in the split. -/
theorem issued_written {i : Instr} {s s1 : State} {sh : Shape} {x : Iss} (h : Issued i s sh s1 x) (l : Nat)
    (hl : laneBit x.written l = true) : laneBit x.split l = true := by
  unfold Iss.written at hl
  split at hl
  · exact hl
  · exact (issued_act h).1 l hl

/-! ## The registers after an issue -/

/-- The registers to which an outcome's member applies. -/
def outBase (x : Iss) (o : Out) : Regs :=
  match x.chained, x.w.chain with
  | true, some ch => applyMembers { o.w.regs with v := ch.snap.v, order := ch.snap.order, s := ch.snap.s } ch.members
  | true, none => { o.w.regs with v := x.w.regs.v, order := x.w.regs.order, s := x.w.regs.s }
  | false, _ => o.w.regs

theorem regsAfter_eq (base : Code) (x : Iss) (o : Out) :
    regsAfter base x o =
      { (o.m.foldl (fun r q => putM r q.1 q.2.1 q.2.2) (applyMember (outBase x o) (memberOf base x o))) with
        flags := (o.m.foldl (fun r q => putM r q.1 q.2.1 q.2.2) (applyMember (outBase x o) (memberOf base x o))).flags ||| o.flags
        q := (o.m.foldl (fun r q => putM r q.1 q.2.1 q.2.2) (applyMember (outBase x o) (memberOf base x o))).q + .ofNat 32 o.srk } := by
  unfold regsAfter outBase chainAfter
  cases hc : x.chained with
  | false => simp
  | true =>
    cases hw : x.w.chain with
    | none => simp [applyMembers]
    | some ch => simp only [if_true, applyMembers_snoc]

/-- The base agrees with `basis` on the vector and scalar registers, where the outcome leaves those of the warp. -/
theorem outBase_v {x : Iss} {o : Out} (h : o.w.regs.v = x.w.regs.v) : (outBase x o).v = (basis x).v := by
  unfold outBase basis
  cases hc : x.chained <;> cases hw : x.w.chain <;> simp [h]
  exact applyMembers_v_congr _ rfl

theorem outBase_s {x : Iss} {o : Out} (h : o.w.regs.s = x.w.regs.s) : (outBase x o).s = (basis x).s := by
  unfold outBase basis
  cases hc : x.chained <;> cases hw : x.w.chain <;> simp [h]
  exact applyMembers_s_congr _ rfl

theorem outBase_rest (x : Iss) (o : Out) :
    (outBase x o).m = o.w.regs.m ∧ (outBase x o).flags = o.w.regs.flags ∧ (outBase x o).q = o.w.regs.q ∧
    (outBase x o).draw = o.w.regs.draw := by
  unfold outBase
  cases hc : x.chained <;> cases hw : x.w.chain <;> simp [applyMembers_frame]

theorem foldPutM_other (ms : List (Nat × LaneMask × LaneMask)) (r : Regs) (n : Nat) (h : ∀ q ∈ ms, q.1 ≠ n) :
    mGet (ms.foldl (fun r q => putM r q.1 q.2.1 q.2.2) r) n = mGet r n := by
  induction ms generalizing r with
  | nil => rfl
  | cons q ms ih =>
    simp only [List.foldl_cons]
    rw [ih _ (fun x hx => h x (by simp [hx])), mGet_putM]
    have : n ≠ q.1 := fun e => h q (by simp) e.symm
    simp [this]

theorem foldPutM_draw (ms : List (Nat × LaneMask × LaneMask)) (r : Regs) :
    (ms.foldl (fun r q => putM r q.1 q.2.1 q.2.2) r).draw = r.draw := by
  induction ms generalizing r with
  | nil => rfl
  | cons q ms ih => simp [ih]

/-- What an outcome must leave for its completion to be as `Leaves` says. -/
structure Tidy (x : Iss) (o : Out) (dv ds dm : List Nat) : Prop where
  ctx : o.w.ctx = x.w.ctx
  num : o.w.num = x.w.num
  found : (warpFind o.s x.w.ctx x.w.num).isSome
  regs : o.w.regs.v = x.w.regs.v ∧ o.w.regs.s = x.w.regs.s ∧ o.w.regs.m = x.w.regs.m ∧ o.w.regs.flags = x.w.regs.flags
  vec : ∀ w ∈ writesOf o, w.reg ∈ dv
  sca : ∀ p ∈ o.sc, p.1 ∈ ds
  msk : ∀ q ∈ o.m, q.1 ∈ dm
  pend : ∀ n, n ∉ dv → outstanding o.w n = outstanding x.w n
  unparked : o.park.isSome = true → ∀ base n, n ∈ releasedS base x → n ∈ ds

/-- What an outcome must leave for its completion to be as `Completes` says. -/
structure Plain (x : Iss) (s1 : State) (o : Out) (dv ds dm : List Nat) : Prop extends Tidy x o dv ds dm where
  tables : o.w.pc = x.w.pc ∧ o.w.rep = x.w.rep
  stay : o.pcs = none ∧ o.park = none
  mem : o.s.mem = s1.mem ∧ o.s.slices = s1.slices ∧ o.s.l1 = s1.l1 ∧ o.s.net = s1.net
  rest : o.s.blocks = s1.blocks ∧ o.s.tasks = s1.tasks ∧ o.s.copies = s1.copies ∧ o.s.views = s1.views

/-- A tidy outcome's completion (R135 to R142): what `Leaves` says. -/
theorem retire_leaves {x : Iss} {o : Out} {dv ds dm : List Nat} (sh : Shape) (h : Tidy x o dv ds dm) :
    ∃ w', Leaves sh x (retire sh.code x o) w' dv ds dm o.flags ∧ SameButHold w' (warpAfter sh.code x o o.s.fresh) := by
  obtain ⟨w', hf, hs⟩ := retire_warp sh.code x o (by rw [h.ctx, h.num]; exact h.found)
  rw [h.ctx, h.num] at hf
  have hr : w'.regs = regsAfter sh.code x o := by rw [hs]; rfl
  have fr := retire_frame sh.code x o
  refine ⟨w', ⟨hf, fr.2.2.2.2.2.2.2.2, fun n hn => ?_, fun n hn => ?_, fun n hn => ?_, ?_⟩, hs⟩
  · rw [hr, regsAfter_eq]
    rw [vEntry_congr (q := applyMember (outBase x o) (memberOf sh.code x o)) (by simp only [foldPutM_v])]
    rw [applyMember_vOther _ _ _ (fun w hw (e : w.reg = n) => hn (e ▸ h.vec w hw)), vEntry_congr (outBase_v h.regs.1)]
    have : (n ∈ (memberOf sh.code x o).relV) ↔ n ∈ freedV sh x := by
      have hany : (writesOf o).any (fun y => y.reg == n) = false := by
        rw [List.any_eq_false]
        intro w hw e
        exact hn ((by simpa using e : w.reg = n) ▸ h.vec w hw)
      unfold memberOf freedV
      simp only [List.mem_filter, List.contains_eq_mem, Bool.not_eq_true', decide_eq_false_iff_not, not_and, hany, h.pend n hn]
      constructor
      · rintro ⟨a, b⟩; exact ⟨a, by have := b a; simpa using this⟩
      · rintro ⟨a, b⟩; exact ⟨a, fun _ => by simpa using b⟩
    by_cases hm : n ∈ freedV sh x
    · rw [if_pos hm, if_pos (this.2 hm)]
    · rw [if_neg hm, if_neg (fun c => hm (this.1 c))]
  · rw [hr, regsAfter_eq]
    rw [sGet_congr (q := applyMember (outBase x o) (memberOf sh.code x o)) (by simp only [foldPutM_s])]
    rw [applyMember_sOther _ _ _ (fun p hp (e : p.1 = n) => hn (e ▸ h.sca p hp)), sGet_congr (outBase_s h.regs.2.1)]
    cases hp : o.park with
    | none => simp [memberOf, hp]
    | some k => rw [if_neg (fun c => hn (h.unparked (by rw [hp]; rfl) sh.code n c))]; simp [memberOf, hp]
  · rw [hr, regsAfter_eq]
    have e1 := foldPutM_other o.m (applyMember (outBase x o) (memberOf sh.code x o)) n (fun q hq (e : q.1 = n) => hn (e ▸ h.msk q hq))
    rw [mGet_congr (applyMember_frame _ _).1, mGet_congr (outBase_rest x o).1, mGet_congr h.regs.2.2.1] at e1
    exact e1
  · rw [hr, regsAfter_eq]
    simp only [foldPutM_flags, (applyMember_frame _ _).2.1, (outBase_rest x o).2.1, h.regs.2.2.2]

/-- The PC table after an outcome that neither transfers control nor parks (R92, R113). -/
theorem warpAfter_steps {x : Iss} {o : Out} {w' : Warp} {base : Code} {n : Nat} (hs : SameButHold w' (warpAfter base x o n))
    (ht : o.w.pc = x.w.pc ∧ o.w.rep = x.w.rep) (hp : o.pcs = none ∧ o.park = none) : Steps x w' := by
  have h1 : w'.pc = (nextEntries x o.w o).1 := by rw [hs]; rfl
  have h2 : w'.rep = (nextEntries x o.w o).2.2 := by rw [hs]; rfl
  refine ⟨fun l hl => ?_, fun l hl => ?_⟩
  · rw [h1]
    simp only [nextEntries, hp.1, hp.2, ht.1, ht.2]
    by_cases hlast : x.last = true
    · simp only [hlast, if_true, getAt_laneMap _ _ hl, and_true]
    · simp only [hlast, Bool.false_eq_true, and_false, if_false]
  · rw [h2]
    simp only [nextEntries, hp.1, hp.2, ht.1, ht.2]
    by_cases hlast : x.last = true
    · simp only [hlast, if_true, getAt_laneMap _ _ hl]
    · simp only [hlast, if_false, getAt_laneMap _ _ hl, Bool.false_eq_true]

/-- A plain outcome's completion (R113, R135 to R142): what `Completes` says. -/
theorem retire_completes {x : Iss} {s1 : State} {o : Out} {dv ds dm : List Nat} (sh : Shape) (h : Plain x s1 o dv ds dm) :
    ∃ w', Completes sh x s1 (retire sh.code x o) w' dv ds dm o.flags ∧ SameButHold w' (warpAfter sh.code x o o.s.fresh) := by
  obtain ⟨w', hl, hs⟩ := retire_leaves sh h.toTidy
  have fr := retire_frame sh.code x o
  refine ⟨w', ⟨hl, warpAfter_steps hs h.tables h.stay, fun a => ?_, ?_, ?_⟩, hs⟩
  · exact cohByte_congr (fr.1.trans h.mem.1) (fr.2.1.trans h.mem.2.1) (fr.2.2.1.trans h.mem.2.2.1) (fr.2.2.2.1.trans h.mem.2.2.2) a
  · exact fr.2.2.2.2.1.trans h.rest.1
  · exact ⟨fr.2.2.2.2.2.1.trans h.rest.2.1, fr.2.2.2.2.2.2.1.trans h.rest.2.2.1, fr.2.2.2.2.2.2.2.1.trans h.rest.2.2.2⟩

/-- What a plain outcome that leaves its warp's other fields alone keeps. -/
theorem keepsRest_of {x : Iss} {o : Out} {w' : Warp} {base : Code} {n : Nat} (h : SameButHold w' (warpAfter base x o n))
    (hw : o.w = { x.w with regs := o.w.regs }) (hd : o.w.regs.draw = x.w.regs.draw) (hs : o.pcs = none ∧ o.park = none) :
    KeepsRest x w' := by
  have hdep : (nextEntries x o.w o).2.1 = o.w.depth := by
    simp only [nextEntries, hs.1, hs.2]; split <;> rfl
  have hr : w'.regs = regsAfter base x o := by rw [h]; rfl
  refine ⟨?_, ?_, ?_, ?_, ?_, ?_, ?_, ?_, ?_⟩
  · rw [show w'.depth = (nextEntries x o.w o).2.1 by rw [h]; rfl, hdep, hw]
  · rw [show w'.exited = o.w.exited by rw [h]; rfl, hw]
  · rw [show w'.limbst = o.w.limbst by rw [h]; rfl, hw]
  · rw [show w'.carryx = o.w.carryx by rw [h]; rfl, hw]
  · rw [show w'.f = o.w.f by rw [h]; rfl, hw]
  · rw [show w'.tag = o.w.tag by rw [h]; rfl, hw]
  · rw [show w'.openb = o.w.openb by rw [h]; rfl, hw]
  · rw [show w'.privbase = o.w.privbase by rw [h]; rfl, show w'.stackMax = o.w.stackMax by rw [h]; rfl,
      show w'.stackLim = o.w.stackLim by rw [h]; rfl, hw]
    exact ⟨rfl, rfl, rfl⟩
  · rw [hr, regsAfter_eq]
    simp only [foldPutM_draw, (applyMember_frame _ _).2.2.2, (outBase_rest x o).2.2.2, hd]

/-- An outcome with a lane result in a vector register or, for code 60, in the latches only. -/
structure LaneOut (x : Iss) (s1 : State) (o : Out) (d : BitVec 6) (f : Nat → Word) : Prop where
  st : o.s = s1
  wp : o.w = { x.w with regs := { x.w.regs with draw := o.w.regs.draw } }
  val : (d = 60 ∧ o.v = none ∧ o.x0 = some ⟨d.toNat, x.written, x.res f⟩) ∨ (d ≠ 60 ∧ o.v = some ⟨d.toNat, x.written, x.res f⟩)
  only : o.map = none ∧ o.sc = [] ∧ o.m = []
  stay : o.pcs = none ∧ o.park = none

theorem lane_res {x : Iss} {f : Nat → Word} {l : Nat} (h : l < 32) :
    lane (x.res f) l = if laneBit x.act l = true then f l else 0 := by
  unfold Iss.res
  rw [lane_laneMap _ h]

theorem getAt_shift (x : Iss) (xs : List Lanes) (d : Lanes) {l : Nat} (h : laneBit x.split l = true) :
    lane (getAt [] (shiftLatches x xs d) 0) l = lane d l := by
  unfold shiftLatches
  split
  · simp only [getAt]
    rw [lane_blend _ _ _ (laneBit_lt h), if_pos h]
  · rfl

/-- A lane result: the completion, the destination, the latch (R139, R142, R153, R155). -/
theorem lane_completes {i : Instr} {s s1 : State} {sh : Shape} {x : Iss} {sem : State → Iss → Res} {o : Out} {d : BitVec 6}
    {f : Nat → Word} (h : Issued i s sh s1 x) (ho : sem s1 x = .ok o) (hl : LaneOut x s1 o d f) :
    ∃ t w', issueAs s i sem = .next t ∧ Completes sh x s1 t w' [d.toNat] [] [] o.flags ∧ LaneResult sh x w' d f ∧
      SameButHold w' (warpAfter sh.code x o o.s.fresh) := by
  have hr : o.w.regs.v = x.w.regs.v ∧ o.w.regs.s = x.w.regs.s ∧ o.w.regs.m = x.w.regs.m ∧ o.w.regs.flags = x.w.regs.flags := by
    rw [hl.wp]; exact ⟨rfl, rfl, rfl, rfl⟩
  have pl : Plain x s1 o [d.toNat] [] [] := by
    refine ⟨⟨by rw [hl.wp], by rw [hl.wp], by rw [hl.st]; exact issued_found h, hr, ?_, by simp [hl.only.2.1], by simp [hl.only.2.2],
      ?_, by simp [hl.stay.2]⟩, by rw [hl.wp]; exact ⟨rfl, rfl⟩, hl.stay, by rw [hl.st]; exact ⟨rfl, rfl, rfl, rfl⟩, by rw [hl.st]; exact ⟨rfl, rfl, rfl, rfl⟩⟩
    · intro w hw
      unfold writesOf at hw
      rcases hl.val with ⟨-, hv, -⟩ | ⟨-, hv⟩ <;> simp [hv, hl.only.1] at hw
      simp [hw]
    · intro n _
      rw [hl.wp]; rfl
  obtain ⟨w', hc, hs⟩ := retire_completes sh pl
  refine ⟨_, w', issueAs_ok h ho, hc, ?_, hs⟩
  have hreg : w'.regs = regsAfter sh.code x o := by rw [hs]; rfl
  have hx : w'.x = shiftLatches x o.w.x (delivered x o (regsAfter sh.code x o)) := by rw [hs]; rfl
  have hent : d ≠ 60 → vEntry w'.regs d.toNat =
      ⟨.mapped, blend x.written (x.res f) (if d.toNat ∈ releasedV sh.code x then [] else vGet (basis x) d.toNat)⟩ := by
    intro hd
    rcases hl.val with ⟨h60, -⟩ | ⟨-, hv⟩
    · exact absurd h60 hd
    · have hwr : (memberOf sh.code x o).wrV = [⟨d.toNat, x.written, x.res f⟩] := by
        simp [memberOf, writesOf, hv, hl.only.1]
      have hrel : (d.toNat ∈ (memberOf sh.code x o).relV) ↔ d.toNat ∈ releasedV sh.code x := by
        simp [memberOf, writesOf, hv, hl.only.1]
      rw [hreg, regsAfter_eq]
      rw [vEntry_congr (q := applyMember (outBase x o) (memberOf sh.code x o)) (by simp only [foldPutM_v])]
      have e := applyMember_vWrite (outBase x o) (memberOf sh.code x o) _ hwr
      simp only at e
      rw [e]
      have eb : vGet (outBase x o) d.toNat = vGet (basis x) d.toNat := vGet_of_entry (vEntry_congr (outBase_v hr.1) _)
      rw [eb]
      by_cases hm : d.toNat ∈ releasedV sh.code x
      · rw [if_pos hm, if_pos (hrel.2 hm)]
      · rw [if_neg hm, if_neg (fun c => hm (hrel.1 c))]
  refine ⟨fun hd => by rw [hent hd], fun hd l hl32 => ?_, fun l hwl => ?_⟩
  · rw [vGet, hent hd]
    simp only
    rw [lane_blend _ _ _ hl32]
    by_cases hw : laneBit x.written l = true
    · rw [if_pos hw, if_pos hw, lane_res hl32]
    · rw [if_neg hw, if_neg hw]
      by_cases hm : d.toNat ∈ releasedV sh.code x
      · rw [if_pos hm, if_pos hm]; rfl
      · rw [if_neg hm, if_neg hm]
  · rw [hx, getAt_shift _ _ _ (issued_written h l hwl)]
    have hl32 := laneBit_lt hwl
    have hsp := issued_written h l hwl
    rcases hl.val with ⟨-, hv, hx0⟩ | ⟨-, hv⟩
    · simp only [delivered, hv, hx0]
      rw [lane_laneMap _ hl32, hsp, hwl]
      simp only [Bool.and_self, if_true]
      exact lane_res hl32
    · simp only [delivered, hv]
      rw [lane_laneMap _ hl32, if_pos hsp, if_pos hwl]
      exact lane_res hl32

/-- An outcome that writes scalar registers, or masks, and nothing else. -/
structure SmallOut (x : Iss) (s1 : State) (o : Out) : Prop where
  st : o.s = s1
  wp : o.w = { x.w with regs := { x.w.regs with draw := o.w.regs.draw } }
  none : o.v = .none ∧ o.x0 = .none ∧ o.map = .none
  stay : o.pcs = .none ∧ o.park = .none

theorem small_completes {i : Instr} {s s1 : State} {sh : Shape} {x : Iss} {sem : State → Iss → Res} {o : Out}
    (h : Issued i s sh s1 x) (ho : sem s1 x = .ok o) (hl : SmallOut x s1 o) :
    ∃ t w', issueAs s i sem = .next t ∧ Completes sh x s1 t w' [] (o.sc.map (fun p => p.1)) (o.m.map (fun q => q.1)) o.flags ∧
      SameButHold w' (warpAfter sh.code x o o.s.fresh) := by
  have hr : o.w.regs.v = x.w.regs.v ∧ o.w.regs.s = x.w.regs.s ∧ o.w.regs.m = x.w.regs.m ∧ o.w.regs.flags = x.w.regs.flags := by
    rw [hl.wp]; exact ⟨rfl, rfl, rfl, rfl⟩
  have pl : Plain x s1 o [] (o.sc.map (fun p => p.1)) (o.m.map (fun q => q.1)) := by
    refine ⟨⟨by rw [hl.wp], by rw [hl.wp], by rw [hl.st]; exact issued_found h, hr, by simp [writesOf, hl.none.1, hl.none.2.2],
      fun p hp => List.mem_map_of_mem hp, fun q hq => List.mem_map_of_mem hq, fun n _ => by rw [hl.wp]; rfl, by simp [hl.stay.2]⟩,
      by rw [hl.wp]; exact ⟨rfl, rfl⟩, hl.stay, by rw [hl.st]; exact ⟨rfl, rfl, rfl, rfl⟩, by rw [hl.st]; exact ⟨rfl, rfl, rfl, rfl⟩⟩
  obtain ⟨w', hc, hs⟩ := retire_completes sh pl
  exact ⟨_, w', issueAs_ok h ho, hc, hs⟩

/-- The scalar that a completion writes (R136). -/
theorem after_scalar {x : Iss} {o : Out} {w' : Warp} {base : Code} {k n : Nat} {v : DWord}
    (h : SameButHold w' (warpAfter base x o k)) (hs : o.sc = [(n, v)]) : sGet w'.regs n = v := by
  have hr : w'.regs = regsAfter base x o := by rw [h]; rfl
  rw [hr, regsAfter_eq, sGet_congr (q := applyMember (outBase x o) (memberOf base x o)) (by simp only [foldPutM_s])]
  exact applyMember_sWrite _ _ _ _ hs

/-- The mask that a completion writes (R135). -/
theorem after_mask {x : Iss} {o : Out} {w' : Warp} {base : Code} {k n : Nat} {lanes val : LaneMask}
    (h : SameButHold w' (warpAfter base x o k)) (hm : o.m = [(n, lanes, val)]) (hw : o.w.regs.m = x.w.regs.m)
    (f : Nat → Bool) (hf : ∀ l, laneBit lanes l = true → laneBit val l = f l) : MaskResult x w' n lanes f := by
  intro hn l hl
  have hr : w'.regs = regsAfter base x o := by rw [h]; rfl
  have e : mGet w'.regs n = (val &&& lanes) ||| (mGet x.w.regs n &&& ~~~ lanes) := by
    rw [hr, regsAfter_eq, hm]
    simp only [List.foldl_cons, List.foldl_nil]
    refine Eq.trans (mGet_congr (q := putM (applyMember (outBase x o) (memberOf base x o)) n lanes val) rfl n) ?_
    rw [mGet_putM]
    simp only [true_and, ne_eq, hn, not_false_eq_true, if_true]
    rw [mGet_congr (applyMember_frame _ _).1, mGet_congr (outBase_rest x o).1, mGet_congr hw]
  rw [e]
  simp only [laneBit_or, laneBit_and, laneBit_not _ hl]
  by_cases hb : laneBit lanes l = true
  · simp [hb, hf l hb]
  · simp [hb]

end Sys2Proof.Machine
end

