-- ==== Sys2Proof/Laws/Later.lean ====
section
/-! SUPPORT. Operations that complete later (R137, R140): what their issue leaves, and what their landing leaves. -/

namespace Sys2Proof.Machine

/-- An outcome that puts one operation out, mapping its destination, and changes nothing else but the warp's holds. -/
structure LaterOut (x : Iss) (s1 : State) (o : Out) (op : POp) : Prop where
  st : o.s = { s1 with fresh := s1.fresh + 1 }
  wp : o.w = { x.w with pend := x.w.pend ++ [op], f := (raiseFlag x.w op.flag).f, holds := o.w.holds }
  id : op.id = s1.fresh
  overtaken : op.overtaken = 0 ∧ op.release = false
  only : o.v = none ∧ o.x0 = none ∧ o.map = op.vdst ∧ o.sc = [] ∧ o.m = [] ∧ o.flags = 0
  stay : o.pcs = none ∧ o.park = none

theorem raiseFlag_counts (w : Warp) (f : Option Nat) (n : Nat) :
    getAt 0 (raiseFlag w f).f n = getAt 0 w.f n + (if f = some n then 1 else 0) := by
  cases f with
  | none => simp [raiseFlag]
  | some k =>
    simp only [raiseFlag, getAt_setAt, Option.some.injEq]
    by_cases h : n = k
    · simp [h]
    · have : ¬ k = n := fun e => h e.symm
      simp [h, this]

theorem lowerFlag_counts (w : Warp) (f : Option Nat) (n : Nat) :
    getAt 0 (lowerFlag w f).f n = getAt 0 w.f n - (if f = some n then 1 else 0) := by
  cases f with
  | none => simp [lowerFlag]
  | some k =>
    simp only [lowerFlag, getAt_setAt, Option.some.injEq]
    by_cases h : n = k
    · simp [h]
    · have : ¬ k = n := fun e => h e.symm
      simp [h, this]

theorem writesOf_later {x : Iss} {s1 : State} {o : Out} {op : POp} (hl : LaterOut x s1 o op) :
    writesOf o = match op.vdst with | some n => [⟨n, 0, []⟩] | none => [] := by
  unfold writesOf
  rw [hl.only.1, hl.only.2.2.1]
  rfl

theorem later_plain {x : Iss} {s1 : State} {o : Out} {op : POp} (hf : (warpFind s1 x.w.ctx x.w.num).isSome)
    (hl : LaterOut x s1 o op) : Plain x s1 o op.vdst.toList [] [] := by
  have hreg : o.w.regs = x.w.regs := by rw [hl.wp]
  refine ⟨⟨by rw [hl.wp], by rw [hl.wp], ?_, by rw [hreg]; exact ⟨rfl, rfl, rfl, rfl⟩, ?_, by simp [hl.only.2.2.2.1],
    by simp [hl.only.2.2.2.2.1], ?_, by simp [hl.stay.2]⟩, by rw [hl.wp]; exact ⟨rfl, rfl⟩, hl.stay, by rw [hl.st]; exact ⟨rfl, rfl, rfl, rfl⟩,
    by rw [hl.st]; exact ⟨rfl, rfl, rfl, rfl⟩⟩
  · rw [hl.st]; exact hf
  · intro w hw
    rw [writesOf_later hl] at hw
    cases hv : op.vdst <;> simp [hv] at hw
    simp [hw]
  · intro n hn
    rw [hl.wp]
    simp only [outstanding, List.any_append, List.any_cons, List.any_nil, Bool.or_false]
    cases hv : op.vdst with
    | none => simp
    | some k =>
      have : ¬ k = n := fun e => hn (by simp [hv, e])
      simp [this]

/-- An operation that completes later issues (R140): `Completes` and `GoesOut`. -/
theorem later_completes {i : Instr} {s s1 : State} {sh : Shape} {x : Iss} {sem : State → Iss → Res} {o : Out} {op : POp}
    (h : Issued i s sh s1 x) (ho : sem s1 x = .ok o) (hl : LaterOut x s1 o op) :
    ∃ t w', issueAs s i sem = .next t ∧ Completes sh x s1 t w' op.vdst.toList [] [] 0 ∧ GoesOut sh x s1 w' op ∧
      SameButHold w' (warpAfter sh.code x o o.s.fresh) ∧ (∀ k, k ≠ .retry → (k ∈ w'.holds ↔ k ∈ o.w.holds)) := by
  have pl := later_plain (issued_found h) hl
  obtain ⟨w', hc, hs⟩ := retire_completes sh pl
  have hcn : o.w.ctx = x.w.ctx ∧ o.w.num = x.w.num := by rw [hl.wp]; exact ⟨rfl, rfl⟩
  have hh := retire_holds sh.code x o (by rw [hcn.1, hcn.2]; exact pl.found) (w' := w') (by rw [hcn.1, hcn.2]; exact hc.found)
  rw [hl.only.2.2.2.2.2] at hc
  refine ⟨_, w', issueAs_ok h ho, hc, ⟨?_, hl.id, hl.overtaken, fun n => ?_, fun n hn => ?_⟩, hs, hh⟩
  · rw [show w'.pend = pendAfter sh.code x o by rw [hs]; rfl]
    unfold pendAfter
    rw [hl.wp]
    simp
  · rw [show w'.f = o.w.f by rw [hs]; rfl, hl.wp]
    exact raiseFlag_counts _ _ _
  · have hr : w'.regs = regsAfter sh.code x o := by rw [hs]; rfl
    have hwr : (memberOf sh.code x o).wrV = [⟨n, 0, []⟩] := by
      show writesOf o = _
      rw [writesOf_later hl, hn]
    have hrel : (n ∈ (memberOf sh.code x o).relV) ↔ n ∈ releasedV sh.code x := by
      have : ∃ y, y ∈ writesOf o ∧ y.reg = n := by rw [writesOf_later hl, hn]; simp
      simp [memberOf, this]
    have hent : vEntry w'.regs n = ⟨.mapped, blend 0 [] (if n ∈ releasedV sh.code x then [] else vGet (basis x) n)⟩ := by
      rw [hr, regsAfter_eq]
      rw [vEntry_congr (q := applyMember (outBase x o) (memberOf sh.code x o)) (by simp only [foldPutM_v])]
      have e := applyMember_vWrite (outBase x o) (memberOf sh.code x o) _ hwr
      simp only at e
      rw [e]
      have eb : vGet (outBase x o) n = vGet (basis x) n := vGet_of_entry (vEntry_congr (outBase_v pl.regs.1) _)
      rw [eb]
      by_cases hm : n ∈ releasedV sh.code x
      · rw [if_pos hm, if_pos (hrel.2 hm)]
      · rw [if_neg hm, if_neg (fun c => hm (hrel.1 c))]
    refine ⟨by rw [hent], fun l hl32 => ?_⟩
    rw [vGet, hent]
    simp only
    rw [lane_blend _ _ _ hl32]
    by_cases hm : n ∈ releasedV sh.code x <;> simp [hm]

/-- A landing's values in the vector registers (R140). -/
theorem landRegs_entry (r : Regs) (p : POp) (others : Bool) (n : Nat) :
    vEntry (landRegs r p others) n =
      if p.vdst = some n ∧ n ≤ 55 then
        (if p.release = true ∧ others = false then {}
         else if (vEntry r n).st = .mapped then
          ⟨.mapped, laneIdx.map (fun l => if laneBit p.lanes l && !(laneBit p.overtaken l) then (getAt none p.vals l).getD (lane (vGet r n) l)
            else lane (vGet r n) l)⟩
         else vEntry r n)
      else vEntry r n := by
  unfold landRegs
  cases hv : p.vdst with
  | none =>
    simp only [reduceCtorEq, false_and, if_false]
    exact vEntry_congr (by simp only [foldPutM_v]) n
  | some k =>
    simp only [Option.some.injEq]
    generalize hq : (if k ≤ 55 ∧ (vEntry r k).st = .mapped then _ else r) = q
    have e1 : ∀ (f : BitVec 32), vEntry { (p.mres.foldl (fun r q => putM r q.1 q.2.1 q.2.2) q) with
        flags := (p.mres.foldl (fun r q => putM r q.1 q.2.1 q.2.2) q).flags ||| f } n = vEntry q n :=
      fun f => vEntry_congr (by simp only [foldPutM_v]) n
    have e2 : vEntry q n = if k = n ∧ n ≤ 55 ∧ (vEntry r n).st = .mapped then
        ⟨.mapped, laneIdx.map (fun l => if laneBit p.lanes l && !(laneBit p.overtaken l) then (getAt none p.vals l).getD (lane (vGet r n) l)
            else lane (vGet r n) l)⟩ else vEntry r n := by
      rw [← hq]
      by_cases hc : k ≤ 55 ∧ (vEntry r k).st = .mapped
      · rw [if_pos hc]
        simp only [vEntry, getAt_setAt]
        by_cases hn : n = k
        · subst hn; simp only [vEntry] at hc; simp [hc]
        · have : ¬ k = n := fun e => hn e.symm
          simp [hn, this]
      · rw [if_neg hc]
        by_cases hn : k = n
        · subst hn; simp [hc]
        · simp [hn]
    by_cases hrel : p.release = true ∧ others = false ∧ k ≤ 55
    · rw [if_pos (by simp [hrel])]
      rw [vEntry_freeV, e1, e2]
      by_cases hn : n = k
      · subst hn; simp [hrel]
      · have : ¬ k = n := fun e => hn e.symm
        simp [hn, this]
    · rw [if_neg (by simpa using hrel)]
      rw [e1, e2]
      by_cases hn : k = n
      · subst hn
        by_cases h55 : k ≤ 55
        · have : ¬ (p.release = true ∧ others = false) := fun c => hrel ⟨c.1, c.2, h55⟩
          simp [h55, this]
        · simp [h55]
      · simp [hn]

theorem landRegs_flags (r : Regs) (p : POp) (others : Bool) : (landRegs r p others).flags = r.flags ||| p.flagsOr := by
  unfold landRegs
  cases p.vdst with
  | none => simp only [foldPutM_flags]
  | some k =>
    simp only
    generalize hq : (if k ≤ 55 ∧ (vEntry r k).st = .mapped then _ else r) = q
    have : q.flags = r.flags := by rw [← hq]; split <;> rfl
    split <;> simp only [freeV_flags, foldPutM_flags, this]

/-- What a landing's scalar leaves alone. -/
theorem landS_entry (r : Regs) (p : POp) (sv : Option DWord) (n : Nat) : vEntry (landS r p sv) n = vEntry r n := by
  unfold landS
  split <;> rfl

theorem landS_flags (r : Regs) (p : POp) (sv : Option DWord) : (landS r p sv).flags = r.flags := by
  unfold landS
  split <;> rfl

/-- The fields that a landing writes, one by one. -/
theorem landOp_regs (w : Warp) (p : POp) (sv : Option DWord) : (landOp w p sv).regs = landS (landRegs w.regs p
    ((w.pend.filter (fun q => !(q.id == p.id))).any (fun q => q.vdst == p.vdst && p.vdst.isSome))) p sv := by
  unfold landOp
  rw [endLongHold_eq, lowerFlag_eq]

theorem landOp_pend (w : Warp) (p : POp) (sv : Option DWord) : (landOp w p sv).pend =
    (let pend := w.pend.filter (fun q => !(q.id == p.id))
     let others := pend.any (fun q => q.vdst == p.vdst && p.vdst.isSome)
     if others && p.release then pend.map (fun q => if q.vdst = p.vdst then { q with release := true } else q) else pend) := by
  unfold landOp
  rw [endLongHold_eq, lowerFlag_eq]

theorem landOp_f (w : Warp) (p : POp) (sv : Option DWord) : (landOp w p sv).f = (lowerFlag w p.flag).f := by
  unfold landOp
  rw [endLongHold_eq]
  cases p.flag <;> rfl

theorem endLongHold_holds (v : Warp) (k : Hold) (h : k ∈ (endLongHold v).holds) : k ∈ v.holds := by
  unfold endLongHold at h
  split at h
  · exact (List.mem_filter.1 h).1
  · exact h

theorem landOp_holds (w : Warp) (p : POp) (sv : Option DWord) (k : Hold) (h : k ∈ (landOp w p sv).holds) :
    k ∈ w.holds.filter (fun h => !(h == .op p.id)) := by
  unfold landOp at h
  have := endLongHold_holds _ k h
  rwa [lowerFlag_eq] at this

/-- The landing of an operation (R140, R142, R183): what `HasLanded` says. -/
theorem landOp_lands (w : Warp) (p : POp) (sv : Option DWord) : HasLanded w p (landOp w p sv) := by
  have hregs : ∀ n, vEntry (landOp w p sv).regs n =
      vEntry (landRegs w.regs p ((w.pend.filter (fun q => !(q.id == p.id))).any (fun q => q.vdst == p.vdst && p.vdst.isSome))) n := by
    intro n
    rw [landOp_regs, landS_entry]
  have hfl : (landOp w p sv).regs.flags = w.regs.flags ||| p.flagsOr := by
    have e : (landOp w p sv).regs.flags =
        (landRegs w.regs p ((w.pend.filter (fun q => !(q.id == p.id))).any (fun q => q.vdst == p.vdst && p.vdst.isSome))).flags := by
      rw [landOp_regs, landS_flags]
    rw [e, landRegs_flags]
  have hpend : ∀ q ∈ (landOp w p sv).pend, q.id ≠ p.id := by
    intro q hq
    have : q ∈ (let pend := w.pend.filter (fun q => !(q.id == p.id))
        let others := pend.any (fun q => q.vdst == p.vdst && p.vdst.isSome)
        if others && p.release then pend.map (fun q => if q.vdst = p.vdst then { q with release := true } else q) else pend) := by
      rw [landOp_pend] at hq
      exact hq
    simp only at this
    split at this
    · obtain ⟨r, hr, e⟩ := List.mem_map.1 this
      have h1 := (List.mem_filter.1 hr).2
      have : q.id = r.id := by rw [← e]; split <;> rfl
      rw [this]
      simpa using h1
    · simpa using (List.mem_filter.1 this).2
  refine ⟨hpend, fun r hr => ?_, fun r hr h55 hm hrel => ?_, fun r hr h55 hrel ho => ?_, hfl, fun n => ?_, ?_⟩
  · rw [hregs, landRegs_entry, if_neg (fun c => hr c.1)]
  · have e : vEntry (landOp w p sv).regs r = _ := hregs r
    rw [landRegs_entry, if_pos ⟨hr, h55⟩, if_neg (by simp [hrel]), if_pos hm] at e
    refine ⟨by rw [e], fun l hl => ?_⟩
    rw [vGet, e]
    simp only
    rw [lane_laneMap _ hl]
    by_cases h1 : laneBit p.lanes l = true <;> by_cases h2 : laneBit p.overtaken l = true <;> simp [h1, h2]
  · have hf : (w.pend.filter (fun q => !(q.id == p.id))).any (fun q => q.vdst == p.vdst && p.vdst.isSome) = false := by
      rw [List.any_eq_false]
      intro q hq
      have h1 := List.mem_filter.1 hq
      have := ho q h1.1 (by simpa using h1.2)
      simp [hr, this]
    rw [hregs, landRegs_entry, if_pos ⟨hr, h55⟩, if_pos ⟨hrel, hf⟩]
  · rw [landOp_f, lowerFlag_counts]
  · intro hm
    have := landOp_holds w p sv _ hm
    simp at this

end Sys2Proof.Machine
end

