-- ==== Sys2Proof/Laws/Mem.lean ====
section
/-! SUPPORT. Laws of the byte memory: reading after writing, and that every operation on it keeps its canonical form. -/

namespace Sys2Proof.Machine

/-! ## Reading after writing -/

theorem memAbove_mono {n k : Nat} {m : List Host.Cell} (hk : k ≤ n) (h : memAbove n m = true) : memAbove k m = true := by
  cases m with
  | nil => rfl
  | cons c r =>
    obtain ⟨b, x⟩ := c
    simp only [memAbove, Bool.and_eq_true, decide_eq_true_eq] at h ⊢
    exact ⟨⟨Nat.le_trans hk h.1.1, h.1.2⟩, h.2⟩

/-- Below its first address a memory reads zero. -/
theorem memGet_below {n a : Nat} {m : List Host.Cell} (h : memAbove n m = true) (ha : a < n) : memGet m a = 0 := by
  cases m with
  | nil => rfl
  | cons c r =>
    obtain ⟨b, x⟩ := c
    simp only [memAbove, Bool.and_eq_true, decide_eq_true_eq] at h
    simp only [memGet]
    rw [if_neg (by omega), if_pos (by omega)]

/-- One byte written keeps the form and the bound. -/
theorem memAbove_memSet {n a : Nat} {m : List Host.Cell} (x : Byte) (h : memAbove n m = true) (ha : n ≤ a) :
    memAbove n (memSet m a x) = true := by
  induction m generalizing n with
  | nil =>
    by_cases hx : x = 0
    · rw [memSet, if_pos hx]
      rfl
    · simp only [memSet, if_neg hx, memAbove, Bool.and_eq_true, decide_eq_true_eq]
      exact ⟨⟨ha, hx⟩, trivial⟩
  | cons c r ih =>
    obtain ⟨b, y⟩ := c
    simp only [memAbove, Bool.and_eq_true, decide_eq_true_eq] at h
    unfold memSet
    by_cases hab : a < b
    · by_cases hx : x = 0
      · simp only [if_pos hab, if_pos hx, memAbove, Bool.and_eq_true, decide_eq_true_eq]
        exact h
      · simp only [hab, hx, if_true, if_false, memAbove, Bool.and_eq_true, decide_eq_true_eq]
        exact ⟨⟨ha, hx⟩, ⟨by omega, h.1.2⟩, h.2⟩
    · by_cases he : a = b
      · subst he
        by_cases hx : x = 0
        · simp only [if_neg hab, hx, if_true]
          exact memAbove_mono (by omega) h.2
        · simp only [if_neg hab, hx, if_true, if_false, memAbove, Bool.and_eq_true, decide_eq_true_eq]
          exact ⟨⟨ha, hx⟩, h.2⟩
      · simp only [if_neg hab, if_neg he, memAbove, Bool.and_eq_true, decide_eq_true_eq]
        exact ⟨h.1, ih h.2 (by omega)⟩

/-- The byte written is the byte read; every other address reads as before. -/
theorem memGet_memSet_above {n a : Nat} {m : List Host.Cell} (x : Byte) (k : Nat) (h : memAbove n m = true) :
    memGet (memSet m a x) k = if k = a then x else memGet m k := by
  induction m generalizing n with
  | nil =>
    by_cases hx : x = 0
    · subst hx
      simp [memSet, memGet]
    · rw [memSet, if_neg hx]
      simp [memGet]
  | cons c r ih =>
    obtain ⟨b, y⟩ := c
    simp only [memAbove, Bool.and_eq_true, decide_eq_true_eq] at h
    have hr : ∀ j, j < b + 1 → memGet r j = 0 := fun j hj => memGet_below h.2 hj
    unfold memSet
    by_cases hab : a < b
    · by_cases hx : x = 0
      · simp only [hab, hx, if_true, memGet]
        by_cases hk : k = a
        · rw [if_pos hk, if_neg (by omega), if_pos (by omega)]
        · rw [if_neg hk]
      · simp only [hab, hx, if_true, if_false, memGet]
        by_cases hk : k = a
        · simp [hk]
        · by_cases hlt : k < a
          · simp only [if_neg hk, hlt, if_true]
            rw [if_neg (by omega), if_pos (by omega)]
          · simp only [if_neg hk, hlt, if_false]
    · by_cases he : a = b
      · subst he
        by_cases hx : x = 0
        · simp only [if_neg hab, hx, if_true, memGet]
          by_cases hk : k = a
          · rw [if_pos hk, hr k (by omega)]
          · by_cases hlt : k < a
            · simp only [if_neg hk, hlt, if_true]
              exact hr k (by omega)
            · simp only [if_neg hk, hlt, if_false]
        · simp only [if_neg hab, hx, if_true, if_false, memGet]
          by_cases hk : k = a <;> simp [hk]
      · simp only [if_neg hab, if_neg he, memGet]
        by_cases hkb : k = b
        · simp only [hkb, if_true]
          rw [if_neg (by omega)]
        · by_cases hlt : k < b
          · simp only [if_neg hkb, hlt, if_true]
            rw [if_neg (by omega)]
          · simp only [if_neg hkb, hlt, if_false]
            exact ih h.2

theorem memGet_memSet {m : List Host.Cell} (a : Nat) (x : Byte) (k : Nat) (h : Memory.wf m = true) :
    memGet (memSet m a x) k = if k = a then x else memGet m k := memGet_memSet_above x k h

theorem wf_memSet {m : List Host.Cell} (a : Nat) (x : Byte) (h : Memory.wf m = true) : Memory.wf (memSet m a x) = true :=
  memAbove_memSet x h (Nat.zero_le a)

theorem wf_memWrite {m : List Host.Cell} (a : Nat) (bs : List Byte) (h : Memory.wf m = true) : Memory.wf (memWrite m a bs) = true := by
  induction bs generalizing m a with
  | nil => exact h
  | cons b bs ih => exact ih (a + 1) (wf_memSet a b h)

theorem wf_memSetWord {m : List Host.Cell} (wa : Nat) (w : Word) (h : Memory.wf m = true) : Memory.wf (memSetWord m wa w) = true :=
  wf_memWrite _ _ h

/-- Bytes written are the bytes read; every other address reads as before. -/
theorem memGet_memWrite {m : List Host.Cell} (a : Nat) (bs : List Byte) (k : Nat) (h : Memory.wf m = true) :
    memGet (memWrite m a bs) k = if a ≤ k ∧ k < a + bs.length then getAt 0 bs (k - a) else memGet m k := by
  induction bs generalizing m a with
  | nil => rw [memWrite, if_neg (fun hc => by simp only [List.length_nil] at hc; omega)]
  | cons b bs ih =>
    rw [memWrite, ih (a + 1) (wf_memSet a b h), memGet_memSet a b k h]
    by_cases hk : k = a
    · subst hk
      rw [if_neg (by omega), if_pos rfl, if_pos (by simp), Nat.sub_self]
      rfl
    · by_cases hin : a + 1 ≤ k ∧ k < a + 1 + bs.length
      · rw [if_pos hin, if_pos (by simp only [List.length_cons]; omega)]
        obtain ⟨j, hj⟩ : ∃ j, k - a = j + 1 := ⟨k - a - 1, by omega⟩
        rw [hj, show k - (a + 1) = j by omega]
        rfl
      · rw [if_neg hin, if_neg hk, if_neg (by simp only [List.length_cons]; omega)]

/-! ## The canonical form, kept -/

/-- Cells left out keep the form: an island that takes its memory with it (R34). -/
theorem memAbove_filter {n : Nat} {m : List Host.Cell} (p : Host.Cell → Bool) (h : memAbove n m = true) : memAbove n (m.filter p) = true := by
  induction m generalizing n with
  | nil => rfl
  | cons c r ih =>
    obtain ⟨b, x⟩ := c
    simp only [memAbove, Bool.and_eq_true, decide_eq_true_eq] at h
    by_cases hp : p (b, x) = true
    · simp only [List.filter_cons, hp, if_true, memAbove, Bool.and_eq_true, decide_eq_true_eq]
      exact ⟨h.1, ih h.2⟩
    · simp only [List.filter_cons, hp, Bool.false_eq_true, if_false]
      exact memAbove_mono (by omega) (ih h.2)

theorem wf_filter {m : List Host.Cell} (p : Host.Cell → Bool) (h : Memory.wf m = true) : Memory.wf (m.filter p) = true :=
  memAbove_filter p h

theorem wf_nil : Memory.wf [] = true := rfl

theorem wf_scrSet {b : Block} (off : Nat) (bs : List Byte) (h : Memory.wf b.scr = true) : Memory.wf (scrSet b off bs).scr = true :=
  wf_memWrite off bs h

/-- Canonical memories that read alike are one memory. -/
theorem eq_of_memGet {n : Nat} {m m' : List Host.Cell} (h : memAbove n m = true) (h' : memAbove n m' = true)
    (hg : ∀ a, memGet m a = memGet m' a) : m = m' := by
  induction m generalizing n m' with
  | nil =>
    cases m' with
    | nil => rfl
    | cons c r =>
      obtain ⟨b, x⟩ := c
      simp only [memAbove, Bool.and_eq_true, decide_eq_true_eq] at h'
      have := hg b
      simp only [memGet, if_true] at this
      exact absurd this.symm h'.1.2
  | cons c r ih =>
    obtain ⟨b, x⟩ := c
    simp only [memAbove, Bool.and_eq_true, decide_eq_true_eq] at h
    cases m' with
    | nil =>
      have := hg b
      simp only [memGet, if_true] at this
      exact absurd this h.1.2
    | cons c' r' =>
      obtain ⟨b', x'⟩ := c'
      simp only [memAbove, Bool.and_eq_true, decide_eq_true_eq] at h'
      have hb : b = b' := by
        rcases Nat.lt_trichotomy b b' with hlt | heq | hgt
        · have := hg b
          simp only [memGet, if_true] at this
          rw [if_neg (by omega), if_pos hlt] at this
          exact absurd this h.1.2
        · exact heq
        · have := hg b'
          simp only [memGet, if_true] at this
          rw [if_neg (by omega), if_pos hgt] at this
          exact absurd this.symm h'.1.2
      subst hb
      have hx : x = x' := by
        have := hg b
        simpa [memGet] using this
      subst hx
      rw [ih h.2 h'.2 (fun a => ?_)]
      by_cases ha : a < b + 1
      · rw [memGet_below h.2 ha, memGet_below h'.2 ha]
      · have := hg a
        simp only [memGet] at this
        rwa [if_neg (by omega), if_neg (by omega), if_neg (by omega), if_neg (by omega)] at this

theorem reset_safe : Safe State.reset := ⟨rfl, by intro b hb; cases hb⟩

end Sys2Proof.Machine
end

