-- ==== Sys2Proof/Laws/Transfer.lean ====
section
/-! SUPPORT. Control transfers: what their completion leaves (R113, R125 to R128). -/

namespace Sys2Proof.Machine

/-- An outcome with PC and depth tables, that writes no register. -/
structure Moves (x : Iss) (o : Out) (pc : List (BitVec 32)) (depth : List (BitVec 8)) : Prop where
  ctx : o.w.ctx = x.w.ctx
  num : o.w.num = x.w.num
  found : (warpFind o.s x.w.ctx x.w.num).isSome
  same : o.w.regs = x.w.regs ∧ o.w.pend = x.w.pend ∧ o.w.rep = x.w.rep
  none : o.v = .none ∧ o.x0 = .none ∧ o.map = .none ∧ o.sc = [] ∧ o.m = [] ∧ o.flags = 0
  stay : o.pcs = some (pc, depth) ∧ o.park = .none

theorem moves_transfers {x : Iss} {o : Out} {pc : List (BitVec 32)} {depth : List (BitVec 8)} (sh : Shape) (h : Moves x o pc depth) :
    ∃ w', Transfers sh x (retire sh.code x o) w' (getAt 0 pc) (getAt 0 depth) ∧ SameButHold w' (warpAfter sh.code x o o.s.fresh) := by
  have td : Tidy x o [] [] [] := by
    refine ⟨h.ctx, h.num, h.found, by rw [h.same.1]; exact ⟨rfl, rfl, rfl, rfl⟩, ?_, by simp [h.none.2.2.2.1], by simp [h.none.2.2.2.2.1], ?_, by simp [h.stay.2]⟩
    · unfold writesOf; rw [h.none.1, h.none.2.2.1]; simp
    · intro n _; unfold outstanding; rw [h.same.2.1]
  obtain ⟨w', hl, hs⟩ := retire_leaves sh td
  rw [h.none.2.2.2.2.2] at hl
  have h1 : w'.pc = (nextEntries x o.w o).1 := by rw [hs]; rfl
  have h2 : w'.depth = (nextEntries x o.w o).2.1 := by rw [hs]; rfl
  have h3 : w'.rep = (nextEntries x o.w o).2.2 := by rw [hs]; rfl
  refine ⟨w', ⟨hl, fun l _ => ?_, fun l _ => ?_, fun l hl => ?_⟩, hs⟩
  · rw [h1]; simp only [nextEntries, h.stay.1, h.stay.2]
  · rw [h2]; simp only [nextEntries, h.stay.1, h.stay.2]
  · rw [h3]; simp only [nextEntries, h.stay.1, h.stay.2, getAt_laneMap _ _ hl, h.same.2.2]

/-- Transfers depend only on the PC and depth of each lane. -/
theorem Transfers.congr {sh : Shape} {x : Iss} {t : State} {w' : Warp} {pc q : Nat → BitVec 32} {depth e : Nat → BitVec 8}
    (h : Transfers sh x t w' pc depth) (h1 : ∀ l, l < 32 → pc l = q l) (h2 : ∀ l, l < 32 → depth l = e l) : Transfers sh x t w' q e :=
  ⟨h.toLeaves, fun l hl => (h.pcs l hl).trans (h1 l hl), fun l hl => (h.depths l hl).trans (h2 l hl), h.reps⟩

end Sys2Proof.Machine
end

