-- ==== Sys2Proof/Tests/Ground.lean ====
section
/-! SUPPORT. The ground of the tests: small states in which a group issues, and checks that compute what a statement speaks of. -/

namespace Sys2Proof.Tests

open Sys2Proof.Machine

/-- A group without stop, distance, PREFIX or REPEAT, and one at distance 2 cc. -/
def g0 : Grp := ⟨false, 0, none, none⟩
def g1 : Grp := ⟨false, 1, none, none⟩

/-- A group with a PREFIX that names c = 5, and one with a mask too. -/
def gc : Grp := ⟨false, 1, some ⟨0, false, 0, 5, false, false, 0⟩, none⟩
def gm (m : BitVec 4) (mz : Bool) : Grp := ⟨false, 0, some ⟨m, mz, 0, 0, false, false, 0⟩, none⟩

/-- What a group must meet to be issued in a state, and the issue as it then stands. -/
def issuedAt (i : Instr) (s : State) : Option (Shape × State × Iss) :=
  match s.issue, shapeOf i with
  | some p, some sh =>
    match warpFind s p.ctx p.warp with
    | some w =>
      match firstCause s (issOf s p sh (atIssue s p w sh)) sh true, longHold (issOf s p sh (atIssue s p w sh)),
        operandsReady s sh.code (issOf s p sh (atIssue s p w sh)) with
      | none, false, .ok s1 w2 => some (sh, s1, issOf s1 p sh (syncSnap w2))
      | _, _, _ => none
    | none => none
  | _, _ => none

/-- The computed issue is the one that the statements speak of. -/
theorem issued_of_issuedAt {i : Instr} {s : State} {sh s1 x} (h : issuedAt i s = some (sh, s1, x)) : Issued i s sh s1 x := by
  unfold issuedAt at h
  split at h
  · rename_i p sh' hp hsh
    split at h
    · rename_i w hw
      split at h
      · rename_i s1' w2 h1 h2 h3
        simp only [Option.some.injEq, Prod.mk.injEq] at h
        obtain ⟨rfl, rfl, rfl⟩ := h
        exact ⟨p, w, w2, hp, hw, hsh, h1, h2, h3, rfl⟩
      · cases h
    · cases h
  · cases h

/-- The group issues in the state, and the issue meets a condition. -/
def issues (i : Instr) (s : State) (f : Shape → State → Iss → Bool) : Bool :=
  match issuedAt i s with
  | some (sh, s1, x) => f sh s1 x
  | none => false

/-- The group issues, and the state after it meets a condition. -/
def after (i : Instr) (s : State) (f : Shape → State → Iss → State → Bool) : Bool :=
  match issuedAt i s, exec i s with
  | some (sh, s1, x), .next t => f sh s1 x t
  | _, _ => false

/-- exec answers a next state that meets a condition. -/
def next (i : Instr) (s : State) (f : State → Bool) : Bool :=
  match exec i s with
  | .next t => f t
  | _ => false

/-- exec answers this very state. -/
def is (i : Instr) (s t : State) : Bool := next i s (fun u => u == t)

/-! ## States -/

/-- Warp 0 of context 0 issues a group for all its lanes: a block of one warp with a scratchpad and four tiles. -/
def ready : State := { booted State.reset [] with issue := some ⟨0, 0, 0xFFFFFFFF#32, none⟩ }

/-- The page tables of context 0 stand in memory: virtual addresses below 1 GiB lie on the first frames of die 0 (R284, R285). -/
def tabled (s : State) : State :=
  let m := memWrite s.mem (2 ^ 51 + 0x1000) (natLe 8 (2 ^ 51 + 0x2001))
  let m := memWrite m (2 ^ 51 + 0x2000) (natLe 8 (2 ^ 51 + 0x3001))
  { s with mem := memWrite m (2 ^ 51 + 0x3000) (natLe 8 bootLeaf.toNat) }

/-- Bytes in memory at a virtual address of that page. -/
def poke (va : Nat) (bs : List Byte) (s : State) : State := { s with mem := memWrite s.mem (2 ^ 51 + va) bs }

/-- The same machine with its warp, its block, its context changed. -/
def withWarp (s : State) (f : Warp → Warp) : State := { s with warps := s.warps.map f }
def withBlock (s : State) (f : Block → Block) : State := { s with blocks := s.blocks.map f }
def withCtx (s : State) (f : Ctx → Ctx) : State := setCtx s 0 (f (ctxOf s 0))
def withTask (s : State) (f : Task → Task) : State := { s with tasks := s.tasks.map f }

/-- A vector register MAPPED with a value in each lane; a scalar register; a mask. -/
def putV (r : Nat) (f : Nat → Word) (w : Warp) : Warp :=
  { w with regs := { w.regs with v := setAt {} w.regs.v r ⟨.mapped, mkLanes f⟩, order := w.regs.order ++ [r] } }
def putS (r : Nat) (v : DWord) (w : Warp) : Warp := { w with regs := { w.regs with s := setAt 0 w.regs.s r v } }
def putM (r : Nat) (v : LaneMask) (w : Warp) : Warp := { w with regs := { w.regs with m := setAt 0 w.regs.m r v } }

/-- Operands for instructions that name 4, 6 and 2: v4, v6, v5 and v2 in every lane, s4 and s6, m4 and m6. -/
def withV (a b c d : Word) : State :=
  withWarp ready (fun w => putV 4 (fun _ => a) (putV 6 (fun _ => b) (putV 5 (fun _ => c) (putV 2 (fun _ => d) w))))
def withS (a b : DWord) : State := withWarp ready (fun w => putS 4 a (putS 6 b w))
def withM (a b : LaneMask) : State := withWarp ready (fun w => putM 4 a (putM 6 b w))

/-- The warp after a step; what its registers read. -/
def w0 (t : State) : Warp := (warpFind t 0 0).getD {}
def vAt (t : State) (r l : Nat) : Word := lane (vGet (w0 t).regs r) l
def sAt (t : State) (r : Nat) : DWord := sGet (w0 t).regs r
def mAt (t : State) (r : Nat) : LaneMask := mGet (w0 t).regs r

/-! ## What the statements say of registers, computed -/

/-- `Leaves`, over the registers that there are. -/
def leaves (sh : Shape) (x : Iss) (t : State) (dv ds dm : List Nat) (fl : BitVec 32) : Bool :=
  match warpFind t x.w.ctx x.w.num with
  | none => false
  | some w =>
    t.issue.isNone &&
    (List.range 64).all (fun n => dv.contains n || vEntry w.regs n == (if (freedV sh x).contains n then {} else vEntry (basis x) n)) &&
    (List.range 64).all (fun n => ds.contains n || sGet w.regs n == (if (releasedS sh.code x).contains n then 0 else sGet (basis x) n)) &&
    (List.range 16).all (fun n => dm.contains n || mGet w.regs n == mGet x.w.regs n) && w.regs.flags == x.w.regs.flags ||| fl

/-- `Steps`. -/
def stepsOn (x : Iss) (t : State) : Bool :=
  match warpFind t x.w.ctx x.w.num with
  | none => false
  | some w => laneIdx.all (fun l =>
      getAt 0 w.pc l == (if laneBit x.split l && x.last then getAt 0 x.w.pc l + .ofNat 32 x.len else getAt 0 x.w.pc l) &&
      getAt 0 w.rep l == (if laneBit x.split l then (if x.last then 0 else .ofNat 6 (x.j + 1)) else getAt 0 x.w.rep l))

/-- Memory as all agents see it is the same: nothing of what it is made of has changed. -/
def sameMem (s t : State) : Bool := t.mem == s.mem && t.slices == s.slices && t.l1 == s.l1

/-- `Completes`. -/
def completes (sh : Shape) (x : Iss) (s1 t : State) (dv ds dm : List Nat) (fl : BitVec 32) : Bool :=
  leaves sh x t dv ds dm fl && stepsOn x t && sameMem s1 t && t.blocks == s1.blocks && t.tasks == s1.tasks && t.copies == s1.copies &&
    t.views == s1.views

/-- `KeepsRest`. -/
def keepsRest (x : Iss) (t : State) : Bool :=
  let w := (warpFind t x.w.ctx x.w.num).getD {}
  w.depth == x.w.depth && w.exited == x.w.exited && w.limbst == x.w.limbst && w.carryx == x.w.carryx && w.f == x.w.f && w.tag == x.w.tag &&
    w.openb == x.w.openb && w.privbase == x.w.privbase && w.stackMax == x.w.stackMax && w.stackLim == x.w.stackLim &&
    w.regs.draw == x.w.regs.draw

/-- `LaneResult`. -/
def laneResult (sh : Shape) (x : Iss) (t : State) (d : Nat) (f : Nat → Word) : Bool :=
  let w := (warpFind t x.w.ctx x.w.num).getD {}
  (d == 60 || (vEntry w.regs d).st == .mapped && laneIdx.all (fun l => lane (vGet w.regs d) l ==
    (if laneBit x.written l then (if laneBit x.act l then f l else 0)
     else if (releasedV sh.code x).contains d then 0 else lane (vGet (basis x) d) l))) &&
  laneIdx.all (fun l => !(laneBit x.written l) || lane (getAt [] w.x 0) l == (if laneBit x.act l then f l else 0))

/-- `GoesOut`, and what else is asked of the operation. -/
def goesOut (x : Iss) (s1 t : State) (f : POp → Bool) : Bool :=
  let w := (warpFind t x.w.ctx x.w.num).getD {}
  match w.pend.getLast? with
  | none => false
  | some op => op.id == s1.fresh && op.overtaken == 0 && !op.release && op.born == x.w.now &&
      (List.range 16).all (fun n => getAt 0 w.f n == getAt 0 x.w.f n + (if op.flag = some n then 1 else 0)) && f op

/-- The group raises a cause, as `Raises` says. -/
def raises (i : Instr) (s : State) (k : Cause) (l : Option Nat) (a : DWord) : Bool :=
  issues i s (fun sh s1 x => is i s (raiseIssue s1 x.w x.split x.act sh x.j x.chained x.pc k l a 0))

/-- The causes that come first, in the order of R524, each in a state that meets it and none before it. -/
def firstIs (i : Instr) (s : State) (k : Cause) (l : Option Nat) (code : BitVec 8) : Bool :=
  match shapeOf i, s.issue, warpFind s 0 0 with
  | some sh, some p, some w =>
    let x := issOf s p sh (atIssue s p w sh)
    firstCause s x sh true == some (k, l, code) &&
      is i s (raiseIssue s x.w p.split x.act sh x.j (x.chained && k != .brk) x.pc k l 0 code)
  | _, _, _ => false

/-- A computation succeeds with a value that meets a condition. -/
def good {ε α : Type} (x : Except ε α) (f : α → Bool) : Bool :=
  match x with
  | .ok a => f a
  | .error _ => false

/-- Every check of a list holds. -/
def every (cs : List Bool) : Bool := cs.all (fun c => c)

end Sys2Proof.Tests
end

