-- ==== Sys2Proof/Tests/Slice0.lean ====
section
/-! SUPPORT. Tests: words of the encoding tables decode to what they stand for and are what the encoder writes; ill-formed terms are
refused; single instructions on small states give the results that the rules give. -/

namespace Sys2Proof.Tests

open Sys2Proof.Machine

set_option maxRecDepth 100000
set_option Elab.async false

/-! ## Decoding: words written out from the encodings (03_encoding.md R72 to R98), each with the fields of its format at values of
their own. A 32-bit word has bit 0 set and its major in bits 6 to 1. -/

/-- The n bytes of a word decode to an instruction, and the encoder writes them. -/
def decodes (n : Nat) (p : Nat × Instr) : Bool :=
  (match decode (leBytes n p.1) with | .ok i => i == p.2 | _ => false) && encode p.2 == leBytes n p.1

/-- The bytes are refused. -/
def refuses (n : Nat) (w : Nat) (why : IllegalWhy) : Bool :=
  match decode (leBytes n w) with | .error e => e.why == why | _ => false

/-- Words of the table, format or length A, each with its instruction. -/
def wordsA1 : List (Nat × Instr) :=
  [(0x20308103, .iadd g1 ⟨2, 4, 6, false, false⟩), (0x28308103, .isub g1 ⟨2, 4, 6, false, false⟩),
   (0x30308103, .imul g1 ⟨2, 4, 6, false, false⟩), (0x38308103, .imulh g1 ⟨2, 4, 6, false, false⟩),
   (0x20308105, .imulhu g1 ⟨2, 4, 6, false, false⟩), (0x30308105, .idiv g1 ⟨2, 4, 6, false, false⟩),
   (0x38308105, .irem g1 ⟨2, 4, 6, false, false⟩), (0x20308107, .imin g1 ⟨2, 4, 6, false, false⟩),
   (0x28308107, .imax g1 ⟨2, 4, 6, false, false⟩), (0x30308107, .umin g1 ⟨2, 4, 6, false, false⟩),
   (0x38308107, .umax g1 ⟨2, 4, 6, false, false⟩), (0x20308109, .and g1 ⟨2, 4, 6, false, false⟩)]
def wordsA2 : List (Nat × Instr) :=
  [(0x28308109, .or g1 ⟨2, 4, 6, false, false⟩), (0x30308109, .xor g1 ⟨2, 4, 6, false, false⟩),
   (0x38308109, .andn g1 ⟨2, 4, 6, false, false⟩), (0x2030810B, .shl g1 ⟨2, 4, 6, false, false⟩),
   (0x2830810B, .shr g1 ⟨2, 4, 6, false, false⟩), (0x3030810B, .sar g1 ⟨2, 4, 6, false, false⟩),
   (0x3830810B, .rotl g1 ⟨2, 4, 6, false, false⟩), (0x2030810D, .bfx g1 ⟨2, 4, 6, false, false⟩),
   (0x20308119, .fadd g1 ⟨2, 4, 6, false, false⟩), (0x28308119, .fsub g1 ⟨2, 4, 6, false, false⟩),
   (0x30308119, .fmul g1 ⟨2, 4, 6, false, false⟩), (0x2030811B, .fmin g1 ⟨2, 4, 6, false, false⟩)]
def wordsA3 : List (Nat × Instr) :=
  [(0x2830811B, .fmax g1 ⟨2, 4, 6, false, false⟩), (0x20308121, .sadd g1 ⟨2, 4, 6, false, false⟩),
   (0x28308121, .ssub g1 ⟨2, 4, 6, false, false⟩), (0x30308121, .smul g1 ⟨2, 4, 6, false, false⟩),
   (0x38308121, .sand g1 ⟨2, 4, 6, false, false⟩), (0x20308123, .sor g1 ⟨2, 4, 6, false, false⟩),
   (0x28308123, .sxor g1 ⟨2, 4, 6, false, false⟩), (0x30308123, .sshl g1 ⟨2, 4, 6, false, false⟩),
   (0x38308123, .sshr g1 ⟨2, 4, 6, false, false⟩), (0x20308125, .ssar g1 ⟨2, 4, 6, false, false⟩),
   (0x28008125, .smov g1 ⟨2, 4, 0, false, false⟩), (0x30308125, .srdl g1 ⟨2, 4, 6, false, false⟩)]
def wordsA4 : List (Nat × Instr) :=
  [(0x2030812F, .ladd g1 ⟨2, 4, 6, false, false⟩), (0x2830812F, .lsub g1 ⟨2, 4, 6, false, false⟩),
   (0x3030812F, .ladc g1 ⟨2, 4, 6, false, false⟩), (0x3830812F, .lmuls g1 ⟨2, 4, 6, false, false⟩),
   (0x20308131, .lshl g1 ⟨2, 4, 6, false, false⟩), (0x28308131, .lshr g1 ⟨2, 4, 6, false, false⟩),
   (0x30308031, .lcmp g1 ⟨0, 4, 6, false, false⟩), (0x38008131, .lneg g1 ⟨2, 4, 0, false, false⟩)]
def wordsA : List (Nat × Instr) := wordsA1 ++ wordsA2 ++ wordsA3 ++ wordsA4

theorem test_decode_wordsA : wordsA.all (fun p => decodes 4 p) = true := by decide +kernel

/-- Words of the table, format or length I, each with its instruction. -/
def wordsI : List (Nat × Instr) :=
  [(0x2050810F, .iaddImm g1 ⟨2, 4, false, 5⟩), (0x2850810F, .imulImm g1 ⟨2, 4, false, 5⟩),
   (0x3050810F, .andImm g1 ⟨2, 4, false, 5⟩), (0x3850810F, .orImm g1 ⟨2, 4, false, 5⟩),
   (0x20508111, .xorImm g1 ⟨2, 4, false, 5⟩), (0x28508111, .shlImm g1 ⟨2, 4, false, 5⟩),
   (0x30508111, .shrImm g1 ⟨2, 4, false, 5⟩), (0x38508111, .sarImm g1 ⟨2, 4, false, 5⟩)]

theorem test_decode_wordsI : wordsI.all (fun p => decodes 4 p) = true := by decide +kernel

/-- Words of the table, format or length K, each with its instruction. -/
def wordsK : List (Nat × Instr) :=
  [(0x2000A113, .movi g1 ⟨2, 5⟩), (0x2000A115, .movh g1 ⟨2, 5⟩), (0x2000A129, .smovi g1 ⟨2, 5⟩),
   (0x2000A12B, .smovh g1 ⟨2, 5⟩)]

theorem test_decode_wordsK : wordsK.all (fun p => decodes 4 p) = true := by decide +kernel

/-- Words of the table, format or length C, each with its instruction. -/
def wordsC : List (Nat × Instr) :=
  [(0x240C2197, .icmp g1 ⟨3, 4, 6, false, false, 2⟩), (0x240C219D, .fcmp g1 ⟨3, 4, 6, false, false, 2⟩),
   (0x240C21A7, .scmp g1 ⟨3, 4, 6, false, false, 2⟩)]

theorem test_decode_wordsC : wordsC.all (fun p => decodes 4 p) = true := by decide +kernel

/-- Words of the table, format or length U, each with its instruction. -/
def wordsU1 : List (Nat × Instr) :=
  [(0x3C00811F, .mov g1 ⟨2, 4, false, 7⟩), (0x3C08811F, .not g1 ⟨2, 4, false, 7⟩), (0x3C10811F, .ineg g1 ⟨2, 4, false, 7⟩),
   (0x3C18811F, .iabs g1 ⟨2, 4, false, 7⟩), (0x3C20811F, .popc g1 ⟨2, 4, false, 7⟩), (0x3C28811F, .clz g1 ⟨2, 4, false, 7⟩),
   (0x3C30811F, .brev g1 ⟨2, 4, false, 7⟩), (0x3C38811F, .movs g1 ⟨2, 4, false, 7⟩), (0x3C40811F, .fneg g1 ⟨2, 4, false, 7⟩),
   (0x3C48811F, .fabs g1 ⟨2, 4, false, 7⟩), (0x2450811F, .frcp g1 ⟨2, 4, false, 1⟩), (0x2458811F, .frsq g1 ⟨2, 4, false, 1⟩)]
def wordsU2 : List (Nat × Instr) :=
  [(0x2460811F, .fsqrt g1 ⟨2, 4, false, 1⟩), (0x2468811F, .fexp2 g1 ⟨2, 4, false, 1⟩),
   (0x2470811F, .flog2 g1 ⟨2, 4, false, 1⟩), (0x2478811F, .fsin g1 ⟨2, 4, false, 1⟩),
   (0x2480811F, .fcos g1 ⟨2, 4, false, 1⟩), (0x2488811F, .ftanh g1 ⟨2, 4, false, 1⟩),
   (0x3C90811F, .ffloor g1 ⟨2, 4, false, 7⟩), (0x3C98811F, .fceil g1 ⟨2, 4, false, 7⟩),
   (0x3CA0811F, .frint g1 ⟨2, 4, false, 7⟩), (0x3CA8811F, .fcvti g1 ⟨2, 4, false, 7⟩),
   (0x3CB0811F, .icvtf g1 ⟨2, 4, false, 7⟩), (0x3CB8811F, .fclass g1 ⟨2, 4, false, 7⟩)]
def wordsU3 : List (Nat × Instr) :=
  [(0x3CC0011F, .rand g1 ⟨2, 0, false, 7⟩), (0x3CC8811F, .matchLanes g1 ⟨2, 4, false, 7⟩)]
def wordsU : List (Nat × Instr) := wordsU1 ++ wordsU2 ++ wordsU3

theorem test_decode_wordsU : wordsU.all (fun p => decodes 4 p) = true := by decide +kernel

/-- Words of the table, format or length S, each with its instruction. -/
def wordsS1 : List (Nat × Instr) :=
  [(0x20C2042D, .sld g1 ⟨2, 4, 6, false, false⟩), (0x20C204AD, .sst g1 ⟨2, 4, 6, false, false⟩),
   (0x2002045F, .tspawn g1 ⟨2, 4, 0, false, false⟩), (0x200004DF, .tsync g1 ⟨2, 0, 0, false, false⟩),
   (0x2002055F, .pgrd g1 ⟨2, 4, 0, false, false⟩), (0x200205DF, .pgkey g1 ⟨2, 4, 0, false, false⟩),
   (0x20020461, .palloc g1 ⟨2, 4, 0, false, false⟩), (0x200204E1, .tlog g1 ⟨2, 4, 0, false, false⟩),
   (0x20C20561, .qemit g1 ⟨2, 4, 6, false, false⟩), (0x200205E1, .qread g1 ⟨2, 4, 0, false, false⟩),
   (0x20C20063, .rdecl g1 ⟨0, 4, 6, false, false⟩), (0x20C200E3, .rupd g1 ⟨0, 4, 6, false, false⟩)]
def wordsS2 : List (Nat × Instr) :=
  [(0x20020563, .rget g1 ⟨2, 4, 0, false, false⟩), (0x20020465, .cpy g1 ⟨2, 4, 0, false, false⟩),
   (0x20C204E5, .cpymx g1 ⟨2, 4, 6, false, false⟩), (0x20020565, .cpynb g1 ⟨2, 4, 0, false, false⟩),
   (0x200005E5, .cseal g1 ⟨2, 0, 0, false, false⟩), (0x20020067, .cwaitb g1 ⟨0, 4, 0, false, false⟩),
   (0x20C200E7, .synci g1 ⟨0, 4, 6, false, false⟩), (0x20C22567, .synca g1 ⟨18, 4, 6, false, false⟩),
   (0x20C205E7, .syncw g1 ⟨2, 4, 6, false, false⟩), (0x20020469, .synct g1 ⟨2, 4, 0, false, false⟩),
   (0x20C200E9, .ringi g1 ⟨0, 4, 6, false, false⟩), (0x20020569, .rawait g1 ⟨2, 4, 0, false, false⟩)]
def wordsS3 : List (Nat × Instr) :=
  [(0x200201E9, .rrel g1 ⟨0, 4, 0, false, false⟩), (0x2002046B, .tidset g1 ⟨2, 4, 0, false, false⟩),
   (0x200204EB, .cbload g1 ⟨2, 4, 0, false, false⟩), (0x2002016B, .mxls g1 ⟨0, 4, 0, false, false⟩),
   (0x200001EB, .mxswap g1 ⟨0, 0, 0, false, false⟩), (0x2002006D, .mxstr g1 ⟨0, 4, 0, false, false⟩),
   (0x200200ED, .mxzero g1 ⟨0, 4, 0, false, false⟩), (0x2002056D, .mxrd g1 ⟨2, 4, 0, false, false⟩),
   (0x20C201ED, .mxwr g1 ⟨0, 4, 6, false, false⟩), (0x2002006F, .mxst g1 ⟨0, 4, 0, false, false⟩),
   (0x200204EF, .mxflags g1 ⟨2, 4, 0, false, false⟩), (0x2002016F, .tstamp g1 ⟨0, 4, 0, false, false⟩)]
def wordsS4 : List (Nat × Instr) :=
  [(0x200201EF, .ppoint g1 ⟨0, 4, 0, false, false⟩), (0x20C20471, .csrr g1 ⟨2, 4, 6, false, false⟩),
   (0x20C204F1, .csrw g1 ⟨2, 4, 6, false, false⟩), (0x20000571, .time g1 ⟨2, 0, 0, false, false⟩),
   (0x20C201F1, .bbc g1 ⟨0, 4, 6, false, false⟩), (0x20020473, .migrate g1 ⟨2, 4, 0, false, false⟩)]
def wordsS : List (Nat × Instr) := wordsS1 ++ wordsS2 ++ wordsS3 ++ wordsS4

theorem test_decode_wordsS : wordsS.all (fun p => decodes 4 p) = true := by decide +kernel

/-- Words of the table, format or length M, each with its instruction. -/
def wordsM : List (Nat × Instr) :=
  [(0x20190833, .mand g1 ⟨2, 4, 6, 0, false⟩), (0x201908B3, .mor g1 ⟨2, 4, 6, 0, false⟩),
   (0x20190933, .mxor g1 ⟨2, 4, 6, 0, false⟩), (0x200109B3, .mnot g1 ⟨2, 4, 0, 0, false⟩),
   (0x20800A33, .mmov g1 ⟨2, 0, 0, 2, false⟩), (0x208102B3, .mrd g1 ⟨0, 4, 0, 2, false⟩),
   (0x20990333, .mpopc g1 ⟨0, 4, 6, 2, false⟩), (0x209903B3, .mffs g1 ⟨0, 4, 6, 2, false⟩)]

theorem test_decode_wordsM : wordsM.all (fun p => decodes 4 p) = true := by decide +kernel

/-- Words of the table, format or length X, each with its instruction. -/
def wordsX : List (Nat × Instr) :=
  [(0x28308135, .xrd g1 ⟨2, 4, 6, false, false, 1⟩), (0x28088137, .xbfly g1 ⟨2, 4, 1, false, false, 1⟩),
   (0x29088137, .xbcast g1 ⟨2, 4, 33, false, false, 1⟩), (0x28088139, .xup g1 ⟨2, 4, 1, false, false, 1⟩),
   (0x29088139, .xdn g1 ⟨2, 4, 33, false, false, 1⟩)]

theorem test_decode_wordsX : wordsX.all (fun p => decodes 4 p) = true := by decide +kernel

/-- Words of the table, format or length AT, each with its instruction. -/
def wordsAT1 : List (Nat × Instr) :=
  [(0x2030814B, .atomAdd g1 ⟨2, 4, 6, false, false⟩), (0x2830814B, .atomAnd g1 ⟨2, 4, 6, false, false⟩),
   (0x3030814B, .atomOr g1 ⟨2, 4, 6, false, false⟩), (0x3830814B, .atomXor g1 ⟨2, 4, 6, false, false⟩),
   (0x2030814D, .atomMin g1 ⟨2, 4, 6, false, false⟩), (0x2830814D, .atomMax g1 ⟨2, 4, 6, false, false⟩),
   (0x3030814D, .atomUmin g1 ⟨2, 4, 6, false, false⟩), (0x3830814D, .atomUmax g1 ⟨2, 4, 6, false, false⟩),
   (0x2030814F, .atomXchg g1 ⟨2, 4, 6, false, false⟩), (0x3030814F, .atomFadd g1 ⟨2, 4, 6, false, false⟩),
   (0x3830814F, .atomSub g1 ⟨2, 4, 6, false, false⟩), (0x20308151, .atomlAdd g1 ⟨2, 4, 6, false, false⟩)]
def wordsAT2 : List (Nat × Instr) :=
  [(0x28308151, .atomlAnd g1 ⟨2, 4, 6, false, false⟩), (0x30308151, .atomlOr g1 ⟨2, 4, 6, false, false⟩),
   (0x38308151, .atomlXor g1 ⟨2, 4, 6, false, false⟩), (0x20308153, .atomlMin g1 ⟨2, 4, 6, false, false⟩),
   (0x28308153, .atomlMax g1 ⟨2, 4, 6, false, false⟩), (0x30308153, .atomlUmin g1 ⟨2, 4, 6, false, false⟩),
   (0x38308153, .atomlUmax g1 ⟨2, 4, 6, false, false⟩), (0x20308155, .atomlXchg g1 ⟨2, 4, 6, false, false⟩),
   (0x30308155, .atomlFadd g1 ⟨2, 4, 6, false, false⟩), (0x38308155, .atomlSub g1 ⟨2, 4, 6, false, false⟩)]
def wordsAT : List (Nat × Instr) := wordsAT1 ++ wordsAT2

theorem test_decode_wordsAT : wordsAT.all (fun p => decodes 4 p) = true := by decide +kernel

/-- Words of the table, format or length T, each with its instruction. -/
def wordsT : List (Nat × Instr) :=
  [(0x2000205D, .brx g1 ⟨4, false, 0⟩), (0x200020DD, .callx g1 ⟨4, false, 0⟩), (0x2000015D, .ret g1 ⟨0, false, 0⟩),
   (0x200001DD, .exit g1 ⟨0, false, 0⟩), (0x2000025D, .fuse g1 ⟨0, false, 0⟩), (0x200002DD, .yield g1 ⟨0, false, 0⟩),
   (0x2014035D, .trap g1 ⟨0, false, 5⟩), (0x200003DD, .tret g1 ⟨0, false, 0⟩), (0x2014045D, .brk g1 ⟨0, false, 5⟩),
   (0x202004DD, .lbind g1 ⟨0, false, 8⟩), (0x2000055D, .lfree g1 ⟨0, false, 0⟩), (0x200005DD, .nop g1 ⟨0, false, 0⟩)]

theorem test_decode_wordsT : wordsT.all (fun p => decodes 4 p) = true := by decide +kernel

/-- Words of the table, format or length 16, each with its instruction. -/
def words161 : List (Nat × Instr) :=
  [(0x2882, .iaddC ⟨2, 5, false⟩), (0x2884, .isubC ⟨2, 5, false⟩), (0x2886, .imulC ⟨2, 5, false⟩),
   (0x2888, .andC ⟨2, 5, false⟩), (0x288A, .orC ⟨2, 5, false⟩), (0x288C, .xorC ⟨2, 5, false⟩), (0x2890, .shlC ⟨2, 5, false⟩),
   (0x2892, .shrC ⟨2, 5, false⟩), (0x2894, .sarC ⟨2, 5, false⟩), (0x2896, .movC ⟨2, 5, false⟩),
   (0x2898, .faddC ⟨2, 5, false⟩), (0x289A, .fsubC ⟨2, 5, false⟩)]
def words162 : List (Nat × Instr) :=
  [(0x289C, .fmulC ⟨2, 5, false⟩), (0x28A0, .fminC ⟨2, 5, false⟩), (0x28A2, .fmaxC ⟨2, 5, false⟩),
   (0x28A4, .iminC ⟨2, 5, false⟩), (0x0026, .nopC), (0x0028, .yieldC), (0x001E, .wait 1)]
def words16 : List (Nat × Instr) := words161 ++ words162

theorem test_decode_words16 : words16.all (fun p => decodes 2 p) = true := by decide +kernel

/-- Words of the table, format or length Mem, each with its instruction. -/
def wordsMem1 : List (Nat × Instr) :=
  [(0x2910813B, .ld g1 ⟨2, 4, 2, false, false, 1, 1⟩), (0x2910813D, .ldByte g1 ⟨2, 4, 2, false, false, 1, 1⟩),
   (0x2490813F, .lda g1 ⟨2, 4, 2, false, false, 1, 2⟩), (0x22108141, .st g1 ⟨2, 4, 2, false, false, false, 1⟩),
   (0x22108143, .str g1 ⟨2, 4, 2, false, false, false, 2⟩), (0x23108145, .stf g1 ⟨2, 4, 2, false, false, false, 3⟩),
   (0x30908147, .ldl g1 ⟨2, 4, false, 1, 1, 8⟩), (0x30208149, .stl g1 ⟨2, 4, false, false, 1, 8⟩),
   (0x22108157, .cpy16 g1 ⟨2, 4, 2, false, false, false, 1⟩), (0x22000059, .fence g1 ⟨0, 0, false, false, 2⟩),
   (0x220610D9, .fencer g1 ⟨4, 6, false, false, 2⟩), (0x22000159, .acq g1 ⟨0, 0, false, false, 2⟩)]
def wordsMem2 : List (Nat × Instr) :=
  [(0x220611D9, .acqr g1 ⟨4, 6, false, false, 2⟩), (0x22000259, .rel g1 ⟨0, 0, false, false, 2⟩),
   (0x220612D9, .relr g1 ⟨4, 6, false, false, 2⟩), (0x200109DB, .bra g1 ⟨3, true, 8⟩), (0x200119DB, .call g1 ⟨3, true, 8⟩)]
def wordsMem : List (Nat × Instr) := wordsMem1 ++ wordsMem2

theorem test_decode_wordsMem : wordsMem.all (fun p => decodes 4 p) = true := by decide +kernel

/-- Groups with a PREFIX, which comes first: c = 5 is 0x0002807D; the FFMA and the ATOM CAS are those of 03_encoding.md's worked
encodings. -/
def wordsC8 : List (Nat × Instr) :=
  [(0x283081050002807D, .imad gc ⟨2, 4, 6, false, false⟩), (0x2830810D0002807D, .bfi gc ⟨2, 4, 6, false, false⟩),
   (0x3030810D0002807D, .sel gc ⟨2, 4, 6, false, false⟩), (0x283081550002807D, .atomlCas gc ⟨2, 4, 6, false, false⟩),
   (0x18102419002299FD, .ffma ⟨false, 0, some ⟨3, true, 1, 5, true, false, 0⟩, none⟩ ⟨8, 1, 2, false, false⟩),
   (0x0818434F0283907D, .atomCas ⟨false, 0, some ⟨0, false, 1, 7, false, false, 5⟩, none⟩ ⟨6, 2, 3, false, false⟩)]

theorem test_decode_wordsC8 : wordsC8.all (fun p => decodes 8 p) = true := by decide +kernel

/-- The other worked encodings of 03_encoding.md. -/
theorem test_decode_worked : every [
    decodes 4 (0x02184219, .fadd g0 ⟨4, 2, 3, true, false⟩),
    decodes 4 (0x42184219, .fadd ⟨false, 2, none, none⟩ ⟨4, 2, 3, true, false⟩),
    decodes 2 (0x9918, .faddC ⟨4, 3, true⟩),
    decodes 2 (0x009E, .wait 9),
    decodes 8 (0x114108190000A1FF, .fmul ⟨false, 0, none, some ⟨3, 1, 1, 0, 0⟩⟩ ⟨16, 8, 40, false, false⟩),
    decodes 4 (0x1FFF485B, .bra g0 ⟨0, true, 0xFFFA⟩)] = true := by decide +kernel

/-- Reserved encodings are refused by the reason that the rules give (R75, R79, R86, R88, R95 to R99). -/
theorem test_decode_refused : every [
    refuses 4 0x00000001 .reservedMajor, refuses 4 0x00000075 .reservedMajor, refuses 2 0x0000 .laneForm,
    refuses 4 0x28308105 .pfxRule] = true := by decide +kernel

/-- Each reason with a word of its own (R75, R79 to R82, R85, R88, R91, R95, R98). -/
theorem test_decode_reasons : every [
    refuses 4 0x3830810D .reservedSelector, refuses 4 0x38308135 .reservedCode, refuses 4 0x20309F03 .operandCode,
    refuses 4 0x02370103 .lastUse, refuses 4 0x80370103 .stopBit, refuses 4 0x001E045F .fieldRule, refuses 4 0x201404DD .fieldRule,
    refuses 8 0x114108190000BFFF .repeatRule, refuses 8 0x00260002807D .groupShape] = true := by decide +kernel

/-! ## Well-formed terms -/

/-- A message of a management command, of a port. -/
def mail (op : BitVec 8) (len : Nat) : Msg := ⟨0, 0, 1, 0, 0, 0, .ofNat 16 len, op, 0, List.replicate len 0⟩

/-- For each check of WellFormed.lean a term that it refuses, and beside it one that it lets pass. -/
theorem test_wellFormed_refuses : every [
    !(wellFormed (.thermalTrip 13)), wellFormed (.thermalTrip 12), !(wellFormed (.thermalWarning 13 0)), wellFormed (.thermalWarning 12 0),
    !(wellFormed (.temperatureReport [(13, 0)] 0)), wellFormed (.temperatureReport [(12, 0)] 0),
    !(wellFormed (.energyInterval [⟨40, 0, 0, []⟩])), wellFormed (.energyInterval [⟨39, 0, 0, []⟩]),
    !(wellFormed (.islandTransitionDone 40)), wellFormed (.islandTransitionDone 39),
    !(wellFormed (.patrolScrub ⟨[(40, 1)], [], []⟩)), wellFormed (.patrolScrub ⟨[(39, 1)], [], []⟩),
    !(wellFormed (.coreFailure 1024)), wellFormed (.coreFailure 1023),
    !(wellFormed (.portTrainingDone 9 0)), wellFormed (.portTrainingDone 8 0), !(wellFormed (.portTrainingTimeout 9)),
    !(wellFormed (.portRetrain 9)), !(wellFormed (.laneFailure 9 0)), !(wellFormed (.laneRestore 9 0)),
    !(wellFormed (.claimNonceExpiry 9 0)), !(wellFormed (.retransmitTimeout 9 0))] = true := by decide +kernel

theorem test_wellFormed_messages : every [
    !(wellFormed (.openConn (mail 0x02 0))), wellFormed (.openConn (mail 0x01 0)),
    !(wellFormed (.build { mail 0x20 8 with len := 7 })), wellFormed (.build (mail 0x20 8)),
    !(wellFormed (.run { mail 0x21 0 with port := 9 })), wellFormed (.run { mail 0x21 0 with port := 8 }),
    !(wellFormed (.read (mail 0 4))), wellFormed (.read { mail 0 0 with len := 4 }),
    !(wellFormed (.write { mail 0 4 with len := 5 })), wellFormed (.write (mail 0 4)),
    !(wellFormed (.write (mail 0 4097))), wellFormed (.write (mail 0 4096)),
    !(wellFormed (.completionQueueRdWrite (mail 0x03 8))), wellFormed (.completionQueueRdWrite (mail 0x04 8))] = true := by decide +kernel

/-- Instructions against the rules of their encoding. -/
theorem test_wellFormed_groups : every [
    !(wellFormed (.iadd g0 ⟨62, 4, 6, false, false⟩)), !(wellFormed (.iadd g0 ⟨56, 4, 6, false, false⟩)),
    wellFormed (.iadd g0 ⟨55, 4, 6, false, false⟩),
    !(wellFormed (.imad g0 ⟨2, 4, 6, false, false⟩)), wellFormed (.imad gc ⟨2, 4, 6, false, false⟩), !(wellFormed (.iadd gc ⟨2, 4, 6, false, false⟩)),
    !(wellFormed (.iadd ⟨true, 0, none, none⟩ ⟨2, 56, 6, false, false⟩)), wellFormed (.iadd ⟨true, 0, none, none⟩ ⟨2, 4, 6, false, false⟩),
    !(wellFormed (.fmul ⟨false, 0, none, some ⟨40, 1, 0, 0, 0⟩⟩ ⟨16, 8, 40, false, false⟩)),
    wellFormed (.fmul ⟨false, 0, none, some ⟨39, 1, 0, 0, 0⟩⟩ ⟨16, 8, 40, false, false⟩),
    !(wellFormed (.lbind g0 ⟨0, false, 5⟩)), wellFormed (.lbind g0 ⟨0, false, 8⟩),
    !(wellFormed (.fence g0 ⟨0, 0, false, false, 12⟩)), wellFormed (.fence g0 ⟨0, 0, false, false, 11⟩)] = true := by decide +kernel

/-! ## One instruction on a small state: results by hand from the rules -/

/-- v2 in lanes 0 and 31 after an instruction that reads v4, v6, v5 and v2. -/
def gives (i : Instr) (a b c d r : Word) : Bool := next i (withV a b c d) (fun t => vAt t 2 0 == r && vAt t 2 31 == r)

/-- s2 after an instruction that reads s4 and s6. -/
def givesS (i : Instr) (a b r : DWord) : Bool := next i (withS a b) (fun t => sAt t 2 == r)

def oA : OpsA := ⟨2, 4, 6, false, false⟩
def oU : OpsU := ⟨2, 4, false, 7⟩

/-- R158, R159: sums and products modulo 2^32, the high halves, counts that act whole. -/
theorem test_integer : every [
    gives (.iadd g0 oA) 0xFFFFFFFF 2 0 0 1, gives (.isub g0 oA) 1 2 0 0 0xFFFFFFFF, gives (.imul g0 oA) 0x10001 0x10001 0 0 0x20001,
    gives (.imulh g0 oA) 0xFFFFFFFE 3 0 0 0xFFFFFFFF, gives (.imulhu g0 oA) 0xFFFFFFFF 2 0 0 1, gives (.imad gc oA) 3 5 7 0 22,
    gives (.imin g0 oA) 0xFFFFFFFF 1 0 0 0xFFFFFFFF, gives (.imax g0 oA) 0xFFFFFFFF 1 0 0 1, gives (.umin g0 oA) 0xFFFFFFFF 1 0 0 1,
    gives (.umax g0 oA) 0xFFFFFFFF 1 0 0 0xFFFFFFFF, gives (.and g0 oA) 0xF0F0 0xFF00 0 0 0xF000, gives (.or g0 oA) 0xF0F0 0xFF00 0 0 0xFFF0,
    gives (.xor g0 oA) 0xF0F0 0xFF00 0 0 0x0FF0, gives (.andn g0 oA) 0xF0F0 0xFF00 0 0 0x00F0, gives (.shl g0 oA) 1 32 0 0 0,
    gives (.shr g0 oA) 0x80000000 31 0 0 1, gives (.sar g0 oA) 0x80000000 40 0 0 0xFFFFFFFF, gives (.rotl g0 oA) 0x80000001 33 0 0 3] = true := by
  decide +kernel

/-- R160, R161, R162: fields, selection, immediates (7 bits, signed), constants. -/
theorem test_fields_and_constants : every [
    gives (.bfx g0 oA) 0x12345678 0x0808 0 0 0x56, gives (.bfi gc oA) 0xFFFFFFFF 0x12 0x0804 0 0xFFFFF12F, gives (.sel gc oA) 1 2 0 0 2,
    gives (.sel gc oA) 1 2 9 0 1, gives (.iaddImm g0 ⟨2, 4, false, 0x7F⟩) 5 0 0 0 4, gives (.imulImm g0 ⟨2, 4, false, 3⟩) 7 0 0 0 21,
    gives (.andImm g0 ⟨2, 4, false, 0x7F⟩) 0xABCD 0 0 0 0xABCD, gives (.orImm g0 ⟨2, 4, false, 1⟩) 6 0 0 0 7,
    gives (.xorImm g0 ⟨2, 4, false, 0x7F⟩) 0 0 0 0 0xFFFFFFFF, gives (.shlImm g0 ⟨2, 4, false, 4⟩) 1 0 0 0 16,
    gives (.shrImm g0 ⟨2, 4, false, 4⟩) 0x80000000 0 0 0 0x08000000, gives (.sarImm g0 ⟨2, 4, false, 4⟩) 0x80000000 0 0 0 0xF8000000,
    gives (.movi g0 ⟨2, 0xFFFF⟩) 0 0 0 0 0xFFFFFFFF, gives (.movh g0 ⟨2, 0x1234⟩) 0 0 0 0x5678 0x12345678] = true := by
  decide +kernel

/-- R164, R180: functions of one source. -/
theorem test_unary : every [
    gives (.mov g0 oU) 7 0 0 0 7, gives (.not g0 oU) 0 0 0 0 0xFFFFFFFF, gives (.ineg g0 oU) 1 0 0 0 0xFFFFFFFF,
    gives (.iabs g0 oU) 0x80000000 0 0 0 0x80000000, gives (.popc g0 oU) 0xF0F0 0 0 0 8, gives (.clz g0 oU) 1 0 0 0 31,
    gives (.clz g0 oU) 0 0 0 0 32, gives (.brev g0 oU) 1 0 0 0 0x80000000, gives (.fneg g0 oU) 0x3F800000 0 0 0 0xBF800000,
    gives (.fabs g0 oU) 0xBF800000 0 0 0 0x3F800000, gives (.ffloor g0 oU) 0xBFC00000 0 0 0 0xC0000000,
    gives (.fceil g0 oU) 0x3FC00000 0 0 0 0x40000000, gives (.frint g0 oU) 0x40200000 0 0 0 0x40000000,
    gives (.fcvti g0 oU) 0x40200000 0 0 0 2, gives (.icvtf g0 oU) 0xFFFFFFFF 0 0 0 0xBF800000] = true := by decide +kernel

/-- R176 to R178: 1 + 1, 1 - 1.5, 1.5 * 2, 1 * 2 + 3; the lesser and the greater. -/
theorem test_float : every [
    gives (.fadd g0 oA) 0x3F800000 0x3F800000 0 0 0x40000000, gives (.fsub g0 oA) 0x3F800000 0x3FC00000 0 0 0xBF000000,
    gives (.fmul g0 oA) 0x3FC00000 0x40000000 0 0 0x40400000, gives (.ffma gc oA) 0x3F800000 0x40000000 0x40400000 0 0x40A00000,
    gives (.fmin g0 oA) 0xBF800000 0x3F800000 0 0 0xBF800000, gives (.fmax g0 oA) 0xBF800000 0x3F800000 0 0 0x3F800000] = true := by
  decide +kernel

/-- R168, R170: scalars, and comparisons into masks. -/
theorem test_scalar : every [
    givesS (.sadd g0 oA) 0xFFFFFFFFFFFFFFFF 2 1, givesS (.ssub g0 oA) 1 2 0xFFFFFFFFFFFFFFFF, givesS (.smul g0 oA) 0x100000001 0x100000001 0x200000001,
    givesS (.sand g0 oA) 6 3 2, givesS (.sor g0 oA) 6 3 7, givesS (.sxor g0 oA) 6 3 5, givesS (.sshl g0 oA) 1 64 0,
    givesS (.sshr g0 oA) 0x8000000000000000 63 1, givesS (.ssar g0 oA) 0x8000000000000000 70 0xFFFFFFFFFFFFFFFF, givesS (.smov g0 ⟨2, 4, 0, false, false⟩) 9 0 9,
    next (.scmp g0 ⟨3, 4, 6, false, false, 2⟩) (withS 0xFFFFFFFFFFFFFFFF 0) (fun t => mAt t 3 == 0xFFFFFFFF#32),
    next (.scmp g0 ⟨3, 4, 6, false, false, 6⟩) (withS 0xFFFFFFFFFFFFFFFF 0) (fun t => mAt t 3 == 0),
    next (.icmp g0 ⟨3, 4, 6, false, false, 2⟩) (withV 0xFFFFFFFF 0 0 0) (fun t => mAt t 3 == 0xFFFFFFFF#32),
    next (.fcmp g0 ⟨3, 4, 6, false, false, 2⟩) (withV 0x7FC00000 0 0 0) (fun t => mAt t 3 == 0),
    next (.smovi g0 ⟨2, 0x8000⟩) ready (fun t => sAt t 2 == 0xFFFFFFFFFFFF8000), next (.smovh g0 ⟨4, 0x1234⟩) (withS 0x5678 0) (fun t => sAt t 4 == 0x56781234),
    next (.movs g0 oU) (withS 0x1122334455667788 0) (fun t => vAt t 2 5 == 0x55667788),
    next (.srdl g0 oA) (withWarp ready (fun w => putV 4 (fun l => .ofNat 32 (3 * l)) (putS 6 33 w))) (fun t => sAt t 2 == 3)] = true := by decide +kernel

/-- R135: mask instructions. -/
theorem test_masks : every [
    next (.mand g0 ⟨2, 4, 6, 0, false⟩) (withM 6 3) (fun t => mAt t 2 == 2), next (.mor g0 ⟨2, 4, 6, 0, false⟩) (withM 6 3) (fun t => mAt t 2 == 7),
    next (.mxor g0 ⟨2, 4, 6, 0, false⟩) (withM 6 3) (fun t => mAt t 2 == 5), next (.mnot g0 ⟨2, 4, 0, 0, false⟩) (withM 6 3) (fun t => mAt t 2 == 0xFFFFFFF9#32),
    next (.mmov g0 ⟨2, 0, 0, 4, false⟩) (withS 0xF00000005 0) (fun t => mAt t 2 == 5), next (.mrd g0 ⟨0, 4, 0, 2, false⟩) (withM 6 3) (fun t => sAt t 2 == 6),
    next (.mpopc g0 ⟨0, 4, 6, 2, false⟩) (withM 6 3) (fun t => sAt t 2 == 1), next (.mffs g0 ⟨0, 4, 6, 2, false⟩) (withM 6 3) (fun t => sAt t 2 == 1),
    next (.mffs g0 ⟨0, 4, 6, 2, false⟩) (withM 4 3) (fun t => sAt t 2 == 32), next (.mnot g0 ⟨0, 4, 0, 0, false⟩) (withM 6 3) (fun t => mAt t 0 == 0xFFFFFFFF#32)] = true := by
  decide +kernel

/-- v4 holds each lane's number, v6 the lane below it, v2 is 7. -/
def lanesNumbered : State :=
  withWarp ready (fun w => putV 4 (fun l => .ofNat 32 l) (putV 6 (fun l => .ofNat 32 (l + 31)) (putV 2 (fun _ => 7) w)))

/-- R211 to R213, R217: exchanges with each fill, and MATCH. -/
theorem test_crosslane : every [
    next (.xrd g0 ⟨2, 4, 6, false, false, 0⟩) lanesNumbered (fun t => vAt t 2 0 == 31 && vAt t 2 5 == 4),
    next (.xbfly g0 ⟨2, 4, 1, false, false, 0⟩) lanesNumbered (fun t => vAt t 2 0 == 1 && vAt t 2 31 == 30),
    next (.xbcast g0 ⟨2, 4, 37, false, false, 0⟩) lanesNumbered (fun t => vAt t 2 0 == 5 && vAt t 2 31 == 5),
    next (.xup g0 ⟨2, 4, 1, false, false, 0⟩) lanesNumbered (fun t => vAt t 2 0 == 0 && vAt t 2 31 == 30),
    next (.xup g0 ⟨2, 4, 1, false, false, 1⟩) lanesNumbered (fun t => vAt t 2 0 == 7),
    next (.xdn g0 ⟨2, 4, 33, false, false, 2⟩) lanesNumbered (fun t => vAt t 2 0 == 1 && vAt t 2 31 == 31),
    next (.matchLanes g0 oU) lanesNumbered (fun t => vAt t 2 3 == 8), gives (.matchLanes g0 oU) 5 0 0 0 0xFFFFFFFF] = true := by decide +kernel

/-- R86, R155: under a mask the result goes to the lanes of ACTIVE; mz zeroes the rest of the split. -/
theorem test_masked : every [
    next (.iadd (gm 6 false) oA) (withWarp (withV 1 2 0 9) (putM 6 1)) (fun t => vAt t 2 0 == 3 && vAt t 2 1 == 9),
    next (.iadd (gm 6 true) oA) (withWarp (withV 1 2 0 9) (putM 6 1)) (fun t => vAt t 2 0 == 3 && vAt t 2 1 == 0)] = true := by decide +kernel

/-- R92: a repetition advances its fields and stays at its group; the last goes on. -/
theorem test_repeat : every [
    next (.iadd ⟨false, 0, none, some ⟨1, 1, 0, 0, 0⟩⟩ oA) (withV 1 2 0 0)
      (fun t => vAt t 2 0 == 3 && getAt 0 (w0 t).rep 0 == 1 && getAt 0 (w0 t).pc 0 == 0),
    next (.iadd ⟨false, 0, none, some ⟨1, 1, 0, 0, 0⟩⟩ oA) (withWarp (withV 1 2 0 0) (fun w => { w with rep := List.replicate 32 1 }))
      (fun t => vAt t 3 0 == 3 && getAt 0 (w0 t).rep 0 == 0 && getAt 0 (w0 t).pc 0 == 8)] = true := by decide +kernel

/-- R125, R126: a branch goes to its offset in halfwords; CALL pushes the address of the next group. -/
theorem test_branches : every [
    next (.bra g0 ⟨0, true, 0xFFFA⟩) (withWarp ready (fun w => { w with pc := List.replicate 32 0x10 })) (fun t => getAt 0 (w0 t).pc 31 == 4),
    next (.call g0 ⟨0, true, 8⟩) ready (fun t => getAt 0 (w0 t).pc 0 == 16 && getAt 0 (w0 t).depth 0 == 1 && (w0 t).stack.length == 32),
    next (.exit g0 ⟨0, false, 0⟩) ready (fun t => (t.warps.map (fun w => w.exited)).all (fun m => m == 0xFFFFFFFF#32)),
    next (.yieldC) ready (fun t => (w0 t).yielded)] = true := by decide +kernel

/-- R316, R322: a TRAP that the context does not handle faults it, with the cause and its CODE in the record. -/
theorem test_trap_faults : next (.trap g0 ⟨0, false, 5⟩) ready (fun t => (ctxOf t 0).st == .faulted && fr (ctxOf t 0).faultrec 1 1 == 0x3F) = true := by
  decide +kernel

/-! ## The standards of signatures -/

/-- FIPS 180-4's example: the digest of "abc". -/
theorem test_sha384_abc : sha384 [0x61, 0x62, 0x63] = natBe 48
    0xCB00753F45A35E8BB5A03D699AC65007272C32AB0EDED1631A8B605A43FF5BED8086072BA1E7CC2358BAECA134C825A7 := by
  decide +kernel

/-- RFC 6979, appendix A.2.6: the public key, and the signature of "sample" with SHA-384, their numbers low byte first as R4 has them; the digest of another text does not verify. -/
theorem test_ecdsa_sample :
    let key : List Byte := 4 ::
      natLe 48 0xEC3A4E415B4E19A4568618029F427FA5DA9A8BC4AE92E02E06AAE5286B300C64DEF8F0EA9055866064A254515480BC13 ++
      natLe 48 0x8015D9B72D7D57244EA8EF9AC0C621896708A59367F9DFB9F54CA84B3F1C9DB1288B231C3AE0D4FE7344FD2533264720
    let sig : List Byte :=
      natLe 48 0x94EDBB92A5ECB8AAD4736E56C691916B3F88140666CE9FA73D64C4EA95AD133C81A648152E44ACF96E36DD1E80FABE46 ++
      natLe 48 0x99EF4AEB15F178CEA1FE40DB2603138F130E740A19624526203B6351D0A3A94FA329C145786E679E7B82C71A38628AC8
    ecdsaVerify key (sha384 [0x73, 0x61, 0x6D, 0x70, 0x6C, 0x65]) sig = true ∧
      ecdsaVerify key (sha384 [0x73, 0x61, 0x6D, 0x70, 0x6C]) sig = false := by
  decide +kernel

end Sys2Proof.Tests
end

