-- ==== Sys2Proof/Tests/WitnessLanes.lean ====
section
/-! SUPPORT. For the statements about lane, scalar, mask, cross-lane, floating-point and long-integer instructions: states and operands
that meet their hypotheses, by evaluation, and there their conclusions. -/

namespace Sys2Proof.Tests

open Sys2Proof.Machine Sys2Proof.Claim

set_option maxRecDepth 100000
set_option Elab.async false

/-- Operands that differ by lane, a mask of some lanes, scalars. -/
def mixed : State :=
  withWarp ready (fun w => putV 4 (fun l => .ofNat 32 (0x3F800000 * l + l)) (putV 6 (fun l => .ofNat 32 (3 * l + 1))
    (putV 5 (fun l => .ofNat 32 (5 * l)) (putV 2 (fun l => .ofNat 32 (l + 100)) (putM 6 0x0F0F3355 (putM 4 0x12345678
      (putS 4 0x8000000000000007 (putS 6 0x21 w))))))))

/-- The same with numbers of every size in v5 and v6. -/
def mixedWide : State := withWarp mixed (fun w => putV 6 (fun l => .ofNat 32 (0x7FFFFFF1 * l + 3)) (putV 5 (fun l => .ofNat 32 (0x40490FDB + l * l)) w))

/-- The instructions of a list that meet a condition. -/
def those (ws : List (Nat × Instr)) (f : Instr → Bool) : List Instr := (ws.map (fun p => p.2)).filter f

/-- The group issues in a state of operands that differ by lane, completes, and gives the result that the statement says. -/
def laneOk (i : Instr) (d : Nat) (f : Iss → Nat → Word) : Bool :=
  after i mixed (fun sh s1 x t => completes sh x s1 t [d] [] [] 0 && keepsRest x t && laneResult sh x t d (f x))

/-- R77, R158 to R162, R164, R178, R180: every instruction of the two-source table, in full and in the short forms. -/
theorem witness_LaneInstructions_two : (those wordsA (fun i => (twoSource i).isSome)).length = 20 ∧
    (those words16 (fun i => (twoSource i).isSome)).length = 12 ∧
    (those (wordsA ++ words16) (fun i => (twoSource i).isSome)).all (fun i =>
      match shapeOf i, twoSource i with
      | some sh, some f =>
        match sh.code.body with
        | .A o => laneOk i o.d.toNat (fun x l => f (lane (x.v o.a) l) (lane (x.v o.b) l))
        | _ => false
      | _, _ => false) = true := by decide +kernel

/-- R158, R160, R88: the third source; with a mask and mz; d = 60 and a last use. -/
theorem witness_LaneInstructions_three : [Instr.imad gc oA, .bfi gc oA, .sel gc oA,
      .imad ⟨false, 0, some ⟨6, true, 0, 5, true, false, 0⟩, none⟩ ⟨60, 4, 6, true, false⟩].all (fun i =>
      match shapeOf i, threeSource i with
      | some sh, some f =>
        match sh.code.body with
        | .A o => laneOk i o.d.toNat (fun x l => f (lane (x.v o.a) l) (lane (x.v o.b) l) (lane x.cv l))
        | _ => false
      | _, _ => false) = true := by decide +kernel

/-- R161, R162, R164, R180: immediates, constants, functions of one source, with a mask and without. -/
theorem witness_LaneInstructions_one :
    ((those wordsI (fun i => (immediate i).isSome)).length = 8 ∧ (those wordsI (fun i => (immediate i).isSome)).all (fun i =>
      match shapeOf i, immediate i with
      | some sh, some (s5, f) =>
        match sh.code.body with
        | .I o => laneOk i o.d.toNat (fun x l => f (lane (x.v o.a) l) (if s5 then .ofNat 32 (o.imm.toNat % 32) else .ofInt 32 o.imm.toInt))
        | _ => false
      | _, _ => false) = true) ∧
    laneOk (.movi (gm 6 true) ⟨2, 0x8001⟩) 2 (fun _ _ => .ofInt 32 (0x8001#16).toInt) = true ∧
    laneOk (.movh (gm 6 false) ⟨2, 0x8001⟩) 2 (fun x l => .ofNat 32 (0x8001 * 2 ^ 16 + (lane (x.v 2) l).toNat % 2 ^ 16)) = true ∧
    (those (wordsU ++ words16) (fun i => (unary i).isSome)).length = 13 ∧
    (those (wordsU ++ words16) (fun i => (unary i).isSome)).all (fun i =>
      match shapeOf i, unary i with
      | some sh, some f =>
        match sh.code.body with
        | .U o => laneOk i o.d.toNat (fun x l => f (lane (x.v o.a) l))
        | _ => false
      | _, _ => false) = true := by decide +kernel

/-- R163, R179: ICMP and FCMP with every condition they have, under a mask that selects, with mz. -/
theorem witness_LaneInstructions_compare : ((List.range 8).map (fun k => Instr.icmp (gm 6 true) ⟨3, 4, 6, false, false, .ofNat 3 k⟩) ++
      (List.range 8).map (fun k => Instr.fcmp g0 ⟨3, 4, 6, false, false, .ofNat 3 k⟩)).all (fun i =>
      match laneCompare i with
      | some f =>
        after i mixed (fun sh s1 x t =>
          match x.c.body with
          | .C o => completes sh x s1 t [] [] [o.md.toNat] 0 && keepsRest x t && laneIdx.all (fun l => laneBit (mAt t 3) l ==
              (if laneBit x.written l then laneBit x.act l && f o.cond.toNat (lane (x.v o.a) l) (lane (x.v o.b) l) else laneBit (mGet x.w.regs 3) l))
          | _ => false)
      | none => false) = true := by decide +kernel

/-- R168 to R171, R135: scalar arithmetic and the mask instructions. -/
theorem witness_ScalarsAndMasks : (those wordsA (fun i => (scalarTwo i).isSome)).length = 10 ∧
    (those wordsA (fun i => (scalarTwo i).isSome)).all (fun i =>
      match scalarTwo i with
      | some f => after i mixed (fun sh s1 x t =>
          match x.c.body with
          | .A o => completes sh x s1 t [] [o.d.toNat] [] 0 && keepsRest x t && sAt t o.d.toNat == f (x.s o.a.toNat) (x.s o.b.toNat)
          | _ => false)
      | none => false) = true ∧
    (those wordsM (fun i => (maskWrite i).isSome)).length = 5 ∧ (those wordsM (fun i => (maskCountOf i).isSome)).length = 3 ∧
    (those wordsM (fun i => (maskWrite i).isSome)).all (fun i =>
      match maskWrite i with
      | some f => after i mixed (fun sh s1 x t =>
          match x.c.body with
          | .M o => completes sh x s1 t [] [] [o.md.toNat] 0 && keepsRest x t && laneIdx.all (fun l => laneBit (mAt t o.md.toNat) l ==
              (if laneBit x.split l then f (x.m o.ma.toNat) (x.m o.mb.toNat) (x.s o.s.toNat) l else laneBit (mGet x.w.regs o.md.toNat) l))
          | _ => false)
      | none => false) = true ∧
    (those wordsM (fun i => (maskCountOf i).isSome)).all (fun i =>
      match maskCountOf i with
      | some f => after i mixed (fun sh s1 x t =>
          match x.c.body with
          | .M o => completes sh x s1 t [] [o.s.toNat] [] 0 && keepsRest x t && sAt t o.s.toNat == .ofNat 64 (f (x.m o.ma.toNat) (x.m o.mb.toNat))
          | _ => false)
      | none => false) = true := by decide +kernel

/-- R169 to R171: MOVS, SRDL, SMOVI, SMOVH and SCMP of each condition. -/
theorem witness_ScalarsAndMasks_other : every [
    after (.movs g0 oU) mixed (fun sh s1 x t => completes sh x s1 t [2] [] [] 0 && keepsRest x t && laneResult sh x t 2 (fun _ => 7)),
    after (.srdl g0 oA) mixed (fun sh s1 x t => completes sh x s1 t [] [2] [] 0 && keepsRest x t && sAt t 2 == .ofNat 64 (lane (x.v 4) 1).toNat),
    after (.smovi g0 ⟨2, 0x8001⟩) mixed (fun sh s1 x t => completes sh x s1 t [] [2] [] 0 && keepsRest x t && sAt t 2 == .ofInt 64 (0x8001#16).toInt),
    after (.smovh g0 ⟨4, 0x8001⟩) mixed (fun sh s1 x t => completes sh x s1 t [] [4] [] 0 && keepsRest x t && sAt t 4 == 0x0000000000078001),
    (List.range 8).all (fun k => after (.scmp g0 ⟨3, 4, 6, false, false, .ofNat 3 k⟩) mixed (fun sh s1 x t =>
      completes sh x s1 t [] [] [3] 0 && keepsRest x t && mAt t 3 == (if condHolds k (x.s 4) (x.s 6) then 0xFFFFFFFF#32 else 0)))] = true := by
  decide +kernel

/-- R211 to R217, R382: exchanges of each fill under a mask, MATCH, RAND before and at the end of its draws. -/
theorem witness_CrossLaneResults : ([0, 1, 2].flatMap (fun f => [Instr.xrd (gm 6 false) ⟨2, 4, 6, false, false, .ofNat 2 f⟩,
      .xbfly (gm 6 true) ⟨2, 4, 31, false, false, .ofNat 2 f⟩, .xbcast (gm 6 false) ⟨2, 4, 63, false, false, .ofNat 2 f⟩,
      .xup g0 ⟨2, 4, 31, false, false, .ofNat 2 f⟩, .xdn g0 ⟨2, 4, 33, false, false, .ofNat 2 f⟩])).all (fun i =>
      match sourceLane i with
      | some src => after i mixed (fun sh s1 x t =>
          match x.c.body with
          | .X o => completes sh x s1 t [2] [] [] 0 && keepsRest x t && laneResult sh x t 2 (fun l =>
              exchanged x.act (x.v o.a) (x.v o.d) o.fill.toNat (src (x.v o.b) (o.b.toNat % 32) l) l)
          | _ => false)
      | none => false) = true ∧
    after (.matchLanes (gm 6 true) oU) mixed (fun sh s1 x t => completes sh x s1 t [2] [] [] 0 && keepsRest x t && laneResult sh x t 2 (fun l =>
      mkMask (fun j => laneBit x.act j && decide (lane (x.v 4) j = lane (x.v 4) l)))) = true ∧
    after (.rand g0 ⟨2, 0, false, 7⟩) (withWarp mixed (fun w => { w with regs := { w.regs with draw := 0x3FFFFFFF } })) (fun sh s1 x t =>
      completes sh x s1 t [2] [] [] 0 && (w0 t).regs.draw == 0x40000000 && laneResult sh x t 2 (fun l =>
        drawBits (strandKey (strandOf s1 x.w)) x.w.regs.draw l)) = true ∧
    raises (.rand g0 ⟨2, 0, false, 7⟩) (withWarp mixed (fun w => { w with regs := { w.regs with draw := 0x40000000 } })) .pedigreeRank none 0 = true := by
  decide +kernel

/-- FLAGS of a list of lanes' flags. -/
def flagsOf (x : Iss) (f : Nat → BitVec 32) : BitVec 32 := (lanesOf x.act).foldl (fun m l => m ||| f l) 0

/-- Groups that round in each mode, and dyn. -/
def rounded (k : Nat) : Grp := ⟨false, 0, some ⟨6, false, .ofNat 3 k, 0, false, false, 0⟩, none⟩
def roundedC (k : Nat) : Grp := ⟨false, 0, some ⟨0, false, .ofNat 3 k, 5, false, false, 0⟩, none⟩

/-- R50 to R52, R176, R177, R180: sums, products and conversions in every rounding mode. -/
theorem witness_FloatResults_two :
    ((List.range 7).flatMap (fun k => [Instr.fadd (rounded k) oA, .fsub (rounded k) oA, .fmul (rounded k) oA]) ++ [Instr.faddC ⟨2, 5, false⟩, Instr.fsubC ⟨2, 4, true⟩,
      Instr.fmulC ⟨2, 6, false⟩]).all (fun i =>
      match floatTwo i with
      | some f => after i mixedWide (fun sh s1 x t =>
          match x.c.body with
          | .A o =>
            let r (l : Nat) := f (roundingAt s1 x l) (lane (x.v o.a) l) (lane (x.v o.b) l)
            completes sh x s1 t [2] [] [] (flagsOf x (fun l => (r l).2)) && keepsRest x t && laneResult sh x t 2 (fun l => (r l).1) &&
              (w0 t).regs.q == x.w.regs.q + (if (roundingAt s1 x 0).mode = 5 then 1 else 0)
          | _ => false)
      | none => false) = true := by decide +kernel

theorem witness_FloatResults_other :
    (List.range 7).all (fun k => after (.ffma (roundedC k) oA) mixedWide (fun sh s1 x t =>
      let r (l : Nat) := ffmaOp (roundingAt s1 x l) (lane (x.v 4) l) (lane (x.v 6) l) (lane x.cv l)
      completes sh x s1 t [2] [] [] (flagsOf x (fun l => (r l).2)) && keepsRest x t && laneResult sh x t 2 (fun l => (r l).1))) = true ∧
    ((List.range 7).flatMap (fun k => [Instr.frint (rounded k) oU, .fcvti (rounded k) oU, .icvtf (rounded k) oU])).all (fun i =>
      match floatOne i with
      | some f => after i mixed (fun sh s1 x t =>
          let r (l : Nat) := f (roundingAt s1 x l) (lane (x.v 4) l)
          completes sh x s1 t [2] [] [] (flagsOf x (fun l => (r l).2)) && keepsRest x t && laneResult sh x t 2 (fun l => (r l).1) &&
            (w0 t).regs.q == x.w.regs.q + (if (roundingAt s1 x 0).mode = 5 then 1 else 0))
      | none => false) = true := by decide +kernel

/-- R57: FMIN and FMAX on zeros, subnormals, infinities and NaNs, each with each, and what they give for some. -/
theorem witness_MinimumAndMaximum :
    (let ks : List Word := [0, 0x80000000, 1, 0x80000001, 0x3F800000, 0xBF800000, 0x7F800000, 0xFF800000, 0x7F800001, 0xFFC00000, 0x7FC00000]
     let st (k : Nat) := withWarp mixed (fun w => putV 6 (fun l => ks.getD (l % 11) 0) (putV 5 (fun l => ks.getD (l % 11) 0)
       (putV 2 (fun l => ks.getD ((l + k) % 11) 0) (putV 4 (fun l => ks.getD ((l + k) % 11) 0) w))))
     [Instr.fmin (gm 6 true) oA, .fmax g0 oA, .fminC ⟨2, 5, false⟩, .fmaxC ⟨2, 5, false⟩].all (fun i =>
       match extremum i with
       | some f => [0, 1, 2, 3, 4, 5].all (fun k => after i (st k) (fun sh s1 x t =>
           match x.c.body with
           | .A o => completes sh x s1 t [2] [] [] 0 && keepsRest x t &&
               laneResult sh x t 2 (fun l => f (lane (x.v o.a) l) (lane (x.v o.b) l))
           | _ => false))
       | none => false)) = true ∧
    numberOr (fun a _ => a) 0x7F800001 0xFFC00000 = 0x7FC00000 ∧ valueKey 0x80000000 < valueKey 0 ∧
    valueKey 0xFF800000 < valueKey 0xBF800000 := by decide +kernel

/-- R183: each SFU function issues on f1, at a count of 62; and without a flag. -/
theorem witness_SfuFunctionsIssue : (those wordsU (fun i => (sfuOne i).isSome)).length = 8 ∧
    ((those wordsU (fun i => (sfuOne i).isSome)) ++ [Instr.frcp g0 ⟨2, 4, false, 7⟩, Instr.fsqrt (rounded 5) ⟨60, 4, false, 7⟩]).all (fun i =>
      issues i (withWarp mixed (fun w => { w with f := setAt 0 w.f 1 62 })) (fun _ _ x => (flagOf x.c).all (fun n => getAt 0 x.w.f n < 63)) &&
      match exec i mixed with | .next t => t.issue.isNone && (w0 t).pend.length == 1 | _ => false) = true := by decide +kernel

/-- A warp bound in groups of eight lanes. -/
def bound8 : State := withWarp mixed (fun w => { w with limbst := 3, carryx := (List.range 32).map (fun l => .ofNat 32 (7 * l)) })

/-- R226 to R229: the long-integer instructions in groups of eight lanes, their limbs, flags and carries. -/
theorem witness_LongIntegersIssue : (those wordsA (fun i => (longResult i).isSome)).length = 8 ∧
    (those wordsA (fun i => (longResult i).isSome)).all (fun i =>
      match longResult i with
      | some f => after i bound8 (fun sh s1 x t =>
          match x.c.body with
          | .A o =>
            let n := boundSize x.w
            let res (l : Nat) := f n (limbs (longV x o.a) (l / n * n) n)
              (if isLmuls i || isLneg i then 0 else limbs (longV x o.b) (l / n * n) n)
              (if isLmuls i || isLneg i then 0 else (lane (longV x o.b) (l / n * n)).toNat)
              (if isLmuls i then limbs (longV x o.d) (l / n * n) n else 0) (bit (laneBit (longC x) (l / n * n)))
              (if isLmuls i then (x.s o.b.toNat).toNat % 2 ^ 32 else 0)
            n == 8 && decide (getAt 0 x.w.f 11 < 63) && completes sh x s1 t (if isLcmp i then [] else [o.d.toNat]) [] [] 0 &&
              goesOut x s1 t (fun op => op.kind == .long && op.flag == some 11 &&
                (op.vdst.isNone || laneIdx.all (fun l => getAt none op.vals l == some (.ofNat 32 ((res l).1 / 2 ^ (32 * (l % n)))))) &&
                op.mres.any (fun m => m.1 == 15 && laneIdx.all (fun l => laneBit m.2.2 l == (decide (l % n = 0) && (res l).2.1))) &&
                (!(isLcmp i) || op.mres.any (fun m => m.1 == 14 && laneIdx.all (fun l => laneBit m.2.2 l == (decide (l % n = 0) && (res l).2.2.1)))) &&
                (!(isLmuls i) || laneIdx.all (fun l => op.carry.contains (l, .ofNat 32 (if l % n = 0 then (res l).2.2.2 else 0)))) &&
                op.ready.any (fun r => decide (x.w.now + 6 ≤ r)))
          | _ => false)
      | none => false) = true := by decide +kernel

/-- R220, R221: LBIND and LFREE by every LIVE lane; a LIVE set that tears a group; a split that leaves a LIVE lane out. -/
theorem witness_BindAndFree : every [
    after (.lbind g0 ⟨0, false, 8⟩) bound8 (fun sh s1 x t => completes sh x s1 t [] [] [] 0 && (w0 t).limbst == 3 &&
      (w0 t).carryx.all (fun c => c == 0) && x.split &&& live x.w == live x.w && (tornLane 8 0xFFFFFFFF#32 (live x.w)).isNone && getAt 0 x.w.f 11 == 0),
    issues (.lbind g0 ⟨0, false, 8⟩) (withWarp mixed (fun w => { w with exited := 0x300 })) (fun _ _ x => tornLane 8 0xFFFFFFFF#32 (live x.w) == some 8),
    raises (.lbind g0 ⟨0, false, 8⟩) (withWarp mixed (fun w => { w with exited := 0x300 })) .boundMask (some 8) 0,
    raises (.lbind g0 ⟨0, false, 8⟩) { mixed with issue := some ⟨0, 0, 0xFFFFFFF3#32, none⟩ } .boundDiverge (some 2) 0,
    after (.lfree g0 ⟨0, false, 0⟩) bound8 (fun sh s1 x t => completes sh x s1 t [] [] [] 0 && (w0 t).limbst == 0 && (w0 t).carryx == x.w.carryx),
    raises (.lfree g0 ⟨0, false, 0⟩) { bound8 with issue := some ⟨0, 0, 0xFFFFFF00#32, none⟩ } .boundDiverge (some 0) 0] = true := by decide +kernel

end Sys2Proof.Tests
end

