-- ==== Sys2Proof/Tests/WitnessMemory.lean ====
section
/-! SUPPORT. For the statements about memory accesses: states that meet their hypotheses, and there their conclusions, by evaluation. -/

namespace Sys2Proof.Tests

open Sys2Proof.Machine Sys2Proof.Claim

set_option maxRecDepth 100000
set_option Elab.async false

/-- Operands of accesses: v4 offsets that rise by 4, s2 and s4 a page of data at 0x200000, v2 and v6 values, v7 zeros. -/
def data : State :=
  withWarp ready (fun w => putV 4 (fun l => .ofNat 32 (4 * l)) (putV 6 (fun l => .ofNat 32 (0x1000 + l)) (putV 2 (fun l => .ofNat 32 (0x40490F00 + l))
    (putV 7 (fun _ => 0) (putM 6 0x0F0F3378 (putS 2 0x200000 (putS 4 0x200000 (putS 6 0x100 w))))))))

/-- The word address of lane l's word, and a VALID word of core 0's L1. -/
def wordOf (l : Nat) : Nat := (2 ^ 51 + 0x200000) / 4 + l
def held (l : Nat) (v : Word) : L1Word := { owner := 0, wa := wordOf l, st := .valid, val := v }

/-- The same with lane 3's word in the core's L1. -/
def dataHeld : State := { data with l1 := [held 3 0x80000001] }

/-- The fields that an instruction's `loadForm` names. -/
def loadFields (i : Instr) : Option (BitVec 6 × BitVec 6 × Nat × Nat × Nat × Option Nat) :=
  match shapeOf i with
  | some sh =>
    match i, sh.code.body with
    | .ld _ _, .LD o => some (o.d, o.a, o.s.toNat, if sh.code.major = 0x1E then o.fmt.toNat + 3 else if o.fmt = 3 then 7 else o.fmt.toNat, o.flag.toNat, none)
    | .ldByte _ _, .LD o => some (o.d, o.a, o.s.toNat, if sh.code.major = 0x1E then o.fmt.toNat + 3 else if o.fmt = 3 then 7 else o.fmt.toNat, o.flag.toNat, none)
    | .lda _ _, .LDA o => some (o.d, o.a, o.s.toNat, 0, o.flag.toNat, some o.scope.toNat)
    | _, _ => none
  | none => none

/-- A load issues in lanes whose accesses pass their checks; lane 3's word is held; the operation is out. -/
def loadOk (i : Instr) : Bool :=
  match loadFields i with
  | none => false
  | some (d, a, base, fmt, flag, acq) =>
    after i dataHeld (fun sh s1 x t =>
      match gate s1 x.w { size := fmtBytes fmt, align := fmtBytes fmt, rd := true, wr := false, kind := kLoad, plain := acq.isNone } (addresses x base a) with
      | .go s2 es =>
        s2 == s1 && !(behindOwn s1 x.w es) && decide (getAt 0 x.w.f flag < 63) && x.act != 0 &&
        leaves sh x t [d.toNat] [] [] 0 && stepsOn x t && sameMem s1 t && t.blocks == s1.blocks &&
        goesOut x s1 t (fun op => op.kind == .load fmt acq && op.flag == some flag && op.vdst == (if d = 60 then none else some d.toNat) &&
          op.lanes == x.written && op.srcs == es.map (fun e => ⟨e.1, physOf e.2.2 e.2.1 / 4, e.2.1 % 4⟩) &&
          getAt none op.vals 3 == some (widen fmt (0x80000001 % 256 ^ fmtBytes fmt)) && getAt none op.vals 5 == none) &&
        (acq.all (fun sc => sc < 2 || (w0 t).acq.any (fun q => decide (sc ≤ q.scope) && q.ops == [s1.fresh])))
      | _ => false)

/-- R196 to R200: every format of LD, LDA at scopes 0 and 5, with a mask, and to the latches only. -/
def checks_LoadsIssue : Bool :=
  (([0, 1, 2, 3].flatMap (fun f => [Instr.ld g0 ⟨2, 4, 2, false, false, 1, .ofNat 2 f⟩, .ldByte g0 ⟨2, 4, 2, false, false, 7, .ofNat 2 f⟩]) ++
    [Instr.lda g0 ⟨2, 4, 2, false, false, 1, 0⟩, Instr.lda g0 ⟨2, 4, 2, false, false, 3, 5⟩, Instr.ld (gm 6 true) ⟨2, 4, 2, false, false, 0, 0⟩,
     Instr.ld g0 ⟨60, 4, 2, false, false, 0, 0⟩]).all loadOk)

theorem witness_LoadsIssue : checks_LoadsIssue = true := by decide +kernel

/-- An operation out on v2 whose values stand, lane 1 overtaken. -/
def outOp (k : OpKind) : POp :=
  { id := 7, kind := k, flag := some 1, vdst := some 2, lanes := 0x0F, overtaken := 2, vals := laneIdx.map (fun l => some (.ofNat 32 (l + 50))), flagsOr := 1 }
def landing (k : OpKind) : State := withWarp data (fun w => { w with f := setAt 0 w.f 1 1, holds := [.op 7], pend := [outOp k] })

/-- `HasLanded`, of that operation. -/
def landed7 (i : Instr) (k : OpKind) : Bool :=
  next i (landing k) (fun t => (w0 t).pend.isEmpty && (w0 t).holds.isEmpty && vAt t 2 0 == 50 && vAt t 2 1 == vAt data 2 1 && vAt t 2 2 == 52 &&
    vAt t 2 4 == vAt data 2 4 && getAt 0 (w0 t).f 1 == 0 && (w0 t).regs.flags == 1 && (w0 t).pc == (w0 data).pc && sameMem data t)

/-- An SLD to s9 whose two words have come. -/
def outSld : POp := { id := 7, kind := .sld, sdst := some 9, srcs := [⟨0, 10, 0⟩, ⟨0, 11, 0⟩], words := [(10, some 5), (11, some 6)] }
def landingSld : State := withWarp data (fun w => { w with holds := [.op 7], pend := [outSld] })

/-- R140, R172, R183, R203, R207, R227. -/
theorem witness_ResultsLand : every [landed7 (.sfuResultLands 0 0 7) .sfu, landed7 (.longResultLands 0 0 7) .long, landed7 (.atomicResultLands 0 0 7) .atom,
    landed7 (.loadDataLands 0 0 7 []) (.load 0 none), landed7 (.loadDataLands 0 0 7 []) (.scratch 1),
    next (.loadDataLands 0 0 7 []) landingSld (fun t => (w0 t).pend.isEmpty && (w0 t).holds.isEmpty && sAt t 9 == 0x600000005 && sAt t 2 == 0x200000)] = true := by
  decide +kernel

/-- The checks of an access let it go on. -/
def gated (s : State) (w : Warp) (k : Want) (as : List (Nat × Nat)) (f : State → List (Nat × Nat × BitVec 64) → Bool) : Bool :=
  match gate s w k as with
  | .go s2 es => f s2 es
  | _ => false

/-- ST and STF: their fields, as `storeForm` names them. -/
def storeFields (i : Instr) (x : Iss) : Option (BitVec 6 × BitVec 6 × Nat × Nat × Option Nat) :=
  match i, x.c.body with
  | .st _ _, .ST o => some (o.d, o.a, o.s.toNat, o.fmt.toNat, none)
  | .stf _ _, .STF o => some (o.d, o.a, o.s.toNat, 0, some ((x.s o.cons.toNat).toNat % 256))
  | _, _ => none

/-- A store issues, and the machine is as `storeWords` leaves it. -/
def storeOk (i : Instr) : Bool :=
  after i data (fun sh s1 x t =>
    match storeFields i x with
    | none => false
    | some (d, a, base, fmt, fwd) =>
      let n := fmtBytes fmt
      gated s1 x.w { size := n, align := n, rd := false, wr := true, stf := fwd.isSome, kind := kStore, plain := true } (addresses x base a) (fun s2 es =>
        let code (l : Nat) := narrow fmt (roundingAt s1 x l) (match x.c.grp.pfx with | some p => p.sat | none => false) (lane (x.v d) l)
        let r := storeWords s1 x.w fwd (gatherStores n (fun l => (code l).1) es)
        s2 == s1 && !(anyPending s1 x.w es) && x.act != 0 && leaves sh x t [] [] [] (flagsOf x (fun l => (code l).2)) && stepsOn x t &&
          sameMem r.1 t && t.net == r.1.net && t.blocks == r.1.blocks && t.conns == r.1.conns &&
          (w0 t).stack == r.2.stack && (w0 t).stores == r.2.stores && !r.2.stores.isEmpty &&
          (w0 t).regs.q == x.w.regs.q + (if 1 ≤ fmt ∧ fmt ≤ 4 ∧ (roundingAt s1 x 0).mode = 5 then 1 else 0)))

/-- R60 to R62, R187 to R202: every format of ST, with a mask, and STF. -/
def storeForms : List Instr :=
  ((List.range 9).map (fun f => Instr.st g0 ⟨2, 4, 2, false, false, false, .ofNat 4 f⟩)) ++
    [Instr.st (rounded 5) ⟨2, 4, 2, false, false, false, 3⟩, Instr.stf g0 ⟨2, 4, 2, false, false, false, 6⟩]

theorem witness_StoresIssue_plain : (storeForms.take 3).all storeOk = true := by decide +kernel
theorem witness_StoresIssue_narrow : ((storeForms.drop 3).take 4).all storeOk = true := by decide +kernel
theorem witness_StoresIssue_others : (storeForms.drop 7).all storeOk = true := by decide +kernel

/-- R133, R198, R250: a byte in the private window; in a REGISTERED word under the warp's tag; in one under another tag; in none. -/
def checks_StoreOfOneWord : Bool :=
  let w := w0 data
  let e := bootLeaf
  let reg (tag : BitVec 16) : State := { data with l1 := [{ held 0 0x44332211 with st := .registered, tag := tag, mask := 1 }] }
  let priv := storeWord data w none (w.privbase.toNat + 5) e 2 0x0000AA00
  let mine := storeWord (reg 0) w none 0x200001 e 2 0x0000AA00
  let others := storeWord (reg 3) w none 0x200001 e 2 0x0000AA00
  let fresh := storeWord data w none 0x200001 e 2 0x0000AA00
  let pending (r : State × Warp) : Bool :=
    (match l1Find r.1.l1 0 (wordOf 0) with | some y => y.st == .pending && y.val == 0x0000AA00 && y.mask == 2 && y.tag == 0 | none => false) &&
      r.1.net.any (fun m => m.owner == 0 && m.kind == .register [(wordOf 0, 2, 0x0000AA00)] 0 0 false none && r.2.stores == [⟨m.id, 0x200001, wordOf 0, 0⟩])
  every [leafKind e == 0, inPriv w (w.privbase.toNat + 5), !(inPriv w 0x200001), storeTag data w == 0, ownerOf data w.core == 0, leafC e,
    priv.1 == data, privRead data priv.2 (w.privbase.toNat + 5) (leafPa e (w.privbase.toNat + 5)) == 0x0000AA00, priv.2.stores == w.stores,
    l1Find mine.1.l1 0 (wordOf 0) == some { held 0 0x4433AA11 with st := .registered, mask := 3 }, mine.2 == w, mine.1.net == data.net,
    pending others, pending fresh, others.1.mem == data.mem && others.1.slices == data.slices && others.2.stack == w.stack]

theorem witness_StoreOfOneWord : checks_StoreOfOneWord = true := by decide +kernel

/-- A store of the warp is out. -/
def storing : State := withWarp data (fun w => { w with stores := [⟨99, 0x300000, 0xC0000, 0⟩] })

/-- R199, R201: STR with nothing to wait for, at a scope that waits for nothing, and with a store out. -/
def checks_ReleasingStores : Bool :=
  let want : Want := { size := 4, align := 4, rd := false, wr := true, kind := kStore }
  let str (sc : Nat) : Instr := .str g0 ⟨2, 4, 2, false, false, false, .ofNat 4 sc⟩
  let now (s : State) (sc : Nat) : Bool :=
    after (str sc) s (fun sh s1 x t => gated s1 x.w want (addresses x 2 4) (fun s2 es =>
      let r := storeWords s1 x.w none (gatherStores 4 (fun l => (lane (x.v 2) l).toNat) es)
      s2 == s1 && !(anyPending s1 x.w es) && releaseReady s1 x.w sc && leaves sh x t [] [] [] 0 && stepsOn x t && sameMem r.1 t && t.net == r.1.net &&
        (w0 t).stores == r.2.stores))
  every [now data 11, now storing 3 || now storing 1,
    after (str 5) storing (fun sh s1 x t => gated s1 x.w want (addresses x 2 4) (fun s2 es => s2 == s1 && !(anyPending s1 x.w es)) &&
      !(releaseReady s1 x.w 5) && completes sh x s1 t [] [] [] 0 &&
      (w0 t).relq.map (fun r => (r.scope, r.ops, r.stores)) == [(5, [], [99])] && (w0 t).stores == x.w.stores)]

theorem witness_ReleasingStores : checks_ReleasingStores = true := by decide +kernel

/-- Two lanes to a word; v8 gives the low half of each address, v7 the high half. -/
def atomData (base : Nat) : State := withWarp data (putV 8 (fun l => .ofNat 32 (base + l / 2 * 4)))

/-- An atomic of memory issues. -/
def atomOk (i : Instr) : Bool :=
  let want : Want := { size := 4, align := 4, rd := true, wr := true, atom := true, kind := kAtomic }
  let at_ (x : Iss) := (lanesOf x.act).map (fun l => (l, (lane (x.v 7) l).toNat * 2 ^ 32 + (lane (x.v 8) l).toNat))
  match atomic i with
  | some (false, f) =>
    after i (atomData 0x200000) (fun sh s1 x t => gated s1 x.w want (at_ x) (fun s2 es =>
      s2 == s1 && !(anyPending s1 x.w es) && es.all (fun e => leafKind e.2.2 == 0 && !(inPriv x.w e.2.1)) &&
        (!(ordRel (atomOrder x.c).1) || releaseReady s1 x.w (atomOrder x.c).2) &&
      leaves sh x t [2] [] [] 0 && stepsOn x t && sameMem s1 t && goesOut x s1 t (fun op => op.kind == .atom && op.flag.isNone &&
        (w0 t).holds.contains (.op op.id) && op.lanes == x.written &&
        (gatherAtoms (x.v 2) x.cv es).all (fun y => t.net.any (fun m => m.owner == 0 && match m.kind with
          | .atomic c n o _ wa ls => c == 0 && n == 0 && o == op.id && wa == leafPa y.2.1 y.1 / 4 && ls == y.2.2
          | _ => false))))) &&
    after i (atomData 0x21000000) (fun sh s1 x t => gated s1 x.w want (at_ x) (fun _ es =>
      es.all (fun e => leafKind e.2.2 == 0 && inPriv x.w e.2.1) && decide (stackRows x.w.stack ≤ 0) && leaves sh x t [2] [] [] 0 && stepsOn x t && sameMem s1 t &&
        (gatherAtoms (x.v 2) x.cv es).all (fun y => getKey y.1 (w0 t).stack ==
          some (y.2.2.foldl (fun m it => f m it.2.1 it.2.2) (privRead s1 x.w y.1 (leafPa y.2.1 y.1))))))
  | _ => false

/-- R206 to R209, R276: every atomic of memory with two lanes to a word; CAS; one with a release. -/
def atomForms : List Instr :=
  [Instr.atomAdd g0 ⟨2, 8, 7, false, false⟩, .atomAnd g0 ⟨2, 8, 7, false, false⟩, .atomOr g0 ⟨2, 8, 7, false, false⟩, .atomXor g0 ⟨2, 8, 7, false, false⟩,
    .atomMin g0 ⟨2, 8, 7, false, false⟩, .atomMax g0 ⟨2, 8, 7, false, false⟩, .atomUmin g0 ⟨2, 8, 7, false, false⟩, .atomUmax g0 ⟨2, 8, 7, false, false⟩,
    .atomXchg g0 ⟨2, 8, 7, false, false⟩, .atomCas ⟨false, 0, some ⟨0, false, 0, 7, false, false, 6⟩, none⟩ ⟨2, 8, 7, false, false⟩,
    .atomFadd g0 ⟨2, 8, 7, false, false⟩, .atomSub ⟨false, 0, some ⟨6, false, 3, 0, false, false, 5⟩, none⟩ ⟨2, 8, 7, false, false⟩]

theorem witness_MemoryAtomicsIssue_first : (atomForms.take 4).all atomOk = true := by decide +kernel
theorem witness_MemoryAtomicsIssue_second : ((atomForms.drop 4).take 4).all atomOk = true := by decide +kernel
theorem witness_MemoryAtomicsIssue_third : (atomForms.drop 8).all atomOk = true := by decide +kernel

/-- v9 holds offsets of the scratchpad, two lanes to a word; the scratchpad holds bytes at 0x40. -/
def pad : State :=
  withBlock (withWarp data (putV 9 (fun l => .ofNat 32 (0x40 + l / 2 * 4)))) (fun b => { b with scr := memWrite [] 0x40 [0x11, 0x82, 0x33, 0x84] })

/-- The block of warp 0 after a step. -/
def b0 (t : State) : Block := (blockFind t 0 0).getD {}

/-- R203: LDL in its formats, from an offset of 15 words. -/
def ldlOk (i : Instr) (o : OpsLDL) : Bool :=
  after i (withBlock pad (fun b => { b with scr := memWrite b.scr (0x40 + 4 * o.off.toNat) [0x11, 0x82, 0x33, 0x84] })) (fun sh s1 x t =>
    let fmt := if o.fmt = 0 then 0 else if o.fmt = 1 then 1 else if o.fmt = 2 then 3 else 5
    let as := (lanesOf x.act).map (fun l => (l, ((lane (x.v o.a) l).toNat + 4 * o.off.toNat) % 2 ^ 32))
    let b := b0 s1
    b.scrq.isEmpty && running x.w && decide (getAt 0 x.w.f o.flag.toNat < 63) && !(memHeld x.w [] 0) && !(lanesFlying s1 x.w as (fmtBytes fmt)) &&
      as.all (fun p => decide (p.2 % fmtBytes fmt = 0) && decide (p.2 + fmtBytes fmt ≤ b.scrLen)) &&
      leaves sh x t [o.d.toNat] [] [] 0 && stepsOn x t && sameMem s1 t && t.blocks == s1.blocks && goesOut x s1 t (fun op => op.kind == .scratch fmt &&
        as.all (fun p => getAt none op.vals p.1 == some (widen fmt (leNat (memRead b.scr p.2 (fmtBytes fmt)))))))

/-- R204: STL in its formats. -/
def stlOk (i : Instr) (o : OpsSTL) : Bool :=
  after i pad (fun sh s1 x t =>
    let as := (lanesOf x.act).map (fun l => (l, ((lane (x.v o.a) l).toNat + 4 * o.off.toNat) % 2 ^ 32))
    let n := fmtBytes o.fmt.toNat
    let code (l : Nat) := narrow o.fmt.toNat (roundingAt s1 x l) (match x.c.grp.pfx with | some p => p.sat | none => false) (lane (x.v o.d) l)
    let b := b0 s1
    !(memHeld x.w [] 0) && !(lanesFlying s1 x.w as n) && as.all (fun p => decide (p.2 % n = 0) && decide (p.2 + n ≤ b.scrLen)) &&
      leaves sh x t [] [] [] (flagsOf x (fun l => (code l).2)) && stepsOn x t && keepsRest x t && sameMem s1 t &&
      b0 t == { b with scrq := b.scrq ++ [.bytes 0 (as.flatMap (fun p => (List.range n).map (fun j => (p.2 + j, BitVec.ofNat 8 ((code p.1).1 / 256 ^ j)))))] })

/-- R207: ATOML. -/
def atomlOk (i : Instr) : Bool :=
  match atomic i with
  | some (true, f) =>
    after i pad (fun sh s1 x t =>
      let as := (lanesOf x.act).map (fun l => (l, (lane (x.v 9) l).toNat % 2 ^ 32))
      let b := b0 s1
      let r := scratchAtomics f (x.v 2) x.cv b.scr as
      !(lanesFlying s1 x.w as 4) && as.all (fun p => decide (p.2 % 4 = 0) && decide (p.2 + 4 ≤ b.scrLen)) &&
        (!(ordRel (atomOrder x.c).1) || releaseReady s1 x.w (min (atomOrder x.c).2 2)) && leaves sh x t [2] [] [] 0 && stepsOn x t && sameMem s1 t &&
        b0 t == { b with scr := r.1 } && goesOut x s1 t (fun op => op.kind == .atom && (w0 t).holds.contains (.op op.id) &&
          r.2.all (fun p => getAt none op.vals p.1 == some p.2)))
  | _ => false

/-- R203, R204, R206, R207: every format of LDL and STL, and every ATOML. -/
def ldlForm (f : Nat) : Bool := ldlOk (.ldl g0 ⟨2, 9, false, 1, .ofNat 2 f, 15⟩) ⟨2, 9, false, 1, .ofNat 2 f, 15⟩
def stlForm (f : Nat) : Bool := stlOk (.stl (gm 6 false) ⟨2, 9, false, false, .ofNat 4 f, 1⟩) ⟨2, 9, false, false, .ofNat 4 f, 1⟩
def atomlForms : List Instr :=
  [Instr.atomlAdd g0 ⟨2, 9, 7, false, false⟩, .atomlAnd g0 ⟨2, 9, 7, false, false⟩, .atomlOr g0 ⟨2, 9, 7, false, false⟩, .atomlXor g0 ⟨2, 9, 7, false, false⟩,
    .atomlMin g0 ⟨2, 9, 7, false, false⟩, .atomlMax g0 ⟨2, 9, 7, false, false⟩, .atomlUmin g0 ⟨2, 9, 7, false, false⟩, .atomlUmax g0 ⟨2, 9, 7, false, false⟩,
    .atomlXchg g0 ⟨2, 9, 7, false, false⟩, .atomlCas gc ⟨2, 9, 7, false, false⟩, .atomlFadd g0 ⟨2, 9, 7, false, false⟩,
    .atomlSub ⟨false, 0, some ⟨6, false, 3, 0, false, false, 5⟩, none⟩ ⟨2, 9, 7, false, false⟩]

theorem witness_ScratchpadAccess_ldl : [0, 1, 2, 3].all ldlForm = true := by decide +kernel
theorem witness_ScratchpadAccess_stl : (List.range 5).all stlForm = true := by decide +kernel
theorem witness_ScratchpadAccess_stlWide : (List.range 4).all (fun f => stlForm (5 + f)) = true := by decide +kernel
theorem witness_ScratchpadAccess_atoml : (atomlForms.take 6).all atomlOk = true := by decide +kernel
theorem witness_ScratchpadAccess_atomlOthers : (atomlForms.drop 6).all atomlOk = true := by decide +kernel

/-- The doubleword at s4 + 8 × 63 stands in the L1 as two words. -/
def sData : State := { data with l1 := [held 126 0x11111111, held 127 0x22222222] }

/-- R172, R173, R193: SLD and SST of the highest sb, and of an address that is no multiple of 8. -/
def checks_ScalarMemory : Bool :=
  let want (wr : Bool) : Want := { size := 8, align := 8, rd := !wr, wr := wr, kind := if wr then kStore else kLoad, plain := true }
  let odd : State := withWarp data (putS 4 0x200004)
  every [
    after (.sld g0 ⟨9, 4, 63, false, false⟩) sData (fun sh s1 x t => gated s1 x.w (want false) [(0, 0x2001F8)] (fun s2 es =>
      s2 == s1 && es == [(0, 0x2001F8, bootLeaf)] && !(anyPending s1 x.w [(0, 0x2001F8, bootLeaf), (0, 0x2001FC, bootLeaf)]) &&
      findWord s1 x.w bootLeaf 0x2001F8 15#4 == .val 0x11111111 && findWord s1 x.w bootLeaf 0x2001FC 15#4 == .val 0x22222222 &&
      pairHere s1 x.w bootLeaf 0x2001F8 && !(loadsWord x.w (wordOf 126)) && !(loadsWord x.w (wordOf 127)) &&
      leaves sh x t [] [] [] 0 && stepsOn x t && sameMem s1 t && goesOut x s1 t (fun op => op.kind == .sld && op.vdst.isNone && op.sdst == some 9 &&
        op.flag.isNone && (w0 t).holds.contains (.op op.id) && op.srcs == [⟨0, wordOf 126, 0⟩, ⟨0, wordOf 127, 0⟩] &&
        getKey (wordOf 126) op.words == some (some 0x11111111) && getKey (wordOf 127) op.words == some (some 0x22222222)))),
    after (.sst g0 ⟨2, 4, 63, false, false⟩) data (fun sh s1 x t => gated s1 x.w (want true) [(0, 0x2001F8)] (fun s2 es =>
      let r := storePair s1 x.w 0x2001F8 bootLeaf 0x200000 0
      s2 == s1 && es == [(0, 0x2001F8, bootLeaf)] && leaves sh x t [] [] [] 0 && stepsOn x t && sameMem r.1 t && t.net == r.1.net && (w0 t).stores == r.2.stores)),
    raises (.sld g0 ⟨9, 4, 0, false, false⟩) odd .misaligned none 0x200004, raises (.sst g0 ⟨9, 4, 63, false, false⟩) odd .misaligned none 0x2001FC,
    issues (.sld g0 ⟨9, 4, 0, false, false⟩) odd (fun _ _ x => !(memHeld x.w [0x200004] 8))]

theorem witness_ScalarMemory : checks_ScalarMemory = true := by decide +kernel

/-- A word's want. -/
def wordWant (wr : Bool) : Want := { size := 4, align := 4, rd := !wr, wr := wr, kind := kLoad, watch := true, plain := true }

/-- The check ends in a cause, or in a wait. -/
def gateCause (s : State) (w : Warp) (k : Want) (as : List (Nat × Nat)) (c : Cause) (l a : Nat) : Bool :=
  match gate s w k as with
  | .cause c' l' a' n => c' == c && l' == l && a' == a && n == 0
  | _ => false
def gateWait (s : State) (w : Warp) (k : Want) (as : List (Nat × Nat)) (f : Warp → Bool) : Bool :=
  match gate s w k as with
  | .wait _ v => f v
  | _ => false

/-- A read-only page, a REPLICATED one, and one that is not present. -/
def pages : State :=
  { data with tlb := [⟨0, 0, 0x200000, 12, 0x000800000000001B⟩, ⟨0, 0, 0, 30, bootLeaf⟩] }
def replicated : State := { data with tlb := [⟨0, 0, 0, 30, bootLeaf ||| 1#64 <<< 61⟩] }
def absent : State := withWarp data (fun w => { w with attempt := { w.attempt with xlate := [(2 ^ 30 / 4096, .notPresent 3)] } })

/-- R187, R189, R194: each check at its boundary, the lowest lane that meets it; translations asked for and waited for; an access that
goes on. -/
def checks_AccessChecks : Bool :=
  let w := w0 data
  let top := w.privbase.toNat + w.stackLim.toNat * 128
  every [!(memHeld w [0] 4), gateCause data w (wordWant false) [(0, 2 ^ 57 - 4), (3, 2 ^ 57), (4, 2 ^ 57)] .translation 3 (2 ^ 57),
    gateCause data w (wordWant false) [(0, 0), (1, 5), (2, 6)] .misaligned 1 5,
    gateCause data { w with stackLim := 1 } (wordWant false) [(0, w.privbase.toNat + 124), (1, w.privbase.toNat + 128)] .stackLimit 1 (w.privbase.toNat + 128),
    overStack { w with stackLim := 1 } (w.privbase.toNat + 128) 4, !(overStack { w with stackLim := 1 } (w.privbase.toNat + 124) 4), decide (0 < top),
    gateWait data w (wordWant false) [(0, 0x200000), (1, 2 ^ 30)] (fun v => v.holds == [.xlate [2 ^ 30 / 4096]]),
    (xlateOf data w (2 ^ 30)).isNone, (xlateOf data w 0x200000).isSome,
    gateCause pages (w0 pages) (wordWant true) [(2, 0x1FFFFC), (3, 0x200000)] .protection 3 0x200000,
    xlateOf absent (w0 absent) (2 ^ 30) == some (.notPresent 3),
    gateWait absent (w0 absent) (wordWant false) [(1, 2 ^ 30)] (fun v => v.holds == [.fault [faultKey 3 (granuleOf 3 (2 ^ 30))]]),
    mustCollapse replicated 0 0x200000 (bootLeaf ||| 1#64 <<< 61), gateWait replicated (w0 replicated) (wordWant true) [(1, 0x200000)] (fun v => v == retryHold (w0 replicated)),
    (List.range 8).all (fun n => !((getAt 0 (ctxOf data 0).wpctl n).getLsbD 31)), !(raceOn data w), w.attempt.raced.isEmpty,
    gated data w (wordWant true) [(0, 0x200000), (31, 0x3FFFFFFC)] (fun s es => s == data && es == [(0, 0x200000, bootLeaf), (31, 0x3FFFFFFC, bootLeaf)]),
    after (.ld (gm 1 true) ⟨2, 4, 2, false, false, 1, 0⟩) data (fun sh s1 x t => x.act == 0 && completes sh x s1 t [2] [] [] 0 && keepsRest x t &&
      laneIdx.all (fun l => vAt t 2 l == 0)),
    after (.ldl (gm 1 false) ⟨2, 9, false, 1, 0, 1⟩) pad (fun sh s1 x t => x.act == 0 && completes sh x s1 t [] [] [] 0 && keepsRest x t),
    after (.st (gm 1 false) ⟨2, 4, 2, false, false, false, 0⟩) data (fun sh s1 x t => x.act == 0 && completes sh x s1 t [] [] [] 0 && keepsRest x t),
    after (.st ⟨false, 1, some ⟨1, false, 5, 0, false, false, 0⟩, none⟩ ⟨2, 4, 2, false, false, false, 3⟩) data (fun sh s1 x t => x.act == 0 &&
      (roundingAt s1 x 0).mode == 5 && completes sh x s1 t [] [] [] 0 && keepsRest x t && (w0 t).regs.q == x.w.regs.q + 1),
    after (.stl (gm 1 false) ⟨2, 9, false, false, 0, 1⟩) pad (fun sh s1 x t => x.act == 0 && completes sh x s1 t [] [] [] 0 && keepsRest x t)]

theorem witness_AccessChecks : checks_AccessChecks = true := by decide +kernel

end Sys2Proof.Tests
end

