-- ==== Sys2Proof/Tests/WitnessCoherence.lean ====
section
/-! SUPPORT. For the statements about scratchpad writes, fences and coherence: states that meet their hypotheses, and there their
conclusions, by evaluation. -/

namespace Sys2Proof.Tests

open Sys2Proof.Machine Sys2Proof.Claim

set_option maxRecDepth 100000
set_option Elab.async false

/-! ## Writes of the scratchpad -/

/-- A write of the scratchpad on its way, another behind it; a sync word of generation 5 at 0x40 and bytes round about. -/
def flowing (q : ScrWrite) : State :=
  withBlock ready (fun b => { b with scr := memWrite [] 0x38 (natLe 8 0x0102030405060708 ++ natLe 8 (5 * 2 ^ 40 + 7) ++ natLe 64 (2 ^ 512 - 1)),
                                     scrq := [q, .bytes 0 [(0, 1)]] })
def frozen (s t : State) : Bool := t.warps == s.warps && t.mem == s.mem && t.slices == s.slices && t.l1 == s.l1 && t.net == s.net

/-- What is asked of the step, in an event's name. -/
def flowed (i : Instr) (q : ScrWrite) (f : Block → Block → Bool) : Bool :=
  let s := flowing q
  Memory.wf (b0 s).scr && next i s (fun t => frozen s t && (b0 t).scrq == [.bytes 0 [(0, 1)]] && f (b0 s) (b0 t))

/-- Bytes that read alike but from lo up to hi. -/
def alike (b b' : Block) (lo hi : Nat) : Bool := (List.range 0x90).all (fun a => (decide (lo ≤ a) && decide (a < hi)) || memGet b'.scr a == memGet b.scr a)

/-- R204, R404, R417: STL's bytes, the later over the earlier; SYNCI with the highest target; RINGI with one slot and with seven. -/
theorem witness_ScratchpadWritesLand : every [
    flowed (.scratchpadWriteDone 0 0) (.bytes 0 [(0x40, 9), (0x41, 8), (0x40, 3)]) (fun b b' =>
      memGet b'.scr 0x40 == 3 && memGet b'.scr 0x41 == 8 && alike b b' 0x40 0x42 && Memory.wf b'.scr),
    flowed (.scratchpadWriteDone 0 0) (.synci 0 0x40 0xFFFFF) (fun b b' =>
      leNat (memRead b'.scr 0x40 8) == 5 * 2 ^ 40 + 0xFFFFF * 2 ^ 20 && alike b b' 0x40 0x48),
    flowed (.scratchpadWriteDone 0 0) (.ringi 0 0x40 0x12340002FFF0) (fun b b' =>
      leNat (memRead b'.scr 0x40 8) == 0 && leNat (memRead b'.scr 0x48 8) == 0x123400020000 &&
      leNat (memRead b'.scr 0x50 8) == 128 * 2 ^ 20 && alike b b' 0x40 0x58),
    flowed (.scratchpadWriteDone 0 0) (.ringi 0 0x40 0x1234000000020006) (fun b b' =>
      leNat (memRead b'.scr 0x40 8) == 0 && leNat (memRead b'.scr 0x48 8) == 0x1234000000020006 &&
      (List.range 7).all (fun k => leNat (memRead b'.scr (0x50 + 8 * k) 8) == 128 * 2 ^ 20) && alike b b' 0x40 0x88)] = true := by
  decide +kernel

/-! ## Fences -/

/-- A load, an atomic and a store of the warp are out. -/
def busy : State := withWarp data (fun w => { w with
  pend := [outOp (.load 0 none), { outOp .atom with id := 8, flag := none, vdst := some 6 }]
  stores := [⟨99, 0x200010, 0x80004, 0⟩, ⟨98, 0x300000, 0xC0000, 0⟩] })

/-- A fence of a scope. -/
def fenceOf (n : Nat) (sc : BitVec 4) : Instr :=
  let o : OpsF := ⟨0, 0, false, false, sc⟩
  let r : OpsF := ⟨2, 6, false, false, sc⟩
  if n = 0 then .fence g0 o else if n = 1 then .fencer g0 r else if n = 2 then .acq g0 o else if n = 3 then .acqr g0 r else if n = 4 then .rel g0 o else .relr g0 r

/-- What its actions are. -/
def fenceOk (n : Nat) (sc : BitVec 4) : Bool :=
  after (fenceOf n sc) busy (fun sh s1 x t => match x.c.body with
    | .F o =>
      let range : Range := ⟨x.s o.sa.toNat, x.s o.sb.toNat⟩
      let all := releaseList s1 x.w o.scope.toNat none
      let some_ := releaseList s1 x.w o.scope.toNat (some range)
      let w := w0 t
      completes sh x s1 t [] [] [] 0 && keepsRest x t && x.w.rel.isNone && x.w.acq.isNone && o.scope == sc &&
      (if sc.toNat ≤ 1 then w.rel.isNone && w.acq.isNone
       else match n with
        | 0 => w.acq.isNone && w.rel == some ⟨s1.fresh, queuedStores x.w none, sc.toNat, all.1, all.2, .none, some sc.toNat, some none⟩
        | 1 => w.acq.isNone && w.rel == some ⟨s1.fresh, queuedStores x.w (some range), sc.toNat, some_.1, some_.2, .none, none, some (some range)⟩
        | 2 => w.rel.isNone && w.acq == some ⟨sc.toNat, (x.w.pend.filter isLoad).map (fun p => p.id), none, false⟩
        | 3 => w.rel.isNone && w.acq == some ⟨sc.toNat, (x.w.pend.filter isLoad).map (fun p => p.id), some range, false⟩
        | 4 => w.acq.isNone && w.rel == some ⟨s1.fresh, queuedStores x.w none, sc.toNat, all.1, all.2, .none, none, some none⟩
        | _ => w.acq.isNone && w.rel == some ⟨s1.fresh, queuedStores x.w (some range), sc.toNat, some_.1, some_.2, .none, none, some none⟩)
    | _ => false)

/-- R278 to R280: every fence at every scope, with loads, an atomic and stores out. -/
def checks_FencesIssue : Bool :=
  every [(List.range 6).all (fun n => fenceOk n 0 && fenceOk n 1 && fenceOk n 2 && fenceOk n 7),
    (releaseList busy (w0 busy) 7 none).2 == [99, 98], (releaseList busy (w0 busy) 7 (some ⟨0x200000, 0x100⟩)).2 == [99]]

theorem witness_FencesIssue : checks_FencesIssue = true := by decide +kernel

/-- A VALID, a REGISTERED and a PENDING word of the warp's core, a VALID word of another owner, and an action. -/
def acquiring (q : AcqAct) : State :=
  { withWarp data (fun w => { w with acq := some q }) with
    l1 := [{ held 0 1 with va := 0x200000 }, { held 1 1 with va := 0x200004 }, { held 2 2 with st := .registered }, { held 3 3 with st := .pending },
           { held 0 4 with owner := 5 }] }
def acquired (i : Instr) (q : AcqAct) (f : List L1Word → List L1Word → Bool) : Bool :=
  let s := acquiring q
  (w0 s).acq == some q && (w0 s).trapping.isNone && q.ops.all (fun id => (w0 s).pend.all (fun p => p.id != id)) &&
  next i s (fun t => w0 t == { w0 s with acq := none } && t.mem == s.mem && t.slices == s.slices && t.net == s.net && f s.l1 t.l1)

def releasing : RelAct := { id := 1, scope := 5, ops := [7], stores := [99], cont := .none, holds := some none }
/-- A release that waits for the stores of the one before it. -/
def follower : RelAct := { releasing with id := 2, behind := [1] }
/-- A release action that waits for nothing more. -/
def released (i : Instr) (r : RelAct) (queued : Bool) (f : State → State → Bool) : Bool :=
  let s := withWarp data (fun w => if queued then { w with relq := [r, follower] } else { w with rel := some r })
  relDone s (w0 s) r && (w0 s).trapping.isNone && next i s (fun t => f s t)

/-- R200, R201, R255, R257, R267, R279: the ends of the actions. -/
theorem witness_FenceActionsEnd : every [
    acquired (.acquireActionDone 0 0) ⟨2, [3], none, false⟩ (fun l l' => l' == l),
    acquired (.acquireActionDone 0 0) ⟨3, [], none, false⟩ (fun l l' => l'.all (fun y => l.contains y) && l'.length == 3 && l'.all (fun y => y.owner == 5 || y.st != .valid)),
    acquired (.acquireActionDone 0 0) ⟨7, [], none, false⟩ (fun l l' => l'.all (fun y => l.contains y) && l'.length == 3 && l'.all (fun y => y.owner == 5 || y.st != .valid)),
    acquired (.acquireActionDone 0 0) ⟨7, [], some ⟨0x200004, 4⟩, false⟩ (fun l l' => l'.all (fun y => l.contains y) &&
      l.all (fun y => inRange ⟨0x200004, 4⟩ y.va 4 || l'.contains y) && l'.length == 4),
    released (.releaseActionDone 0 0) releasing false (fun s t => (w0 t).rel.isNone && (w0 t).acq.isNone && sameMem s t && t.net == s.net && (w0 t).regs == (w0 s).regs),
    released (.releaseActionDone 0 0) { releasing with acq := some 5 } false (fun s t => (w0 t).rel.isNone && (w0 t).acq == some ⟨5, [], none, false⟩ && sameMem s t),
    released (.releaseActionDone 0 0) { releasing with cont := .arrive 0x40 2, holds := none } true (fun s t => (w0 t).relq == [follower] &&
      (w0 t).arrivals == [⟨s.fresh, 0x40, 2⟩] && sameMem s t),
    released (.releaseActionDone 0 0) { releasing with cont := .stores [(0x200000, wordOf 0, bootLeaf, 15, 9)], holds := none } true (fun s t =>
      let r := storeWords s { w0 s with relq := [follower] } none [(0x200000, bootLeaf, 15, 9)]
      let sent := (r.2.stores.filter (storeDue s (w0 s) 5)).map (fun y => y.msg)
      (w0 s).stores.isEmpty && !sent.isEmpty && (w0 t).relq == [{ follower with stores := follower.stores ++ sent }] && (w0 t).stores == r.2.stores &&
      (w0 t).stack == r.2.stack && t.mem == r.1.mem && t.l1 == r.1.l1 && t.net == r.1.net && !t.net.isEmpty)] = true := by
  decide +kernel

/-! ## Messages of coherence -/

/-- A message in the network, with words at their slices and in L1s. -/
def carrying (m : Net) (ss : List SliceWord) (ls : List L1Word) : State :=
  { ready with net := [m], fresh := 50, slices := ss, l1 := ls }
/-- The slice's word of another. -/
def theirs (wa o : Nat) : SliceWord := { wa := wa, st := .registered, val := 3, owner := o, tag := 2, mask := 1, ctx := 0 }
def dirtyHome (wa : Nat) : SliceWord := { wa := wa, val := 0x55, dirty := true, mask := 4, tag := 9 }

/-- A register message of core 0 on words 0x100 (HOME) and 0x101 (its own). -/
def regMsg : Net := ⟨8, 0, .register [(0x100, 3, 7), (0x101, 15, 6)] 4 0 false none⟩
def registering : State := { carrying regMsg [dirtyHome 0x100, theirs 0x101 0, theirs 0x102 6] [{ held 0 7 with wa := 0x100, st := .pending, mask := 3 }] with
  warps := (withWarp ready (fun w => { w with stores := [⟨8, 0, 0x100, 0⟩, ⟨9, 0, 0x100, 0⟩] })).warps }
def oneMsg (thru : Bool) : Net := ⟨8, 0, .register [(0x100, 3, 0x1234)] 4 0 thru none⟩
def slot (t : State) (wa : Nat) : SliceWord := sliceGet t wa
def sameSlice (s t : State) (wa : Nat) : Bool := (slot t wa).st == (slot s wa).st && (slot t wa).val == (slot s wa).val && (slot t wa).owner == (slot s wa).owner

/-- R249 to R252, R258, R262. -/
theorem witness_RegistrationsAreServed : every [
    netTake registering 8 == some regMsg,
    next (.registrationRequest 8 []) registering (fun t =>
      [0x100, 0x101].all (fun wa => (slot t wa).st == .registered && (slot t wa).owner == 0 && (slot t wa).tag == 4 && (slot t wa).ctx == 0) &&
      t.net.any (fun g => g.owner == 0 && match g.kind with | .grant vs true => vs.contains (0x100, 0x55, 0) | _ => false) &&
      [0xFF, 0x102, 0x103].all (sameSlice registering t) && (w0 t).stores == [⟨9, 0, 0x100, 0⟩]),
    netTake (carrying (oneMsg false) [theirs 0x100 6] []) 8 == some (oneMsg false),
    next (.registrationRequest 8 []) (carrying (oneMsg false) [theirs 0x100 6] []) (fun t => (slot t 0x100).st == .transfer && (slot t 0x100).waiting == [8] &&
      (slot t 0x100).owner == 6 && t.net.any (fun g => g.owner == 6 && g.kind == .revoke 0x100)),
    next (.registrationRequest 8 []) (carrying (oneMsg true) [theirs 0x100 6] []) (fun t => (slot t 0x100).st == .transfer && (slot t 0x100).waiting == [8] &&
      (slot t 0x100).owner == 6 && t.net.any (fun g => g.owner == 6 && g.kind == .revoke 0x100)),
    netTake (carrying (oneMsg true) [dirtyHome 0x100] [{ held 0 0x1234 with wa := 0x100, st := .pending, mask := 3, thru := true }]) 8 == some (oneMsg true),
    next (.registrationRequest 8 []) (carrying (oneMsg true) [dirtyHome 0x100] [{ held 0 0x1234 with wa := 0x100, st := .pending, mask := 3, thru := true }]) (fun t =>
      (slot t 0x100).st == .home && (slot t 0x100).val == 0x1234 && (slot t 0x100).tag == 4 &&
      (match l1Find t.l1 0 0x100 with | some y => y.st == .valid && y.val == 0x1234 | none => true))] = true := by
  decide +kernel

/-- An operation of the warp that waits for word 0x100. -/
def asking : State := withWarp ready (fun w => { w with pend := [{ outOp (.load 0 none) with srcs := [⟨0, 0x100, 0⟩], words := [(0x100, none)] }] })
def carryTo (m : Net) (ss : List SliceWord) (ls : List L1Word) : State := { carrying m ss ls with warps := asking.warps }
def grantMsg : Net := ⟨8, 0, .grant [(0x100, 0x11223344, 8)] true⟩
def granting : State := carrying grantMsg [theirs 0x100 0] [{ held 0 0xAABBCCDD with wa := 0x100, st := .pending, mask := 1 }, { held 1 2 with owner := 3 }]
def regd : L1Word := { held 0 0xAABBCCDD with wa := 0x100, st := .registered, mask := 5 }
def revMsg : Net := ⟨8, 0, .revoke 0x100⟩
def ansMsg : Net := ⟨8, 6, .revokeAnswer 0x100 0x77 1⟩
def wbMsg : Net := ⟨8, 6, .writeBack 0x100 0x77 1 2⟩
def fwdMsg : Net := ⟨8, 0, .forward 0 0 7 [0x100]⟩
def fwdAns (lost : Bool) : Net := ⟨8, 6, .forwardAnswer 0 0 7 [(0x100, 0x99)] lost⟩
def cameHome (s t : State) : Bool :=
  (slot t 0x100).st == .home && cohWord t 0x100 == 0x77 && (slot t 0x100).tag == 2 && (slot t 0x100).mask == 1 && t.l1 == s.l1 && sliceGet t 0x101 == sliceGet s 0x101
def learns (s t : State) (v : Word) : Bool := (w0 t).pend == (w0 s).pend.map (fun p => if p.id = 7 then learn 0x100 v s.tick p else p) && (w0 t).pend != (w0 s).pend

/-- R250 to R254. -/
theorem witness_CoherenceMessages : every [
    netTake granting 8 == some grantMsg,
    next (.grant 8) granting (fun t => l1Find t.l1 0 0x100 == some { held 0 0x112233DD with wa := 0x100, st := .registered, mask := 9 } &&
      t.mem == granting.mem && t.slices == granting.slices && l1Find t.l1 3 (wordOf 1) == l1Find granting.l1 3 (wordOf 1) && (l1Find t.l1 0 0x101).isNone),
    netTake (carrying revMsg [theirs 0x100 0] [regd]) 8 == some revMsg,
    next (.revocation 8) (carrying revMsg [theirs 0x100 0] [regd]) (fun t => (l1Find t.l1 0 0x100).isNone &&
      t.net.any (fun g => g.owner == 0 && g.kind == .revokeAnswer 0x100 0xAABBCCDD 5) && t.slices == [theirs 0x100 0]),
    netTake (carrying ansMsg [theirs 0x100 6, theirs 0x101 7] [regd]) 8 == some ansMsg,
    next (.revocationAnswer 8) (carrying ansMsg [theirs 0x100 6, theirs 0x101 7] [regd]) (cameHome (carrying ansMsg [theirs 0x100 6, theirs 0x101 7] [regd])),
    netTake (carrying wbMsg [theirs 0x100 6, theirs 0x101 7] [regd]) 8 == some wbMsg,
    next (.writeBack 8) (carrying wbMsg [theirs 0x100 6, theirs 0x101 7] [regd]) (cameHome (carrying wbMsg [theirs 0x100 6, theirs 0x101 7] [regd])),
    netTake (carrying fwdMsg [theirs 0x100 0] [regd]) 8 == some fwdMsg, (answerFor (carrying fwdMsg [theirs 0x100 0] [regd]) 0 0x100).isNone,
    next (.forwardedRead 8) (carrying fwdMsg [theirs 0x100 0] [regd]) (fun t => t.l1 == [regd] &&
      t.net.any (fun g => g.owner == 0 && g.kind == .forwardAnswer 0 0 7 [(0x100, 0xAABBCCDD)] false)),
    awaits (carryTo (fwdAns true) [] []) 0 0 7 0x100,
    next (.forwardedReadAnswer 8) (carryTo (fwdAns false) [] []) (fun t => learns asking t 0x99 && (w0 t).deferred.isEmpty),
    next (.forwardedReadAnswer 8) (carryTo (fwdAns true) [] []) (fun t => learns asking t 0x99 && (w0 t).deferred == [(.ownerLost, 0x400)])] = true := by
  decide +kernel

def readMsg : Net := ⟨8, 0, .read 0 0 7 [0x100] 0⟩
def atomMsg : Net := ⟨8, 0, .atomic 0 0 7 0 0x100 [(0, 5, 0), (31, 6, 0)]⟩
def checkMsg (tag : BitVec 16) : Net := ⟨8, 0, .check 0 0 3 0x400 0x100 4 tag⟩
/-- Two strands, siblings, with their tags; word 0x100 under the first's. -/
def rival : State := setCtx (carryTo (checkMsg 5) [dirtyHome 0x100] []) 0
  { ctxOf ready 0 with strands := [{ tag := 9, ped := [1], ctr := 0, st := 1 }, { tag := 5, ped := [2], ctr := 0, st := 1 }] }
def checking (s : State) : State := withWarp s (fun w => { w with holds := [.check], attempt := { w.attempt with checks := [8] } })

/-- R195, R207, R251, R253, R258. -/
theorem witness_SlicesAnswer : every [
    netTake (carryTo readMsg [dirtyHome 0x100] []) 8 == some readMsg, (lineFwd (carryTo readMsg [dirtyHome 0x100] []) 16).isNone,
    next (.sliceRead 8 []) (carryTo readMsg [dirtyHome 0x100] []) (fun t => learns asking t 0x55 && t.slices == [dirtyHome 0x100]),
    next (.sliceRead 8 []) (carryTo readMsg [theirs 0x100 6] []) (fun t => t.net.any (fun g => g.owner == 6 && g.kind == .forward 0 0 7 [0x100]) &&
      (slot t 0x100).st == .registered && (slot t 0x100).fbit),
    netTake (carryTo atomMsg [dirtyHome 0x100] []) 8 == some atomMsg,
    next (.sliceAtomic 8) (carryTo atomMsg [dirtyHome 0x100] []) (fun t => (slot t 0x100).st == .home && cohWord t 0x100 == 0x60 && sliceGet t 0x101 == sliceGet ready 0x101 &&
      (w0 t).pend.all (fun p => getAt none p.vals 0 == some 0x55 && getAt none p.vals 31 == some 0x5A)),
    raceAt rival 0 0x100 4 5, !(raceAt rival 0 0x100 2 5), !(raceAt rival 0 0x100 4 9),
    next (.checkRequest 8) (checking rival) (fun t => (w0 t).attempt.raced == [(3, 0x400)] && (w0 t).attempt.checked && (w0 t).holds.isEmpty && t.slices == rival.slices),
    next (.checkRequest 8) (checking { rival with net := [checkMsg 9] }) (fun t => (w0 t).attempt.raced.isEmpty && (w0 t).attempt.checked &&
      (w0 t).holds.isEmpty)] = true := by
  decide +kernel

end Sys2Proof.Tests
end

