-- ==== Sys2Proof/Tests/WitnessSync.lean ====
section
/-! SUPPORT. For the statements about sync words, Carousels and batches: states that meet their hypotheses, and there their
conclusions, by evaluation. -/

namespace Sys2Proof.Tests

open Sys2Proof.Machine Sys2Proof.Claim

set_option maxRecDepth 100000
set_option Elab.async false

/-- s2 and s6 as given, and a doubleword of the scratchpad at 0x40, and at 0x48, 0x50 and 0x58. -/
def syncing (a b : DWord) (x : Nat) (rest : List Nat) : State :=
  withBlock (withWarp busy (fun w => putS 2 a (putS 6 b w))) (fun k => { k with scr := memWrite [] 0x40 ((x :: rest).flatMap (natLe 8)), broken := [(0x40, 0xABC0), (0x50, 0xDEF0)] })

/-- `AtSync`. -/
def atSync (s1 : State) (x : Iss) : Bool :=
  match blockOf s1 x.w with
  | some b => b.scrq.isEmpty && running x.w && !(memHeld x.w [] 0) && b == b0 s1
  | none => false

/-- `Parks`. -/
def parks (sh : Shape) (x : Iss) (t : State) (k : Wait) : Bool :=
  leaves sh x t [] (releasedS sh.code x) [] 0 && (List.range 64).all (fun n => sGet (w0 t).regs n == sGet (basis x) n) && (w0 t).pc == x.w.pc &&
  match (w0 t).parked.getLast? with
  | some p => p.lanes == x.split && p.wait == k && p.rel == releasedS sh.code x && (w0 t).parked.length == x.w.parked.length + 1
  | none => false

/-- `Acquires`. -/
def gainsAcq (x : Iss) (t : State) (scope : Nat) : Bool :=
  if scope ≤ 1 then (w0 t).acq == x.w.acq else match (w0 t).acq with | some q => decide (scope ≤ q.scope) && q.range.isNone | none => false

/-- A sync instruction with the group's scope or destination in SD. -/
def onSync (i : Instr) (a b : DWord) (x : Nat) (f : Shape → State → Iss → State → Bool) : Bool :=
  after i (syncing a b x []) (fun sh s1 x t => atSync s1 x && f sh s1 x t)

def o26 (sd : BitVec 6) : OpsS := ⟨sd, 2, 6, false, false⟩
def o20 (sd : BitVec 6) : OpsS := ⟨sd, 2, 0, false, false⟩

/-- R399 to R409: the tests at their boundaries, and each instruction on a word in each of its states. -/
def checks_SyncWords : Bool :=
  let all (a : DWord) (k : Cause) (f : DWord) : Bool :=
    [Instr.synci g0 (o26 0), .synca g0 (o26 0), .syncw g0 (o26 0), .synct g0 (o20 9)].all (fun i => raises i (syncing a 0 0 []) k none f)
  let ring (a : DWord) (k : Cause) (f : DWord) : Bool :=
    [Instr.ringi g0 (o26 0), .rawait g0 (o20 9), .rrel g0 (o20 0)].all (fun i => raises i (syncing a 0 0 []) k none f)
  every [all 0x100000044 .misaligned 0x44, all 0x7_0000FFFC .misaligned 0xFFFC, all 65536 .protection 65536, ring 0x48 .misaligned 0x48, ring 65536 .protection 65536,
    onSync (.synci g0 (o26 0)) 0xFFF8 0xFFF12345 0 (fun sh s1 x t => leaves sh x t [] [] [] 0 && stepsOn x t && keepsRest x t && sameMem s1 t &&
      b0 t == { b0 s1 with scrq := [.synci 0 0xFFF8 0x12345] }),
    onSync (.synca g0 (o26 0)) 0x40 0xFFF00003 0 (fun sh s1 x t => completes sh x s1 t [] [] [] 0 && keepsRest x t &&
      (w0 t).arrivals.map (fun a => (a.off, a.amount)) == [(0x40, 3)]),
    onSync (.synca g0 (o26 0x11)) 0x40 3 0 (fun sh s1 x t => releaseReady s1 x.w 1 && completes sh x s1 t [] [] [] 0 && keepsRest x t &&
      (w0 t).arrivals.map (fun a => (a.off, a.amount)) == [(0x40, 3)]),
    onSync (.synca g0 (o26 0x15)) 0x40 3 0 (fun sh s1 x t => !(releaseReady s1 x.w 5) && completes sh x s1 t [] [] [] 0 && keepsRest x t && (w0 t).arrivals.isEmpty &&
      (w0 t).relq.map (fun r => (r.scope, r.cont, r.ops, r.stores)) == [(5, .arrive 0x40 3, (releaseList s1 x.w 5 none).1, (releaseList s1 x.w 5 none).2)]),
    onSync (.synct g0 (o20 9)) 0x40 0 (3 * 2 ^ 62 + 12345) (fun sh s1 x t => completes sh x s1 t [] [9] [] 0 && keepsRest x t && sAt t 9 == .ofNat 64 (3 * 2 ^ 62 + 12345)),
    [0, 1, 2, 5].all (fun sc => onSync (.syncw g0 (o26 (.ofNat 6 sc))) 0x40 1 (2 * 2 ^ 40) (fun sh s1 x t => completes sh x s1 t [] [] [] 0 && keepsRest x t && gainsAcq x t sc)),
    onSync (.syncw g0 (o26 3)) 0x40 0 (2 ^ 62 + 3 * 2 ^ 40) (fun sh s1 x t => completes sh x s1 t [] [] [] 0 && keepsRest x t && gainsAcq x t 3),
    onSync (.syncw g0 (o26 3)) 0x40 3 (3 * 2 ^ 40) (fun sh _ x t => parks sh x t (.syncw 0x40 1 3)),
    raises (.syncw g0 (o26 3)) (syncing 0x40 3 (2 * 2 ^ 62) []) .barrierOverrun none 0,
    raises (.syncw g0 (o26 3)) (syncing 0x40 3 (3 * 2 ^ 62) []) .copyFault none 0xABC0]

theorem witness_SyncWords : checks_SyncWords = true := by decide +kernel

/-- An arrival of k at a word on its way. -/
def arriving (k x : Nat) : State := withWarp (syncing 0 0 x []) (fun w => { w with arrivals := [⟨3, 0x48, 9⟩, ⟨4, 0x40, k⟩] })
def arrived (i : Instr) (k x y : Nat) : Bool :=
  let s := arriving k x
  Memory.wf (b0 s).scr && next i s (fun t => (w0 t) == { w0 s with arrivals := [⟨3, 0x48, 9⟩] } && sameMem s t &&
    dwordAt (b0 t) 0x40 == y && (List.range 0x80).all (fun a => (decide (0x40 ≤ a) && decide (a < 0x48)) || memGet (b0 t).scr a == memGet (b0 s).scr a))

/-- R400, R405: below the target, at it with the generation's wrap, beyond it; amount 0; words that are OVERRUN and FAULTED. -/
theorem witness_SyncArrivals : every [
    arrived (.syncaArrival 0 0 4) 2 (5 * 2 ^ 40 + 8 * 2 ^ 20 + 5) (5 * 2 ^ 40 + 8 * 2 ^ 20 + 7),
    arrived (.syncaArrival 0 0 4) 3 (0x3FFFFF * 2 ^ 40 + 8 * 2 ^ 20 + 5) (8 * 2 ^ 20),
    arrived (.syncaArrival 0 0 4) 4 (5 * 2 ^ 40 + 8 * 2 ^ 20 + 5) (2 * 2 ^ 62 + 5 * 2 ^ 40 + 8 * 2 ^ 20 + 5),
    arrived (.syncaArrival 0 0 4) 0 (5 * 2 ^ 40 + 8 * 2 ^ 20 + 8) (5 * 2 ^ 40 + 8 * 2 ^ 20 + 8),
    arrived (.syncaArrival 0 0 4) 3 (2 * 2 ^ 62 + 8 * 2 ^ 20 + 5) (2 * 2 ^ 62 + 8 * 2 ^ 20 + 5),
    arrived (.syncaArrival 0 0 4) 3 (3 * 2 ^ 62 + 8 * 2 ^ 20 + 5) (3 * 2 ^ 62 + 8 * 2 ^ 20 + 5),
    arrived (.syncaArrival 0 0 4) 1 (2 ^ 62 + 5 * 2 ^ 40 + 8 * 2 ^ 20 + 7) (2 ^ 62 + 6 * 2 ^ 40 + 8 * 2 ^ 20)] = true := by
  decide +kernel

/-! ## Carousels -/

/-- A Carousel at 0x40 with its pointers, three slots of 2 × 64 bytes from 0x1000; its words as given. -/
def ringed (rd take wr : Nat) (words : List Nat) (b : DWord) : State :=
  syncing 0x7_00000040 b (rd * 2 ^ 48 + take * 2 ^ 32 + wr * 2 ^ 16 + 9) ((0x1000 * 2 ^ 32 + 2 * 2 ^ 16 + 2) :: words)
def onRing (i : Instr) (s : State) (f : Shape → State → Iss → State → Bool) : Bool :=
  after i s (fun sh s1 x t => atSync s1 x && f sh s1 x t)

/-- R414 to R419. -/
def checks_Carousels : Bool :=
  let ptr (rd take wr : Nat) : Nat := rd * 2 ^ 48 + take * 2 ^ 32 + wr * 2 ^ 16 + 9
  let open_ : List Nat := [2 * 2 ^ 40, 2 * 2 ^ 40, 2 * 2 ^ 40]
  every [
    onRing (.ringi g0 (o26 0)) (ringed 0 0 0 open_ 0xFF40_0001_FFF2) (fun sh s1 x t => decide (0xFF40 + 3 * 64 ≤ 65536) && leaves sh x t [] [] [] 0 && stepsOn x t && keepsRest x t && sameMem s1 t &&
      b0 t == { b0 s1 with scrq := [.ringi 0 0x40 0xFF40_0001_FFF2] }),
    raises (.ringi g0 (o26 0)) (ringed 0 0 0 open_ 0x1000_03C1_0000) .protection none 0x1000,
    onRing (.rawait g0 (o20 9)) (ringed 0 0xFFFF 0 open_ 0) (fun sh s1 x t => leaves sh x t [] [9] [] 0 && stepsOn x t && keepsRest x t && gainsAcq x t 2 && sameMem s1 t &&
      sAt t 9 == .ofNat 64 (0xFFFF * 2 ^ 32 + 0x1000) && b0 t == { b0 s1 with scr := memWrite (b0 s1).scr 0x40 (natLe 8 (ptr 0 0 0)) }),
    onRing (.rawait g0 (o20 9)) (ringed 0 4 5 open_ 0) (fun sh s1 x t => leaves sh x t [] [9] [] 0 && stepsOn x t && keepsRest x t && gainsAcq x t 2 &&
      sAt t 9 == .ofNat 64 (4 * 2 ^ 32 + 0x1000 + 128) && b0 t == { b0 s1 with scr := memWrite (b0 s1).scr 0x40 (natLe 8 (ptr 0 5 5)) }),
    onRing (.rawait g0 (o20 9)) (ringed 0 4 4 open_ 0) (fun sh _ x t => parks sh x t (.rawait 0x40 9)),
    raises (.rawait g0 (o20 9)) (ringed 0 4 4 [0, 2 * 2 ^ 62, 0] 0) .barrierOverrun none 0,
    raises (.rawait g0 (o20 9)) (ringed 0 3 4 [3 * 2 ^ 62, 0, 0] 0) .copyFault none 0xDEF0,
    onRing (.rrel g0 (o20 0)) (ringed 0xFFFF 4 4 open_ 0) (fun sh s1 x t => x.w.pend.all (fun p => match p.kind with | .scratch _ => false | _ => true) &&
      leaves sh x t [] [] [] 0 && stepsOn x t && keepsRest x t && b0 t == { b0 s1 with scr := memWrite (b0 s1).scr 0x40 (natLe 8 (ptr 0 4 4)) }),
    raises (.rrel g0 (o20 0)) (ringed 4 4 5 open_ 0) .barrierOverrun none 0]

theorem witness_Carousels : checks_Carousels = true := by decide +kernel

/-! ## Batches -/

/-- A warp with batches, s2 the batch asked for. -/
def batched (n : DWord) (bs : List Batch) (o : BitVec 32) : State := withWarp busy (fun w => { putS 2 n w with batches := bs, openb := o })
def cwaitb : Instr := .cwaitb g0 ⟨0, 2, 0, false, false⟩
def sealed (o : BitVec 32) : Bool :=
  after (.cseal g0 ⟨9, 0, 0, false, false⟩) (batched 0 [] o) (fun sh s1 x t => completes sh x s1 t [] [9] [] 0 && sAt t 9 == o.setWidth 64 &&
    (w0 t).openb == (if o == 0xFFFFFFFF#32 then 1 else o + 1))

/-- R410 to R413: the number after the highest is 1; a batch 2^31 − 1 below is covered, one 2^31 below is not. -/
def checks_Batches : Bool :=
  every [sealed 1, sealed 0xFFFFFFFF, sealed 0x7FFFFFFF,
    after cwaitb (batched 0x80000000 [⟨1, 1, none, false⟩] 9) (fun sh _ x t => parks sh x t (.cwaitb 0x80000000)),
    after cwaitb (batched 0x80000001 [⟨1, 1, none, false⟩] 9) (fun sh s1 x t => completes sh x s1 t [] [] [] 0 && keepsRest x t),
    after cwaitb (batched 0xF_00000005 [⟨6, 1, none, false⟩, ⟨5, 0, none, false⟩, ⟨4, 0, some 9, true⟩] 9) (fun sh s1 x t => completes sh x s1 t [] [] [] 0 && keepsRest x t),
    issues cwaitb (batched 5 [⟨4, 0, some 0x111, false⟩, ⟨3, 0, some 0x333, false⟩, ⟨5, 0, some 0x555, false⟩] 9) (fun _ s1 x => next cwaitb (batched 5 [⟨4, 0, some 0x111, false⟩, ⟨3, 0, some 0x333, false⟩, ⟨5, 0, some 0x555, false⟩] 9) (fun t =>
      let w := { x.w with pc := laneIdx.map (fun l => getAt 0 x.w.pc l + 4) }
      let s2 := setWarp (noteIssue s1 w) { w with batches := [⟨4, 0, some 0x111, false⟩, ⟨3, 0, some 0x333, true⟩, ⟨5, 0, some 0x555, false⟩], chain := none }
      t == { raiseAt s2 (w0 s2) { cause := .copyFault, deferred := true, faddr := 0x333 } 0 with issue := none } && sameMem s1 s2))]

theorem witness_Batches : checks_Batches = true := by decide +kernel

end Sys2Proof.Tests
end

