-- ==== Sys2Proof/Tests/WitnessEngines.lean ====
section
/-! SUPPORT. For the statements about copies, tensor identifiers and the matrix engine: states that meet their hypotheses, and there
their conclusions, by evaluation. -/

namespace Sys2Proof.Tests

open Sys2Proof.Machine Sys2Proof.Claim

set_option maxRecDepth 100000
set_option Elab.async false

/-- Scalars from s4 on. -/
def putDs (ds : List DWord) (w : Warp) : Warp := ((List.range ds.length).zip ds).foldl (fun w p => putS (4 + p.1) p.2 w) w

/-- The page tables stand; scalars from s4 on; a Carousel at 0x40 of three slots of 128 bytes from 0x1000; bytes of memory. -/
def copying (ds : List DWord) (claim : Nat) : State :=
  poke 0x200000 [1, 2, 3, 4] (tabled (withBlock (withWarp ready (putDs ds)) (fun b => { b with
    scr := memWrite [] 0x40 (natLe 8 (5 * 2 ^ 48 + claim) ++ natLe 8 (0x1000 * 2 ^ 32 + 2 * 2 ^ 16 + 2)) })))

def oCopy : OpsS := ⟨12, 4, 8, false, false⟩
def cpy : Instr := .cpy g0 { oCopy with sb := 0 }
def cpymx : Instr := .cpymx g0 oCopy

/-- A copy is out as the statement says, `k` what more it holds. -/
def copied (i : Instr) (s : State) (f : State → Iss → State → Copy → Bool) : Bool :=
  after i s (fun sh s1 x t => (copyCause s1 x.w (i != cpy) (descriptor x 4) (if i != cpy then [x.s 8, x.s 9] else []) []).isNone &&
    decide (bulkUsed s1 x.w.core < Config.bulkEntries) && leaves sh x t [] [12] [] 0 && stepsOn x t && sAt t 12 == x.w.openb.setWidth 64 &&
    t.mem == s1.mem && t.slices == s1.slices && t.l1 == s1.l1 && (w0 t).batches.any (fun b => b.num == x.w.openb && decide (0 < b.live)) &&
    match t.copies.getLast? with
    | some k => t.copies == s1.copies ++ [k] && k.ctx == 0 && k.warp == 0 && k.blk == some 0 && k.core == x.w.core && k.batch == x.w.openb && !k.started &&
        f s1 x t k
    | none => false)

/-- The last warp of a block holds no streamer rights. -/
def second : State := withWarp (copying [2 * 2 ^ 62 + 64, 0, 0x200000, 0xFFFFFFFF] 5) (fun w => { w with k := 1 })

/-- R356, R415, R423 to R431: each route; none to move; no rights; a cause of the descriptor; a Carousel with a slot free, full, too
small. -/
def checks_CopiesIssue : Bool :=
  let plain (route : Nat) (s : State) (i : Instr) : Bool :=
    copied i s (fun s1 x t k => k.route == route && k.src == getAt 0 (descriptor x 4) 1 && k.dst == getAt 0 (descriptor x 4) 2 && k.len == 0x50 && k.total == 0x50 &&
      k.sync == (if (getAt 0 (descriptor x 4) 3).toNat % 2 ^ 32 = 0xFFFFFFFF then none else some 0x80) &&
      (if i == cpy then k.cmd == [] && t.blocks == s1.blocks else k.cmd == [x.s 8, x.s 9] && (b0 t).follows.map (fun f => (f.copy, f.landed)) == [(k.id, false)] &&
        b0 t == { b0 s1 with follows := (b0 t).follows }))
  let none_ (i : Instr) (s : State) : Bool :=
    after i s (fun sh s1 x t => leaves sh x t [] [12] [] 0 && stepsOn x t && sAt t 12 == x.w.openb.setWidth 64 && t.copies == s1.copies && sameMem s1 t)
  let ring (n : Nat) : List DWord := [.ofNat 64 (2 ^ 62 + n), 0x200000, 0x40, 0x80, 0, 0xFFFFFFFF]
  let waits (s : State) : Bool := issues cpy s (fun _ s1 x => copyHeld x.w (descriptor x 4) (tidRead s1 0 0 0) && next cpy s (fun t =>
    t.issue == s1.issue && t.copies == s1.copies && (w0 t).pc == x.w.pc && (w0 t).regs == x.w.regs))
  every [
    waits (withWarp (copying [0x50, 0x200000, 0x1000, 0x80] 5) (fun w => { w with acq := some ⟨5, [3], none, false⟩ })),
    plain 0 (copying [0x50, 0x200000, 0x1000, 0x80] 5) cpy, plain 0 (copying [0x50, 0x200000, 0xFFB0, 0xFFFFFFFF, 0x100, 0xFFFFFFFFFFFF] 5) cpymx,
    plain 2 (copying [.ofNat 64 (2 * 2 ^ 62 + 0x50), 0x1000, 0x200000, 0x80] 5) cpy,
    plain 3 (copying [.ofNat 64 (3 * 2 ^ 62 + 0x50), 0x200000, 0x300000, 0x80] 5) cpy,
    none_ cpy (copying [0, 0x200000, 0x1000, 0x80] 5), none_ cpymx (copying [0, 0x200000, 0x1000, 0x80, 0x100, 0] 5),
    issues cpy second (fun _ s1 x => !(streamRights s1 x.w)), raises cpy second .streamRights none 0,
    raises cpy (copying [0x58, 0x200000, 0x1000, 0x80] 5) .misaligned none 0x58, raises cpy (copying [0x50, 0x200000, 0xFFC0, 0x80] 5) .protection none 0xFFC0,
    raises cpymx (copying [0x50, 0x200000, 0x1000, 0x80, 0x8000000000000000, 0] 5) .tileState none 0,
    copied cpy (copying (ring 0x50) 7) (fun s1 _ t k => k.route == 1 && k.src == 0x200000 && k.len == 0x50 && k.total == 128 && k.sync == some (0x50 + 8) &&
      k.scr == 0x1000 + 128 && b0 t == { b0 s1 with scr := memWrite (b0 s1).scr 0x40 (natLe 8 (5 * 2 ^ 48 + 8)) }),
    copied cpymx (copying (ring 128) 5) (fun s1 _ t k => k.route == 1 && k.len == 128 && k.total == 128 && k.sync == some (0x50 + 16) &&
      k.scr == 0x1000 + 256 && (b0 t).scr == memWrite (b0 s1).scr 0x40 (natLe 8 (5 * 2 ^ 48 + 6))),
    after cpy (copying (ring 0x50) 8) (fun sh _ x t => !(copyHeld x.w (descriptor x 4) (tidRead ready 0 0 0)) && parks sh x t (.ring 0x40 12 false (descriptor x 4) [] (tidRead ready 0 0 0))),
    raises cpy (copying (ring 144) 7) .protection none 0x40]

theorem witness_CopiesIssue : checks_CopiesIssue = true := by decide +kernel

/-! ## CPYNB, CPY16, TIDSET, CBLOAD -/

/-- A clique of two clusters of one block. -/
def node2 : Node := ⟨0, 1, 1, 1, 2, false, 0, 0, false, 0, 0, [], [], 0, 0, []⟩
def clique (ds : List DWord) : State :=
  { copying ds 5 with graphs := [⟨0, 0, 1, [node2], []⟩], insts := [{ id := 0, ctx := 0, graph := 0, queue := 0, tag := 0, seed := 0, acc := 0, params := [], nodes := [.running] }] }

/-- v4 the lanes' addresses from s4 on, v2 their offsets; sync word at s1. -/
def laneCopy (a : Nat) (l1 : List L1Word) : State :=
  { copying [0x200000] 5 with l1 := l1, warps := (withWarp (copying [0x200000] 5) (fun w => putS 1 0x80 (putV 4 (fun l => .ofNat 32 (a + 16 * l))
    (putV 2 (fun l => .ofNat 32 (0x1000 + 16 * l)) w)))).warps }
def cpy16 (g : Grp) : Instr := .cpy16 g ⟨2, 4, 4, false, false, false, 1⟩

/-- A valid image: BF16, rank 2, box of 16 by 4. -/
def image : List Byte :=
  natLe 8 0x200000 ++ natLe 8 0x11 ++ natLe 4 64 ++ natLe 4 4 ++ natLe 4 1 ++ natLe 4 1 ++ natLe 8 128 ++ natLe 8 0 ++ natLe 8 0 ++
  natLe 2 16 ++ natLe 2 4 ++ natLe 2 1 ++ natLe 2 1 ++ List.replicate 32 0
def wordsOf (bs : List Byte) : List DWord := (List.range 12).map (fun k => .ofNat 64 (leNat ((bs.drop (8 * k)).take 8)))
def imaging (bs : List Byte) : State := withWarp ready (fun w => putS 1 0x1FF (putDs (wordsOf bs) w))
def tidset : Instr := .tidset g0 ⟨1, 4, 0, false, false⟩

/-- R210, R433, R434, R438, R446 to R448. -/
def checks_LaneCopiesAndIdentifiers : Bool :=
  let y : Nat := 0xFFF8
  every [
    after (.cpynb g0 ⟨12, 4, 0, false, false⟩) (clique [0x20, 0xFFE0, 0x1000, .ofNat 64 (2 ^ 32 + y)]) (fun sh s1 x t =>
      shapeAt s1 (b0 s1) == (2, 1) && streamRights s1 x.w && leaves sh x t [] [12] [] 0 && stepsOn x t && sAt t 12 == x.w.openb.setWidth 64 && sameMem s1 t &&
      t.blocks == s1.blocks && (w0 t).batches.any (fun b => b.num == x.w.openb && decide (0 < b.live)) && match t.copies with
      | [k] => k.ctx == 0 && k.warp == 0 && k.blk == some 0 && k.core == x.w.core && k.batch == x.w.openb && !k.started && k.kind == .cpynb && k.target == some 1 &&
          k.src == 0xFFE0 && k.scr == 0x1000 && k.len == 0x20 && k.total == 0x20 && k.sync == some y
      | _ => false),
    after (cpy16 (gm 1 false)) (laneCopy 0 []) (fun sh s1 x t => x.act == 0 && completes sh x s1 t [] [] [] 0 && keepsRest x t),
    after (cpy16 g0) (laneCopy 0 []) (fun sh s1 x t =>
      let as := (lanesOf x.act).map (fun l => (l, ((x.s 4).toNat + (lane (x.v 4) l).toNat) % 2 ^ 64, (lane (x.v 2) l).toNat))
      x.act != 0 && !(memHeld x.w (as.map (fun p => p.2.1)) 16) && (cpy16Cause s1 x.w as 0x80).isNone && decide (lanesUsed s1 x.w.core + as.length ≤ Config.laneEntries) &&
      as.all (fun p => !(lanePending s1 x.w p.2.1)) && leaves sh x t [] [] [] 0 && stepsOn x t && keepsRest x t && t.blocks == s1.blocks && sameMem s1 t &&
      (w0 t).batches.any (fun b => b.num == x.w.openb && decide (0 < b.live)) &&
      t.copies.map (fun k => (k.kind, k.lanesrc, k.scr)) == as.map (fun p => (.cpy16 p.1, .ofNat 64 p.2.1, p.2.2)) &&
      t.copies.all (fun k => k.ctx == 0 && k.warp == 0 && k.blk == some 0 && k.core == x.w.core && k.batch == x.w.openb && !k.started &&
        k.len == 16 && k.sync == some 0x80 && k.chunks == [0])),
    raises (cpy16 g0) (laneCopy 8 []) .misaligned (some 0) 0x200008, raises (cpy16 g0) (withWarp (laneCopy 0 []) (putS 1 0x10000)) .protection none 0x10000,
    raises (cpy16 g0) (withWarp (laneCopy 0 []) (putS 4 0x01FFFFFFFFFFFFF0)) .translation (some 1) 0x0200000000000000,
    issues tidset (imaging image) (fun _ s1 x => !(tidBusy s1 0) && !(imageBad s1 (scalarBytes x 4 12))),
    after tidset (imaging image) (fun sh s1 x t => completes sh x s1 t [] [] [] 0 && keepsRest x t && match t.casts with
      | [k] => (w0 t).holds.contains (.tid k.id) && (match k.kind with
        | .tid 0 0 0xFF 0 bs => bs.length == 96 && (List.range 12).all (fun j => leNat ((bs.drop (8 * j)).take 8) ==
            (if j = 1 then x.s 5 ||| 0x80000000#64 else x.s (4 + j)).toNat)
        | _ => false)
      | _ => false),
    after (.cbload g0 ⟨1, 4, 0, false, false⟩) (imaging image) (fun sh s1 x t => completes sh x s1 t [] [] [] 0 && keepsRest x t && match t.casts with
      | [k] => (w0 t).holds.contains (.tid k.id) && (match k.kind with
        | .tid 0 0 0xFF 96 bs => bs.length == 32 && (List.range 4).all (fun j => leNat ((bs.drop (8 * j)).take 8) == (x.s (4 + j)).toNat)
        | _ => false)
      | _ => false),
    raises tidset (imaging (layBytes image 8 [0x1A])) .tensorId none 0]

theorem witness_LaneCopiesAndIdentifiers : checks_LaneCopiesAndIdentifiers = true := by decide +kernel

/-! ## Copies that land -/

/-- A copy of 80 bytes between 0x200000 and offset 0x1030, two chunks. -/
def aCopy : Copy :=
  { id := 5, ctx := 0, warp := 0, blk := some 0, core := 0, kind := .cpy, batch := 1, desc := [], route := 0, scr := 0x1030, src := 0x200000, len := 80,
    total := 80, chunks := [0x40, 0x41] }
def outCopy : Copy := { aCopy with route := 2, scr := 0x1000, src := 0x1000, dst := 0x200030, chunks := [0x8000, 0x8001] }
def landingCopy (k : Copy) : State :=
  poke 0x200000 ((List.range 80).map (fun j => .ofNat 8 (j + 1))) (tabled (withWarp (withBlock ready (fun b => { b with
    scr := memWrite [] 0x1000 ((List.range 200).map (fun j => .ofNat 8 (200 - j))) })) (fun w => { w with batches := [⟨1, 1, none, false⟩] }))) |>
  fun s => { s with copies := [k] }
def laneOne16 : Copy :=
  { aCopy with kind := .cpy16 3, route := 0, scr := 0x1000, len := 16, total := 16, sync := some 0x1010, image := (List.range 16).map (fun j => .ofNat 8 (j + 0x80)), chunks := [0] }
def countingTo (s : State) : State := withBlock s (fun b => { b with scr := memWrite b.scr 0x1010 (natLe 8 (17 * 2 ^ 20)) })

/-- The bytes of the scratchpad from 0xFF0 on that satisfy a condition. -/
def spans (f : Nat → Bool) : Bool := (List.range 0x100).all (fun j => f (0xFF0 + j))

/-- R424, R428, R429, R432, R437, R438. -/
theorem witness_CopiesLand_in : every [
    (List.range 80).all (fun j => engXlate (landingCopy aCopy) 0 [] (0x200000 + j) false == .mem (2 ^ 51 + 0x200000 + j) none),
    next (.copyChunkLands 5 0x40) (landingCopy aCopy) (fun t => spans (fun off => memGet (b0 t).scr off ==
      (if 0x1030 ≤ off ∧ off < 0x1040 then .ofNat 8 (off - 0x1030 + 1) else memGet (b0 (landingCopy aCopy)).scr off)) && t.copies.map (fun q => (q.id, q.chunks)) == [(5, [0x41])])] = true := by
  decide +kernel

theorem witness_CopiesLand_last : every [
    next (.copyChunkLands 5 0x41) (landingCopy { aCopy with chunks := [0x41] }) (fun t => spans (fun off => memGet (b0 t).scr off ==
      (if 0x1040 ≤ off ∧ off < 0x1080 then .ofNat 8 (off - 0x1030 + 1) else memGet (b0 (landingCopy aCopy)).scr off)) && t.copies.isEmpty)] = true := by
  decide +kernel

theorem witness_CopiesLand_out : every [
    next (.copyChunkLands 5 0x8000) (landingCopy outCopy) (fun t => (List.range 0x90).all (fun j => cohByte t (2 ^ 51 + 0x200000 + j) ==
      (if 0x30 ≤ j ∧ j < 0x40 then .ofNat 8 (200 - (j - 0x30)) else cohByte (landingCopy outCopy) (2 ^ 51 + 0x200000 + j))))] = true := by
  decide +kernel

theorem witness_CopiesLand_lane : every [
    next (.cpy16LaneLands 5) (countingTo (landingCopy laneOne16)) (fun t => spans (fun off => (decide (0x1010 ≤ off) && decide (off < 0x1018)) ||
      memGet (b0 t).scr off == (if 0x1000 ≤ off ∧ off < 0x1010 then .ofNat 8 (off - 0x1000 + 0x80) else memGet (b0 (landingCopy laneOne16)).scr off)) &&
      dwordAt (b0 t) 0x1010 == 17 * 2 ^ 20 + 16 && t.copies.isEmpty)] = true := by
  decide +kernel

end Sys2Proof.Tests
end

