-- ==== Sys2Proof/Tests/WitnessMatrix.lean ====
section
/-! SUPPORT. For the statements about the matrix engine: states that meet their hypotheses, and there their conclusions, by
evaluation. -/

namespace Sys2Proof.Tests

open Sys2Proof.Machine Sys2Proof.Claim

set_option maxRecDepth 100000
set_option Elab.async false

/-- s4 and s5, a queue, an identifier 7 of I8, v8 an operand; TSTAMP's clock at 77. -/
def tiled (a b : DWord) (f : Block → Block) : State :=
  let im := layBytes image 8 [0x15, 0, 0, 0x80]
  { withCtx (withBlock (withWarp ready (fun w => putV 8 (fun l => .ofNat 32 (l + 1)) (putDs [a, b] w))) f) (fun c => { c with tids := [(7, im)] }) with tb := 77 }
def free4 (b : Block) : Block := { b with active := ⟨4, []⟩, tile := setAt {} b.tile 1 { fmt := .i32, el := [(65, 9)] }, ppIn := true }
def oMx : OpsS := ⟨0, 4, 0, false, false⟩

/-- `SameMatrix`, over the block's tiles. -/
def sameMatrix (b b' : Block) : Bool :=
  b'.scr == b.scr && b'.active == b.active && b'.shadow == b.shadow && (List.range 4).all (fun n =>
    (getAt {} b'.tile n).el == (getAt {} b.tile n).el && (getAt {} b'.tile n).fmt == (getAt {} b.tile n).fmt && (getAt {} b'.tile n).flags == (getAt {} b.tile n).flags)

/-- A command enters the queue. -/
def enters (i : Instr) (s : State) : Bool :=
  after i s (fun sh s1 x t => match x.c.body with
    | .S o =>
      let b := b0 s1
      match matrixCommand s1 x b o i with
      | some (.ok op y) => decide (b.tiles ≠ 0) && mayEnter s1 b (true, 0) && leaves sh x t [] [] [] 0 && stepsOn x t && keepsRest x t && sameMatrix b (b0 t) &&
          !(b0 t).ppIn && sameMem s1 t && (match (b0 t).queue.getLast? with
            | some q => (b0 t).queue == b.queue ++ [q] && q.warp == 0 && q.op == op && q.sync == y && !q.running
            | none => false)
      | _ => false
    | _ => false)

/-- A command's checks meet a cause. -/
def refusedMx (i : Instr) (s : State) (k : Cause) (a : Nat) : Bool :=
  issues i s (fun _ s1 x => match x.c.body with
    | .S o => matrixCommand s1 x (b0 s1) o i == some (.bad k a)
    | _ => false) && raises i s k none (.ofNat 64 a)

/-- MXRD and MXFLAGS: the command that enters, and the operation that waits for it. -/
def asksMx (i : Instr) (s : State) (dv : List Nat) (f : POp → MxOp → Bool) : Bool :=
  after i s (fun sh s1 x t => leaves sh x t dv [] [] 0 && stepsOn x t && sameMem s1 t && sameMatrix (b0 s1) (b0 t) &&
    goesOut x s1 t (fun op => op.kind == .mxrd && op.flag.isNone && (w0 t).holds.contains (.op op.id) &&
      match (b0 t).queue.getLast? with
      | some q => (b0 t).queue == (b0 s1).queue ++ [q] && f op q.op
      | none => false))

/-- R453, R456, R460 to R470. -/
def checks_MatrixCommandsIssue : Bool :=
  let outside (b : Block) : Block := { b with tiles := 0 }
  let mxls : Instr := .mxls g0 oMx
  let mxstr : Instr := .mxstr g0 oMx
  let mxst : Instr := .mxst ⟨false, 0, some ⟨0, false, 5, 0, false, false, 0⟩, none⟩ oMx
  let ls (off y : Nat) : State := tiled (.ofNat 64 off) (.ofNat 64 (y * 256 + 7)) free4
  every [
    [mxls, .mxswap g0 { oMx with sa := 0 }, mxstr, .mxzero g0 oMx, .mxrd g0 { oMx with sd := 9 }, .mxwr g0 { oMx with sb := 8 }, mxst, .mxflags g0 { oMx with sd := 9 },
      .tstamp g0 oMx, .ppoint g0 oMx].all (fun i => isMatrix i && raises i (tiled 0 0 outside) .tileState none 0),
    enters mxls (ls 0xE000 0xFFFF), enters mxls (ls 0 0x1FFF), refusedMx mxls (ls 0xE010 0xFFFF) .protection 0xE010, refusedMx mxls (ls 8 0xFFFF) .misaligned 8,
    refusedMx mxls (ls 0 0x2000) .protection 0x10000, refusedMx mxls (tiled 0 0xFFFF08 free4) .tensorId 0,
    enters (.mxswap g0 { oMx with sa := 0 }) (tiled 0 0 free4),
    enters mxstr (tiled (.ofNat 64 (0x1000 + 2 ^ 19 + 63 * 2 ^ 23 + 3 * 2 ^ 29)) 0xFFFF0000FFFF free4),
    refusedMx mxstr (tiled (.ofNat 64 (0x1000 + 2 ^ 19 + 63 * 2 ^ 23 + 3 * 2 ^ 29)) (.ofNat 64 (0xFFFF0000FFFF + 2 ^ 48)) free4) .tileState 0,
    refusedMx mxstr (tiled (.ofNat 64 (0x1000 + 3 * 2 ^ 29)) 0xFFFF0000FFFF free4) .tileState 0,
    enters (.mxzero g0 oMx) (tiled 0x23 0 free4), refusedMx (.mxzero g0 oMx) (tiled 0x33 0 free4) .tileState 0, refusedMx (.mxzero g0 oMx) (tiled 0x04 0 free4) .tileState 0,
    enters (.mxwr g0 { oMx with sb := 8 }) (tiled 0x7F3 0 free4), refusedMx (.mxwr g0 { oMx with sb := 8 }) (tiled 0xF 0 free4) .tileState 0,
    enters mxst (tiled 0x1000 0xFFFF01000000 free4), enters mxst (tiled 0x200000 (.ofNat 64 (0xFFFF00800000 + 0x100 + 0x10)) free4),
    refusedMx mxst (tiled 0x1000 0xFFFF00F00000 free4) .tileState 0, refusedMx mxst (tiled 0xC010 0xFFFF01000000 free4) .protection 0xC010,
    raises (.mxrd g0 { oMx with sd := 9 }) (tiled 4 0 free4) .tileState none 0, raises (.mxflags g0 { oMx with sd := 9 }) (tiled 4 0 free4) .tileState none 0,
    asksMx (.mxrd g0 { oMx with sd := 9 }) (tiled 0x7F3 0 free4) [9] (fun op q => op.vdst == some 9 && op.lanes == 0xFFFFFFFF#32 && q == .mxrd 3 63 1 op.id),
    asksMx (.mxflags g0 { oMx with sd := 9 }) (tiled 0x13 0 free4) [] (fun op q => op.vdst.isNone && op.sdst == some 9 && q == .mxflags 3 true op.id),
    raises (.tstamp g0 oMx) (tiled 4 0 free4) .tileState none 0,
    after (.tstamp g0 oMx) (tiled 0xABCD0003 0 free4) (fun sh s1 x t => accepted s1 6 && leaves sh x t [] [] [] 0 && stepsOn x t && keepsRest x t && sameMatrix (b0 s1) (b0 t) &&
      sameMem s1 t && !(b0 t).ppIn && (b0 t).queue == (b0 s1).queue && (match (getAt {} (b0 t).tile 3).stamp with
        | some r => r.tag == 0xABCD && r.warp == 0 && r.copyin == 77 && r.wait.isNone && r.compute.isNone && r.copyout.isNone
        | none => false)),
    after (.ppoint g0 oMx) (tiled 0xFFFFFFFFFFFFFFF8 0 free4) (fun sh s1 x t => leaves sh x t [] [] [] 0 && stepsOn x t && keepsRest x t && sameMatrix (b0 s1) (b0 t) &&
      sameMem s1 t && (b0 t).ppIn && (List.range 18).all (fun k => (b0 t).ppMask.getLsbD k == ((x.s 4).getLsbD k && (decide (k < 4) || decide (16 ≤ k)))))]

theorem witness_MatrixCommandsIssue : checks_MatrixCommandsIssue = true := by decide +kernel

/-! ## Commands that start and complete -/

/-- A block with one command in its queue that runs, and an operation of the warp that waits for it. -/
def running1 (op : MxOp) : State :=
  let s := tiled 0 0 (fun b => { free4 b with
    queue := [{ id := 70, warp := 0, op := op, sync := none, running := true }, { id := 71, warp := 0, op := .mxswap, sync := none }]
    shadow := ⟨2, [(5, 0x7F)]⟩, active := ⟨4, [(5, 0)]⟩, scr := memWrite [] 0x1000 [3, 0, 2, 0x81] })
  withWarp s (fun w => { w with holds := [.op 7], pend := [{ id := 7, kind := .mxrd, vdst := some 9, lanes := 0xFFFFFFFF#32, vals := [] }] })

/-- The command is done. -/
def doneMx (i : Instr) (op : MxOp) (f : Block → State → Bool) : Bool :=
  let s := running1 op
  Memory.wf (b0 s).scr && next i s (fun t => (b0 t).queue == [{ id := 71, warp := 0, op := .mxswap, sync := none }] && sameMem s t && f (b0 s) t)

/-- Other tiles, planes and scratchpad as they were. -/
def onlyTile (n : Nat) (b : Block) (t : State) : Bool :=
  (b0 t).active == b.active && (b0 t).shadow == b.shadow && (b0 t).scr == b.scr && (List.range 5).all (fun j => j == n || getAt {} (b0 t).tile j == getAt {} b.tile j)
def el (t : State) (n r k : Nat) : Word := tileEl (getAt {} (b0 t).tile n) r k

/-- An operation of MXFLAGS that names s9. -/
def flagging : State :=
  withWarp (running1 (.mxflags 1 true 7)) (fun w => { w with pend := [{ id := 7, kind := .mxrd, sdst := some 9 }] })

/-- R457, R458, R461 to R468. -/
theorem witness_MatrixCommandsComplete : every [
    next (.matrixCommandStart 0 0) (running1 (.mxzero 2 .f16)) (fun t => (b0 t).queue.map (fun q => q.running) == [true, true] && t.warps == (running1 (.mxzero 2 .f16)).warps &&
      !(conflicts .mxswap (.mxzero 2 .f16)) && sameMatrix (b0 (running1 (.mxzero 2 .f16))) (b0 t)),
    doneMx (.matrixCommandDone 0 0 70) .mxswap (fun b t => (b0 t).active == b.shadow && (b0 t).shadow == b.active && (b0 t).tile == b.tile && (b0 t).scr == b.scr),
    doneMx (.matrixCommandDone 0 0 70) (.mxzero 1 .f16) (fun b t => onlyTile 1 b t && getAt {} (b0 t).tile 1 == { fmt := .f16 }),
    doneMx (.matrixCommandDone 0 0 70) (.mxwr 1 1 0 (mkLanes (fun l => .ofNat 32 (100 + l)))) (fun b t => onlyTile 1 b t && el t 1 1 0 == 100 && el t 1 1 31 == 131 &&
      el t 1 1 32 == 0 && el t 1 0 63 == 0),
    doneMx (.matrixCommandDone 0 0 70) (.mxwr 3 63 1 (mkLanes (fun _ => 0xFF800001))) (fun b t => onlyTile 3 b t && el t 3 63 32 == 0x7FC00000 && el t 3 63 63 == 0x7FC00000 &&
      el t 3 63 31 == 0),
    doneMx (.matrixCommandDone 0 0 70) (.mxstr 0x1000 1 0 3 1 none) (fun b t => onlyTile 1 b t && el t 1 1 0 == 15 && el t 1 1 1 == 9 && el t 1 0 0 == 0 && el t 1 2 0 == 0),
    doneMx (.matrixCommandDone 0 0 70) (.mxls 0x1000 0 0 0 (layBytes image 8 [0x15, 0, 0, 0x80])) (fun b t => (b0 t).active == b.active && (b0 t).tile == b.tile && (b0 t).scr == b.scr &&
      (b0 t).shadow.mode == 4 && getAt (0, 0) (b0 t).shadow.w 3 == (0x81, 0x7F) && getAt (0, 0) (b0 t).shadow.w 8191 == (0, 0x7F) && (b0 t).shadow.w.length == 8192),
    doneMx (.matrixCommandDone 0 0 70) (.mxst 0x2000 1 5 false 64 0 false 0 0) (fun b t => (b0 t).active == b.active && (b0 t).tile == b.tile &&
      memGet (b0 t).scr 0x2041 == 9 && memGet (b0 t).scr 0x2040 == 0 && memGet (b0 t).scr 0x1003 == 0x81 && (w0 t).regs.flags == 0),
    doneMx (.matrixCommandDone 0 0 70) (.mxrd 1 1 0 7) (fun b t => (b0 t).tile == b.tile && (w0 t).pend.isEmpty && (w0 t).holds.isEmpty && (vEntry (w0 t).regs 9).st != .mapped),
    next (.matrixCommandDone 0 0 70) flagging (fun t => (w0 t).pend.isEmpty && (w0 t).holds.isEmpty && sAt t 9 == 0x20 && sAt t 8 == 0 && onlyTile 1 (b0 flagging) t &&
      (getAt {} (b0 t).tile 1).flags == 0)] = true := by
  decide +kernel

end Sys2Proof.Tests
end

