-- ==== Sys2Proof/Tests/WitnessTasks.lean ====
section
/-! SUPPORT. For the statements about tasks and reducer views: states that meet their hypotheses, and there their conclusions, by
evaluation. -/

namespace Sys2Proof.Tests

open Sys2Proof.Machine Sys2Proof.Claim

set_option maxRecDepth 100000
set_option Elab.async false

/-- The page tables stand; the context has 16 warps, so that its task area is mapped; s4 to s10 as given. -/
def tasked (ds : List DWord) (e : Strand) (f : Task → Task) : State :=
  let s := withTask (withCtx (tabled (withWarp ready (putDs ds))) (fun c => { c with ctxlim := .ofNat 64 (16 * 2 ^ 32 + 16), roots := [(0, e)] })) f
  { s with fresh := 40 }

/-- The same run by the strand of tag 3. -/
def stranded (ds : List DWord) (e : Strand) (f : Task → Task) : State :=
  withCtx (withWarp (tasked ds {} (fun t => f { t with tag := 3 })) (fun w => { w with tag := 3 })) (fun c => { c with strands := [{ e with tag := 3, st := 1, root := 9 }] })

/-- `TaskOf`. -/
def taskOf (s1 : State) (x : Iss) : Option Task := x.w.task.bind (taskFind s1)

/-- `MemAs`. -/
def memAs (s t : State) : Bool := t.mem == s.mem && t.slices == s.slices && t.l1 == s.l1 && t.net == s.net
def keptCount (s1 t : State) (f : Strand → Strand) : Bool :=
  let p := strandOf t (w0 t)
  let q := f (strandOf s1 (w0 s1))
  p.ped == q.ped && p.ctr == q.ctr && p.alloc == q.alloc && p.logs == q.logs && p.kids == q.kids && p.key == q.key

def tspawn : Instr := .tspawn g0 ⟨12, 4, 0, false, false⟩
def tsync : Instr := .tsync g0 ⟨12, 0, 0, false, false⟩
def args : List DWord := [0xFFFFFFFF_00000100, 11, 12, 13, 14]

/-- A spawn, as the statement says. -/
def spawns (s : State) : Bool :=
  after tspawn s (fun sh s1 x t => match taskOf s1 x with
    | none => false
    | some tk =>
      let e := strandOf s1 x.w
      s1.tasks.all (fun k => k.id != s1.fresh) && decide ((if x.w.tag = 0 then 1 else 2) ≤ freeEntries (ctxOf s1 0)) && releaseReady s1 x.w 6 &&
      leaves sh x t [] [12] [] 0 && stepsOn x t && sAt t 12 == e.ctr.setWidth 64 && (w0 t).regs.q == 0 && (w0 t).regs.draw == 0 &&
      keptCount s1 t (fun p => { p with ctr := e.ctr + 1, alloc := 0, logs := 0, kids := e.kids + 1 }) && dequeOf t x.w.core == s1.fresh :: dequeOf s1 x.w.core &&
      match t.tasks.find? (fun k => k.id == s1.fresh) with
      | none => false
      | some k => k.launch == tk.launch && k.parent == some tk.id && k.ent == some e.ctr && k.st == .queued && k.entry == 0x100 && k.args == [11, 12, 13, 14] && k.home == 0 &&
          match (ctxOf t 0).strands.find? (fun c => c.tag == k.tag) with
          | none => false
          | some c => c.st == 1 && c.ped == e.ped ++ [e.ctr] && c.ctr == 0 && c.alloc == 0 && c.logs == 0 && c.kids == 0 && c.key == extendKey e.key e.ctr &&
              let s2 := { s1 with fresh := s1.fresh + 1 }
              memAs (if x.w.tag = 0 then putEntry s2 0 c else putEntry (putEntry s2 0 c) 0 (strandOf t (w0 t))) t)

def strand0 : Strand := { ped := [5], ctr := 0x300007, st := 1, alloc := 4, logs := 2, kids := 1, key := 0x123456789ABCDEF0 }
def kid (id : Nat) (st : TaskSt) (ctr : BitVec 32) : Task :=
  { id := id, ctx := 0, launch := 0, parent := some 0, ent := some ctr, st := st, entry := 0x40, args := [21, 22, 23, 24], tag := 6 }
def withKids (s : State) (ks : List Task) (q : List Nat) : State := { s with tasks := s.tasks ++ ks, deques := [(0, q)] }

/-- R362 to R366, R370, R372, R373: TSPAWN at the bounds of the address, the depth and the rank; from a root and from a strand. -/
def checks_Tspawn : Bool :=
  every [spawns (stranded args { strand0 with ped := List.replicate 31 1, ctr := 0x3FFFFE } id),
    raises tspawn (tasked (0x108 :: args.drop 1) { strand0 with ped := List.replicate 32 1 } id) .misaligned none 0,
    raises tspawn (tasked args { strand0 with ped := List.replicate 32 1, ctr := 0xFFFFF } id) .pedigreeDepth none 0,
    raises tspawn (tasked args { strand0 with ctr := 0x2FFFFF } id) .pedigreeRank none 0]

theorem witness_TaskInstructions_spawnRoot : spawns (tasked args strand0 id) = true := by decide +kernel
theorem witness_TaskInstructions_spawn : checks_Tspawn = true := by decide +kernel

/-- A TSYNC without children, as the statement says. -/
def synced (s : State) (ep : Nat) : Bool :=
  after tsync s (fun sh s1 x t => (taskOf s1 x).isSome && (childrenOf s1 0).isEmpty && (x.w.tag == 0 || decide (0 < freeEntries (ctxOf s1 0))) &&
    leaves sh x t [] [12] [] 0 && stepsOn x t && sAt t 12 == .ofNat 64 ((ep + 1) * 2 ^ 20) && (w0 t).regs.q == 0 && (w0 t).regs.draw == 0 && gainsAcq x t 6 &&
    keptCount s1 t (fun p => { p with ctr := .ofNat 32 ((ep + 1) * 2 ^ 20), alloc := 0, logs := 0, kids := 0 }))

/-- R375: without children, at the last epoch but one and the last; with a child that runs. -/
def checks_Tsync : Bool :=
  every [synced (tasked args strand0 id) 3, synced (stranded args { strand0 with ctr := 0xFFE00007 } id) 4094,
    raises tsync (tasked args { strand0 with ctr := 0xFFF00000 } id) .pedigreeRank none 0,
    after tsync (withKids (tasked args strand0 id) [kid 7 .running 0x300001] []) (fun sh s1 x t => (childrenOf s1 0).length == 1 && parks sh x t (.tsync 12) && memAs s1 t)]

theorem witness_TaskInstructions_sync : checks_Tsync = true := by decide +kernel

/-- R375: a child queued in this epoch runs inline, where the parent's frame can be written. -/
def inlined : State := withKids (tasked args strand0 id) [kid 7 .queued 0x300001, kid 8 .queued 0x300002] [8, 7]
def checks_Inline : Bool :=
  issues tsync inlined (fun _ s1 x => x.split == live x.w && quiet x.w && x.w.rupds.isEmpty && x.w.relq.isEmpty && x.w.arrivals.isEmpty && freeWarp s1 0 == some 1 &&
    (match taskOf s1 x with
     | some tk => (inlineChild (setTask s1 { tk with mergeEpoch := some 3 }) x.w { tk with mergeEpoch := some 3 }).map (fun k => k.id) == some 8
     | none => false)) &&
  issues tsync inlined (fun _ s1 x => match taskOf s1 x with
    | some tk => good (writeFrame (setTask s1 { tk with mergeEpoch := some 3 }) x.w none) (fun _ => true)
    | none => false)

theorem witness_TaskInstructions_inline : checks_Inline = true := by decide +kernel

def pgrd (l : DWord) (d n : Nat) : Bool :=
  after (.pgrd g0 ⟨12, 4, 0, false, false⟩) (tasked [l] { strand0 with ped := List.replicate d 5 } id) (fun sh s1 x t =>
    completes sh x s1 t [] [12] [] 0 && keepsRest x t && sAt t 12 == .ofNat 64 n)
def pgkey (k : DWord) (v : DWord) : Bool :=
  after (.pgkey g0 ⟨12, 4, 0, false, false⟩) (tasked [k] strand0 id) (fun sh s1 x t => completes sh x s1 t [] [12] [] 0 && keepsRest x t && sAt t 12 == v)

/-- A page of the arena at the draw's address. -/
def arenaAt (p : Nat) (s : State) : State := { s with tlb := ⟨0, 0, p / 2 ^ 30 * 2 ^ 30, 30, bootLeaf⟩ :: s.tlb }
def drawAt (c : Word) (k : Nat) (m : Nat) : Nat := 0x12 * 2 ^ 48 + (drawBits (extendKey strand0.key strand0.ctr) c 0).toNat % 2 ^ k * m
def arena (s : State) : State := withCtx s (fun c => { c with arena := 0x0012000000000000 })
def allocAt : Nat := drawAt (0x80000000#32 ||| 4) 31 65536
def logAt : Nat := drawAt (0xC0000000#32 ||| 2) 28 64 + 2 ^ 47

/-- A slot is claimed and filled; `held` is the claim that it holds before. -/
def claims (i : Instr) (s : State) (p size : Nat) (c : Word) (after_ : Strand → Strand) (sd : DWord) (fill : Iss → State → Warp → State × Warp) : Bool :=
  after i s (fun sh s1 x t =>
    let want : Want := { size := size, align := 16, rd := true, wr := true, atom := true, kind := kAtomic, watch := false }
    let e := strandOf s1 x.w
    gated s1 x.w want [(0, p)] (fun s2 es => s2 == s1 && es == [(0, p, bootLeaf)]) && leafKind bootLeaf == 0 && x.w.tag == 0 &&
    !(anyPending s1 x.w ((List.range (size / 4)).map (fun k => (0, p + 4 * k, bootLeaf)))) && e.tag == x.w.tag.toNat &&
    leaves sh x t [] [12] [] 0 && stepsOn x t && sAt t 12 == sd && strandOf t (w0 t) == after_ e &&
    let wa := leafPa bootLeaf p / 4
    let cl := claimWords (extendKey e.key e.ctr) c
    (cohWord s1 wa, cohWord s1 (wa + 1)) == (0, 0) &&
    let r := fill x (cohStore (cohStore s1 wa 15#4 cl.1) (wa + 1) 15#4 cl.2) x.w
    sameMem r.1 t && t.net == r.1.net && (w0 t).stores == r.2.stores && (w0 t).stack == r.2.stack)

/-- R378, R384, R385. -/
def checks_Pedigrees : Bool :=
  every [pgrd 0 1 (5 + 2 * 2 ^ 32 + 2 ^ 40), pgrd 1 1 (0x300007 + 2 * 2 ^ 32 + 2 ^ 40), pgrd 2 1 (2 * 2 ^ 32), pgrd 0x100000000 32 (33 * 2 ^ 32),
    pgkey 0 (extendKey strand0.key strand0.ctr), pgkey 1 strand0.key, pgkey 2 0,
    [0, 65521].all (fun z => after (.palloc g0 ⟨12, 4, 0, false, false⟩) (tasked [z] strand0 id) (fun sh s1 x t => completes sh x s1 t [] [12] [] 0 && keepsRest x t && sAt t 12 == 0)),
    raises (.palloc g0 ⟨12, 4, 0, false, false⟩) (tasked [65520] { strand0 with alloc := 0x40000000 } id) .pedigreeRank none 0,
    raises (.tlog g0 ⟨12, 4, 0, false, false⟩) (tasked args { strand0 with logs := 0x40000000 } id) .pedigreeRank none 0,
    claims (.palloc g0 ⟨12, 4, 0, false, false⟩) (arenaAt allocAt (arena (tasked [65520] strand0 id))) allocAt 16 (0x80000000#32 ||| 4)
      (fun e => { e with alloc := 5 }) (.ofNat 64 (allocAt + 16)) (fun _ s w => storePair s w (allocAt + 8) bootLeaf 65520 0),
    claims (.tlog g0 ⟨12, 4, 0, false, false⟩) (arenaAt logAt (arena (tasked [1, 2, 3, 4, 5, 6, 0x700000007] strand0 id))) logAt 64 (0xC0000000#32 ||| 2)
      (fun e => { e with logs := 3 }) (.ofNat 64 logAt) (fun x s w => (List.range 7).foldl (fun (a : State × Warp) k => storePair a.1 a.2 (logAt + 8 + 8 * k) bootLeaf
          (.ofNat 32 (x.s (4 + k)).toNat) (.ofNat 32 ((x.s (4 + k)).toNat / 2 ^ 32))) (s, w))]

theorem witness_TaskInstructions_pedigrees : checks_Pedigrees = true := by decide +kernel

/-! ## Views -/

def viewOf (r op : Nat) (v : ViewVal) : View := { id := 30, ctx := 0, task := 0, r := r, op := op, val := v, core := some 0, used := 3 }
/-- A task at the start of an epoch, with a view, v8 contributions. -/
def viewing (ctr : BitVec 32) (rs : List Reducer) (vs : List View) : State :=
  { tasked [] { strand0 with ctr := ctr } (fun t => { t with reducers := rs }) with
    views := vs
    warps := (withWarp (tasked [] {} id) (putV 8 (fun l => .ofNat 32 (0x3F800000 + l)))).warps }
def rdecl : Instr := .rdecl g0 ⟨0, 2, 4, false, false⟩
def rupd : Instr := .rupd g0 ⟨0, 2, 8, false, false⟩
def rget : Instr := .rget g0 ⟨12, 2, 0, false, false⟩

/-- R387 to R394. -/
def checks_Views : Bool :=
  let mine : Reducer := ⟨2, 1, true, 30⟩
  let acc : View := viewOf 2 0 { acc := 2 ^ 200, sticky := 0 }
  every [raises rdecl (viewing 0x300001 [] []) .illegal none 0, raises rdecl (viewing 0x300000 [{ mine with mine := false }] []) .illegal none 0,
    after rdecl (viewing 0x300000 [] []) (fun sh s1 x t => leaves sh x t [] [] [] 0 && stepsOn x t && keepsRest x t &&
      t.views.any (fun v => v.id == s1.fresh && v.task == 0 && v.r == 2 && v.op == 4 && v.val == { word := 0x7FFFFFFF } && v.core == some 0) &&
      (taskFind t 0).map (fun k => k.reducers) == some [⟨2, 4, true, s1.fresh⟩] && memAs (makeRoom s1 0) t),
    after rdecl (viewing 0x300000 [mine] [viewOf 2 1 { word := 9 }]) (fun sh s1 x t => leaves sh x t [] [] [] 0 && stepsOn x t && keepsRest x t &&
      t.views.map (fun v => (v.id, v.op, v.val.word)) == [(30, 4, 0x7FFFFFFF)] && (taskFind t 0).map (fun k => k.reducers) == some [⟨2, 4, true, 30⟩] &&
      memAs (putView s1 (viewOf 2 4 (viewIdentity 4))) t),
    raises rupd (viewing 0x300001 [] []) .illegal none 0,
    after rupd (viewing 0x300001 [mine] [viewOf 2 1 {}]) (fun sh s1 x t => completes sh x s1 t [] [] [] 0 && keepsRest x t &&
      (w0 t).rupds == x.w.rupds ++ [⟨2, (List.range 32).map (fun l => .ofNat 32 (0x3F800000 + l))⟩]),
    raises rget (viewing 0x300001 [mine] []) .illegal none 0, raises rget (viewing 0x300000 [] []) .illegal none 0,
    raises rget (viewing 0x300000 [{ mine with mine := false }] []) .illegal none 0,
    after rget (viewing 0x300000 [mine] [viewOf 2 1 { word := 0xFFFFFFFF }]) (fun sh s1 x t => leaves sh x t [] [12] [] 0 && stepsOn x t && keepsRest x t &&
      sAt t 12 == 0xFFFFFFFF && t.views.map (fun v => (v.id, v.val.word)) == [(30, 0xFFFFFFFF)] && t.tasks == s1.tasks),
    after rget (viewing 0x300000 [{ mine with op := 0 }] [acc]) (fun sh _ x t => leaves sh x t [] [12] [] (accRead acc.val.acc acc.val.sticky).2 && stepsOn x t && keepsRest x t &&
      sAt t 12 == ((accRead acc.val.acc acc.val.sticky).1).setWidth 64 && t.views.map (fun v => v.val) == [acc.val])]

theorem witness_Views : checks_Views = true := by decide +kernel

/-- RUPDs wait: two contributions to a view of an operation. -/
def applying (op : Nat) (v : ViewVal) : State :=
  withWarp (viewing 0x300000 [⟨2, op, true, 30⟩] [viewOf 2 op v]) (fun w => { w with rupds := [⟨2, [0xFFFFFFFE, 0x3F800000]⟩, ⟨2, []⟩] })
def applied (i : Instr) (op : Nat) (v : ViewVal) : Bool :=
  next i (applying op v) (fun t => (w0 t).rupds == [⟨2, []⟩] && t.views.map (fun y => (y.op, y.val.word)) == [(op, contribution op (contribution op v.word 0xFFFFFFFE) 0x3F800000)])

/-- A parent with a view, its child COMPLETE with a fresh one. -/
def merging (op : Nat) (a b : ViewVal) (m : Option Nat) : State :=
  { viewing 0x300000 [⟨2, op, true, 30⟩] [viewOf 2 op a, { viewOf 2 op b with id := 31, task := 7 }] with
    tasks := [{ bootTask with reducers := [⟨2, op, true, 30⟩], mergeEpoch := some 3, mergeChild := m },
              { kid 7 .complete 0x300001 with fresh := true, reducers := [⟨2, op, false, 31⟩, ⟨4, 1, false, 32⟩] }, kid 8 .running 0x300002] }

/-- R393, R395. -/
theorem witness_Views_engine : every [
    (List.range 9).all (fun op => op == 0 || applied (.rupdApply 0 0) op { word := 0x7F800000 }),
    next (.rupdApply 0 0) (applying 0 { acc := 5, sticky := 0 }) (fun t => t.views.map (fun y => (y.val.acc, y.val.sticky)) ==
      [[0xFFFFFFFE, 0x3F800000].foldl (fun a x => accAdd a.1 a.2 x) (5, 0)]),
    next (.viewMerge 0 0) (merging 1 { word := 3 } { word := 4 } none) (fun t => (taskFind t 0).map (fun p => p.mergeChild) == some (some 7) &&
      t.views == (merging 1 { word := 3 } { word := 4 } none).views),
    next (.viewMergeDone 0 0) (merging 1 { word := 3 } { word := 4 } (some 7)) (fun t => (taskFind t 0).map (fun p => p.mergeChild) == some none &&
      t.tasks.map (fun k => k.id) == [0, 8] && t.views.map (fun v => (v.id, v.val.word)) == [(30, 7)]),
    next (.viewMergeDone 0 0) (merging 0 { acc := 3, sticky := 1 } { acc := 4, sticky := 2 } (some 7)) (fun t =>
      t.views.map (fun v => (v.id, v.val.acc, v.val.sticky)) == [(30, accMerge 3 1 4 2)])] = true := by
  decide +kernel

/-! ## Tasks that move on -/

/-- A queued task in the deque of core v. -/
def queuedOn (v : Nat) : State :=
  { tasked [] strand0 id with tasks := [bootTask, { kid 7 .queued 0x300001 with home := v }], deques := [(v, [7])] }
def started (s t : State) (core slot v : Nat) : Bool :=
  (taskSlot s 0 core slot) && freeWarp s 0 == some 1 && (savedTaskWarp s core slot).isNone && !(stopsLaunch s 0) &&
  match warpFind t 0 1, taskFind t 7 with
  | some w, some k => w.task == some 7 && w.core == core && w.slot == slot && w.place == .resident && w.launch == 0 && w.tag == 6 && w.exited == 0 &&
      w.pc == List.replicate 32 0x40 && w.depth == List.replicate 32 0 && (List.range 64).map (sGet w.regs) == [21, 22, 23, 24] ++ List.replicate 60 0 &&
      (List.range 56).all (fun r => vEntry w.regs r == {}) && w.regs.flags == 0 && k.st == .running && k.warp == some 1 && (dequeOf t v).isEmpty
  | _, _ => false

/-- A parent, its child over; a root over; a tag RETIRING; a table without entries. -/
def childOver (fresh : Bool) : State :=
  { tasked [] strand0 id with
    tasks := [bootTask, { kid 7 .running 0x300001 with warpDone := true, fresh := fresh, reducers := [⟨2, 1, true, 30⟩, ⟨3, 1, false, 31⟩] }]
    views := [viewOf 2 1 {}, { viewOf 3 1 {} with id := 31 }] }
def rootOver : State :=
  withCtx { tasked [] { strand0 with kids := 0 } (fun t => { t with warpDone := true }) with slices := [{ dirtyHome (wordOf 0) with ctx := 0 }] }
    (fun c => { c with strands := [{ tag := 9, root := 0, st := 1 }, { tag := 4, root := 1, st := 1 }] })
def retiring (acks : List Nat) : State :=
  withCtx { tasked [] strand0 id with slices := [{ dirtyHome (wordOf 0) with ctx := 0 }, { dirtyHome (wordOf 1) with ctx := 1 }] }
    (fun c => { c with strands := [{ tag := 9, root := 0, st := 2, acks := acks }] })
def stuck : State :=
  withWarp (withKids (withCtx (tasked [] strand0 id) (fun c => { c with ctxlim := .ofNat 64 (16 * 2 ^ 32 + 1) })) [kid 7 .queued 0x300001] [])
    (fun w => { w with parked := [{ lanes := 0xFFFFFFFF, wait := .tsync 12, seq := 1 }] })

/-- R259, R368 to R371, R376, R377, R380. -/
theorem witness_TasksMoveOn : every [
    next (.taskDispatch 3 95 none) (queuedOn 3) (fun t => started (queuedOn 3) t 3 95 3),
    next (.taskDispatch 0 1 (some 3)) (queuedOn 3) (fun t => started (queuedOn 3) t 0 1 3),
    next (.taskComplete 0 0) rootOver (fun t => t.tasks.isEmpty && (ctxOf t 0).roots.isEmpty && (ctxOf t 0).strands.all (fun e => e.root != 0 || e.st == 2) &&
      t.launches.map (fun l => l.rootsOpen) == [0]),
    next (.taskComplete 0 7) (childOver false) (fun t => t.tasks.map (fun k => k.id) == [0] && taskStrand t bootTask == { strand0 with kids := 0 } && t.views.map (fun v => v.id) == [31]),
    next (.taskComplete 0 7) (childOver true) (fun t => t.tasks.map (fun k => (k.id, k.st)) == [(0, .running), (7, .complete)] && taskStrand t bootTask == { strand0 with kids := 0 }),
    decide (sliceOf ready (4 * wordOf 0) < 2 ^ 20),
    next (.tagClearAck 0 9 (sliceOf ready (4 * wordOf 0))) (retiring [sliceOf ready (4 * wordOf 0)]) (fun t => (sliceGet t (wordOf 0)).tag == 0 && (sliceGet t (wordOf 1)).tag == 9 &&
      (ctxOf t 0).strands.isEmpty),
    next (.tagClearAck 0 9 (sliceOf ready (4 * wordOf 0))) (retiring [sliceOf ready (4 * wordOf 0), 77]) (fun t => (sliceGet t (wordOf 0)).tag == 0 &&
      (ctxOf t 0).strands.map (fun e => e.acks) == [[77]]),
    next (.strandTable 0) stuck (fun t => (ctxOf t 0).st == .faulted && (ctxOf t 0).faultrec == faultRecord stuck 0 .strandTable none none 0 &&
      (ctxOf t 0).preempt.isSome && t.warps == stuck.warps)] = true := by
  decide +kernel

/-- R329: a saved task warp comes back before a queued task starts. -/
def savedWarp : State := withWarp (tasked [] strand0 id) (fun w => { w with place := .saved, blk := none })
theorem witness_TasksMoveOn_saved : every [(savedTaskWarp savedWarp 5 0).isSome, taskSlot savedWarp 0 5 0] = true := by decide +kernel

end Sys2Proof.Tests
end

