-- ==== Sys2Proof/Tests/WitnessQueues.lean ====
section
/-! SUPPORT. For the statements about queues, launches, control registers and migration: states that meet their hypotheses, and there
their conclusions, by evaluation. -/

namespace Sys2Proof.Tests

open Sys2Proof.Machine Sys2Proof.Claim

set_option maxRecDepth 100000
set_option Elab.async false

/-! ## Records -/

/-- A graph of a node and a record node: the record edge number 3 with a queue of 2 and batches of 2. -/
def nodeA : Node := { node2 with ndies := 1, dclust := 1, slots := [7, 8] }
def nodeB : Node := { nodeA with record := true, slots := [] }
def graphAB : Graph := ⟨5, 0, 64, [nodeA, nodeB], [⟨0, 1, true, 3, 1, 2⟩]⟩
def instAB : Inst :=
  { id := 20, ctx := 0, graph := 5, queue := 1, tag := 99, seed := 0x1122334455667788, acc := 2, params := [[7, 8], []], started := true
    nodes := [.running, .open_], batches := [0, 4], formed := 1 }

/-- The queues 1 (of packets) and 2 (of completions), a graph, a run, its launch 0. -/
def rigged (x : Inst) (ds : List DWord) : State :=
  { withWarp (tasked ds strand0 id) (fun w => w) with
    graphs := [graphAB], insts := [x], launches := [{ bootLaunch with inst := 20, batch := [[1, 2, 3, 4], [5, 6, 7, 8]] }]
    queues := [{ num := 1, base := 0x200000, cq := 2, st := 1, ctx := 0, log2 := 1, rd := 0xFFFFFFFF, wr := 1 },
               { num := 2, base := 0x201000, st := 1, kind := 1, ctx := 0, log2 := 1, rd := 4, wr := 5 }] }

def qemit : Instr := .qemit g0 ⟨12, 4, 8, false, false⟩
def emits (x : Inst) (e : DWord) (code : DWord) : Bool :=
  after qemit (rigged x [11, 12, 13, 14, e]) (fun sh s1 i t => releaseReady s1 i.w 6 && completes sh i s1 t [] [12] [] 0 && keepsRest i t && sAt t 12 == code &&
    if code = 0 then (w0 t).holds.contains (.op s1.fresh) && (instFind t 20).map (fun y => y.flying) == some (x.flying ++ [(s1.fresh, 0, [11, 12, 13, 14])])
    else t.insts == s1.insts)
def qread (k : DWord) (r : List DWord) : Bool :=
  after (.qread g0 ⟨12, 4, 0, false, false⟩) (rigged instAB [k]) (fun sh s1 i t => completes sh i s1 t [] [12, 13, 14, 15, 16] [] 0 && keepsRest i t &&
    (List.range 5).map (fun j => sAt t (12 + j)) == r)

/-- R337 to R340: QEMIT to an edge that it has, has not, whose queue is full; QREAD within and beyond the batch. -/
def checks_Queues : Bool :=
  every [emits instAB 3 0, emits { instAB with recq := [(0, [[0, 0, 0, 0]])] } 3 0, emits { instAB with recq := [(0, [[0, 0, 0, 0]])], flying := [(1, 0, [])] } 3 1,
    emits instAB 4 2, emits instAB 8 2, emits instAB 0x100000003 2, qread 1 [5, 6, 7, 8, 2], qread 2 [0, 0, 0, 0, 2]]

theorem witness_QueuesAndLaunches_records : checks_Queues = true := by decide +kernel

/-! ## Packets, completion records, runs -/

/-- A packet at the read index. -/
def packet (bs : List Byte) : State := poke 0x200040 bs (rigged instAB [])
def launchPacket (n : Nat) (rest : List Byte) : List Byte := natLe 2 1 ++ natLe 2 0 ++ natLe 4 5 ++ natLe 8 77 ++ natLe 8 0xABCDEF ++ natLe 8 n ++ rest
def onePatch (node slot : Nat) : List Byte := natLe 2 node ++ natLe 1 slot ++ natLe 5 0 ++ natLe 8 1234

/-- The record that joins those of the completion queue. -/
def recordedAs (s t : State) (tag : DWord) (status : Nat) : Bool :=
  match queueFind t 2 with
  | some d => d.recs.map (fun r => (r.tag, r.status, r.src, r.time)) == [(tag, status, 1, .ofNat 64 (s.tb.toNat * 5 / 6))]
  | none => false
def readOn (t : State) : Bool := (queueFind t 1).map (fun q => (q.rd, q.st)) == some (0, 1)
def accepts (s t : State) (ps : List (List DWord)) : Bool :=
  readOn t && match t.insts with
  | [a, i] => a == instAB && i.ctx == 0 && i.graph == 5 && i.queue == 1 && i.tag == 77 && i.seed == 0xABCDEF && !i.started && i.formed == 0 && i.nodes == [.waiting, .waiting] &&
      (ctxOf t 0).acc == (ctxOf s 0).acc + 1 && (List.range 3).all (fun k => (List.range 17).all (fun b => getAt 0 (getAt [] i.params k) b == getAt 0 (getAt [] ps k) b))
  | _ => false

/-- A waiting completion record. -/
def recording : State :=
  let s := rigged instAB []
  { s with queues := s.queues.map (fun q => if q.num = 2 then { q with recs := [⟨55, 1, 66, 88, 1, true⟩, ⟨56, 0, 0, 0, 1, false⟩] } else q) }

/-- A run not started; a launch that is over. -/
def waitingRun : State := rigged { instAB with started := false, nodes := [.waiting, .waiting], formed := 0 } []
def ended (ns : List NodeSt) : State :=
  { rigged { instAB with nodes := ns, energy := 3 } [] with launches := [{ bootLaunch with inst := 20, next := 1, liveBlocks := 0, rootsOpen := 0, energy := 4 }] }
def arrivingRec (ns : List NodeSt) (q : List (List DWord)) : State := rigged { instAB with nodes := ns, recq := [(0, q)], flying := [(33, 0, [9, 9, 9, 9])] } []

/-- R332 to R335, R344 to R346. -/
theorem witness_QueuesAndLaunches_packets : every [
    decide (waitingRecs (packet []) 0 < 4096),
    next (.packetAccept 1) { packet [] with ctxs := (withCtx (packet []) (fun c => { c with ptroot := 0 })).ctxs } (fun t =>
      (queueFind t 1).map (fun q => q.st) == some 2 && recordedAs (packet []) t 0xFFFFFFFF 3),
    next (.packetAccept 1) (packet (natLe 2 2 ++ natLe 6 0 ++ natLe 8 77)) (fun t => readOn t && recordedAs (packet []) t 77 0 && t.insts == [instAB]),
    next (.packetAccept 1) (packet (natLe 2 3 ++ natLe 6 0 ++ natLe 8 77)) (fun t => readOn t && recordedAs (packet []) t 77 4 && t.insts == [instAB]),
    next (.packetAccept 1) (packet (launchPacket 3 [])) (fun t => readOn t && recordedAs (packet []) t 77 4 && t.insts == [instAB]),
    next (.packetAccept 1) (packet (launchPacket 1 (onePatch 2 0))) (fun t => readOn t && recordedAs (packet []) t 77 4 && t.insts == [instAB]),
    next (.packetAccept 1) (packet (launchPacket 0 [])) (fun t => accepts (packet []) t [[7, 8], []]),
    next (.packetAccept 1) (packet (launchPacket 1 (onePatch 1 15))) (fun t => accepts (packet []) t [[7, 8], List.replicate 15 0 ++ [1234]]),
    next (.completionRecordWrite 2) recording (fun t => (queueFind t 2).map (fun q => (q.wr, q.recs.map (fun r => r.tag))) == some (6, [56]) &&
      queueFind t 1 == queueFind recording 1 && cohBytes t (2 ^ 51 + 0x201020) 32 == natLe 8 55 ++ natLe 4 1 ++ natLe 4 6 ++ natLe 8 66 ++ natLe 8 88)] = true := by
  decide +kernel

/-- R337, R346. -/
theorem witness_QueuesAndLaunches_runs : every [
    next (.instanceStart 0 5) waitingRun (fun t => t.insts.map (fun y => y.started) == [true] && t.launches.any (fun l => l.ctx == 0 && l.inst == 20 && l.node == 0 &&
      l.batch == [] && l.next == 0 && l.dies == [0] && l.key == extendKey (extendKey 0x1122334455667788 0) 0)),
    next (.recordArrival 33) (arrivingRec [.running, .open_] []) (fun t => t.insts.map (fun y => (y.flying, recqOf y 0)) == [([], [[9, 9, 9, 9]])]),
    next (.recordArrival 33) (arrivingRec [.running, .open_] [[1, 1, 1, 1]]) (fun t => t.launches.any (fun l => l.inst == 20 && l.node == 1 &&
      l.batch == [[1, 1, 1, 1], [9, 9, 9, 9]] && l.key == extendKey (extendKey 0x1122334455667788 1) 4)),
    next (.launchComplete 0) (ended [.running, .open_]) (fun t => t.launches.isEmpty && t.insts.isEmpty),
    next (.launchComplete 0) { ended [.running, .open_] with graphs := [{ graphAB with nodes := [nodeA, nodeA], edges := [] }] } (fun t =>
      t.launches.map (fun l => l.node) == [] && t.insts.map (fun y => (y.energy, nodeSt y 0)) == [(7, .done)]),
    next (.launchComplete 0) { ended [.running, .done] with graphs := [{ graphAB with nodes := [nodeA, nodeA], edges := [] }] } (fun t =>
      t.launches.isEmpty && t.insts.isEmpty && recordedAs (ended []) t 99 0)] = true := by
  decide +kernel

/-! ## Grants -/

/-- Blocks of 40 threads, two in a cluster, fused, a scalar that counts. -/
def nodeG : Node := ⟨0x80, 40, 2, 1, 2, false, 1, 4, true, 0, 512, [], [], 0x4, 100, [3, 5]⟩
def granting2 : State :=
  { tabled (withCtx ready (fun c => { c with ctxlim := .ofNat 64 (16 * 2 ^ 32 + 16) })) with
    fresh := 40, warps := [], blocks := [], tasks := [], graphs := [⟨5, 0, 64, [nodeG], []⟩], insts := [{ instAB with nodes := [.running], params := [[3, 5]] }]
    launches := [{ bootLaunch with inst := 20, next := 2, liveBlocks := 2, rootsOpen := 4, seq := 9, key := 6, barred := true }] }

/-- A launch whose group does not fit: its context has too few warps. -/
def crowded : State := { withCtx granting2 (fun c => { c with ctxlim := .ofNat 64 (16 * 2 ^ 32 + 3) }) with
  launches := [{ bootLaunch with inst := 20, next := 2, liveBlocks := 2, rootsOpen := 4 }] }

/-- R312, R347, R350 to R358. -/
theorem witness_QueuesAndLaunches_grants : every [
    groupFits granting2 nodeG [8, 10], !(yieldsTo granting2 { bootLaunch with inst := 20, next := 2 } 0), numbersFit granting2 0 2 4,
    next (.blockGrant 0 [8, 10]) granting2 (fun t => t.launches.map (fun l => (l.next, l.liveBlocks, l.rootsOpen, l.barred)) == [(4, 4, 8, false)] && t.fused == [(2, 0)] &&
      t.blocks.map (fun b => (b.linear, b.core, b.scrLen, b.tiles, b.liveWarps)) == [(2, 8, 512, 1, 2), (3, 10, 512, 1, 2)] && t.blocks.all (fun b => b.scr.isEmpty && !b.saved) &&
      t.warps.map (fun w => (w.blk, w.core, w.k, w.linear, w.age.seq, w.exited)) ==
        [(some 0, 8, 0, 4, 9, 0), (some 0, 8, 1, 5, 9, 0xFFFFFF00), (some 1, 10, 0, 6, 9, 0), (some 1, 10, 1, 7, 9, 0xFFFFFF00)] &&
      t.warps.all (fun w => w.pc == List.replicate 32 0x80 && w.tag == 0 && w.regs.flags == 0 &&
        (List.range 64).map (sGet w.regs) == [3, .ofNat 64 (5 + w.k * 100)] ++ List.replicate 62 0)),
    !(nextFits crowded nodeG { bootLaunch with inst := 20, next := 2 }),
    next (.grantWaitExpiry 0) crowded (fun t => t.launches.map (fun l => l.barred) == [true] && t.warps == [] && t.blocks == [])] = true := by
  decide +kernel

/-! ## Control registers, TIME, BBC, MIGRATE -/

def csrOps (sd : BitVec 6) (n : Nat) : OpsS := ⟨sd, .ofNat 6 n, .ofNat 6 (n / 64), false, false⟩
/-- A machine in which every control register holds something. -/
def registered : State :=
  { withCtx (withWarp ready (fun w => { w with limbst := 5, stackLim := 0x1234, carryx := (List.range 32).map (fun l => .ofNat 32 (l + 7)), regs := { w.regs with flags := 0x15 } }))
      (fun c => { c with rndmode := 4, pol := true, spills := 3, luskip := 4, lostTags := 6, ctxcfg := 2, bbcctl := 0x8000000000001000 }) with tb := 12345 }

def csrReads (n : Nat) (v : DWord) : Bool :=
  after (.csrr g0 (csrOps 12 n)) registered (fun sh s1 x t => completes sh x s1 t [] [12] [] 0 && keepsRest x t && sAt t 12 == v)

/-- A write, and what the warp and the context are after it. -/
def csrWrites (n : Nat) (v : DWord) (f : Warp → Ctx → Warp × Ctx) : Bool :=
  after (.csrw g0 (csrOps 4 n)) (withWarp registered (putS 4 v)) (fun _ s1 x t =>
    let r := f x.w (ctxOf s1 0)
    let w := w0 t
    t.issue.isNone && stepsOn x t && w.regs == { r.1.regs with order := w.regs.order } && w.stackLim == r.1.stackLim && w.carryx == r.1.carryx && w.stackMax == x.w.stackMax &&
    w.privbase == x.w.privbase && w.limbst == x.w.limbst && w.depth == x.w.depth && w.tag == x.w.tag && sameMem s1 t && t.blocks == s1.blocks && t.tasks == s1.tasks && ctxOf t 0 == r.2)

/-- R310, R313, R314, R521, R522: every number, read and written. -/
def checks_System : Bool :=
  every [(controlRegisters registered (w0 registered)).all (fun p => csrReads p.1 p.2), csrReads 0x40 7, csrReads 0x5F 38,
    [0x007, 0x00B, 0x00F, 0x01C, 0x03F, 0x060, 0x7F0].all (fun n => firstIs (.csrr g0 (csrOps 12 n)) registered .illegal none 0 && firstIs (.csrw g0 (csrOps 4 n)) registered .illegal none 0),
    csrWrites 0x000 0xFFFFFFFFFFFFFFFA (fun w c => ({ w with regs := { w.regs with flags := 0x3A } }, c)),
    csrWrites 0x001 0xFFFFFFFFFFFFFFFD (fun w c => (w, { c with rndmode := 5 })), csrWrites 0x001 6 (fun w c => (w, c)), csrWrites 0x002 2 (fun w c => (w, { c with pol := false })),
    csrWrites 0x003 3 (fun w c => (w, { c with staletrap := true })), csrWrites 0x004 0xAAAABBBBCCCCDDDD (fun w c => (w, { c with spills := 0xAAAABBBB, luskip := 0xCCCCDDDD })),
    csrWrites 0x005 0 (fun w c => (w, { c with raceEn := false })), csrWrites 0x006 0xF00000009 (fun w c => (w, { c with lostTags := 9 })),
    csrWrites 0x009 0x12340FFFF (fun w c => ({ w with stackLim := 0xFFFF }, c)), csrWrites 0x009 0xFFFF0012 (fun w c => ({ w with stackLim := 0x12 }, c)),
    csrWrites 0x008 9 (fun w c => (w, c)), csrWrites 0x00A 9 (fun w c => (w, c)), csrWrites 0x01B 9 (fun w c => (w, c)), csrWrites 0x010 9 (fun w c => (w, c)),
    csrWrites 0x05F 0x2_00000009 (fun w c => ({ w with carryx := setAt 0 w.carryx 31 9 }, c)),
    after (.time g0 ⟨12, 0, 0, false, false⟩) registered (fun sh s1 x t => completes sh x s1 t [] [12] [] 0 && keepsRest x t && sAt t 12 == 12345),
    after (.bbc g0 (csrOps 0 0xFFF)) registered (fun sh s1 x t => completes sh x s1 t [] [] [] 0 && keepsRest x t && !x.second &&
      (w0 t).chain.any (fun ch => ch.bbc == [(0xFFF, 32)])),
    after (.bbc g0 (csrOps 0 5)) ready (fun sh s1 x t => completes sh x s1 t [] [] [] 0 && keepsRest x t && (w0 t).chain.any (fun ch => ch.bbc == []))]

theorem witness_SystemAndMigration_registers : checks_System = true := by decide +kernel

def migrate : Instr := .migrate g0 ⟨12, 4, 0, false, false⟩
/-- A task warp of core 130 that names an address. -/
def leaving (va : DWord) (f : Warp → Warp) : State :=
  let s := tasked [va] strand0 id
  withWarp { s with tlb := ⟨130, 0, 0, 30, bootLeaf ||| 0x0800000000000000#64⟩ :: ⟨130, 0, 2 ^ 30, 30, 0x0008000000000099#64⟩ :: s.tlb } (fun w => f { w with blk := none, core := 130 })

/-- A leaf of a window. -/
def winLeaf : BitVec 64 := 0x4000000000000007

/-- R300 to R302. -/
def checks_Migrate : Bool :=
  every [raises migrate (leaving 0x200040 (fun w => { w with blk := some 0 })) .migrateFault none 0x200040,
    raises migrate (leaving 0x200040 (fun w => { w with inHandler := true })) .migrateFault none 0x200040,
    raises migrate (leaving 0x0200000000000000 id) .translation none 0x0200000000000000,
    raises migrate (leaving 0x80000000 (fun w => { w with attempt := { w.attempt with xlate := [(0x80000, .unresolvable)] } })) .translation none 0x80000000,
    raises migrate (leaving 0x80000000 (fun w => { w with attempt := { w.attempt with xlate := [(0x80000, .leaf winLeaf)] } })) .migrateFault none 0x80000000,
    after migrate (leaving 0x200040 id) (fun sh s1 x t => (xlateOf s1 x.w 0x200040).isSome && completes sh x s1 t [] [12] [] 0 && keepsRest x t && sAt t 12 == 1 &&
      match (w0 t).place with | .departing d sl => d == leafHome (bootLeaf ||| 0x0800000000000000#64) && sl == homeSlice (leafPa (bootLeaf ||| 0x0800000000000000#64) 0x200040) | _ => false)]

theorem witness_SystemAndMigration_migrate : checks_Migrate = true := by decide +kernel

/-- A warp on its way, its core holding a copy, a view of its task in its core's pool. -/
def moving (p : Place) : State :=
  let s := tasked [5] strand0 id
  { withWarp s (fun w => { w with blk := none, place := p, core := 130, slot := 96, stack := [(0x21000000, 9)] }) with
    l1 := [{ held 0 1 with owner := 130 }], views := [{ viewOf 2 1 { word := 6 } with core := some 130 }] }

/-- A frame of zeros to land from. -/
def landingHere : State := { moving (.inTransit 2 9) with warps := (moving (.inTransit 2 9)).warps.map (fun w => { w with stack := [] }) }

/-- R302 to R305. -/
theorem witness_SystemAndMigration_moves : every [
    settled (moving (.departing 1 9)) (w0 (moving (.departing 1 9))), ownerOf (moving (.departing 1 9)) 130 == 130,
    next (.migrateDepart 0 0) (moving (.departing 1 9)) (fun t => (w0 t).place == .resident && (w0 t).core == 130 && (w0 t).slot == 96 && (w0 t).stack.isEmpty &&
      (w0 t).regs == (w0 (moving .resident)).regs && (w0 t).pc == (w0 (moving .resident)).pc && t.l1.isEmpty &&
      cohBytes t (2 ^ 51 + 0x21000000) 4 == [9, 0, 0, 0]),
    good (readFrame landingHere (w0 landingHere)) (fun bs => !(frameBad (w0 landingHere) bs)), landingSlot landingHere 2 9 == some (292, 96),
    mayLand landingHere 2 (w0 landingHere), (oldest (landingHere.warps.filter (fun x => flyingTo 2 x && mayLand landingHere 2 x))).any (fun w => w.num == 0),
    next (.migrateLand 0 0) landingHere (fun t => (w0 t).place == .landed && (w0 t).core == 292 && (w0 t).slot == 96 && (List.range 64).all (fun j => sAt t j == 0) &&
      (w0 t).pc == List.replicate 32 0),
    (chainNext (moving .landed) (w0 (moving .landed))).isNone, (freeSlots (moving .landed) 130).head? == some 0,
    next (.migrateSettle 0 0) (moving .landed) (fun t => w0 t == { w0 (moving .landed) with place := .resident, slot := 0, chain := none } &&
      t.blocks == (moving .landed).blocks && t.mem == (moving .landed).mem)] = true := by
  decide +kernel

/-- R303: to another die, through the frame, which can be written. -/
theorem witness_SystemAndMigration_departs : every [settled (moving (.departing 2 9)) (w0 (moving (.departing 2 9))), (w0 (moving (.departing 2 9))).chain.isNone,
    (moving (.departing 2 9)).copies.isEmpty, dieOf (w0 (moving (.departing 2 9))).core == 1,
    good (writeFrame (viewsLeave (moving (.departing 2 9)) (w0 (moving (.departing 2 9)))) (w0 (moving (.departing 2 9))) none) (fun _ => true)] = true := by
  decide +kernel

end Sys2Proof.Tests
end

