-- ==== Sys2Proof/Tests/WitnessContexts.lean ====
section
/-! SUPPORT. For the statements about translations, multicasts, pre-emption and teardown: states that meet their hypotheses, and
there their conclusions, by evaluation. -/

namespace Sys2Proof.Tests

open Sys2Proof.Machine Sys2Proof.Claim

set_option maxRecDepth 100000
set_option Elab.async false

/-- The owner's connection 5 on port 0, its peer 3, with messages in sequence from 10 and to 20. -/
def ownerConn : Conn := { port := 0, num := 5, peer := 3, owner := true, rx := 10, tx := 20 }
def linked (s : State) : State :=
  { s with ports := { getAt {} s.ports 0 with en := true, st := .up, lanes := 8, good := 255 } :: s.ports.drop 1, conns := [ownerConn] }

/-- `Answered`, on that connection. -/
def told (s t : State) (tag : BitVec 32) (status : Nat) (payload : List Byte) : Bool :=
  match connFind s 0 5, connFind t 0 5 with
  | some k, some k' => k'.tx == k.tx + 1 && (match k'.unacked.getLast? with
      | some m => k'.unacked == k.unacked ++ [m] && m.ty == 7 && m.seq == k.tx && m.tag == tag && m.op == .ofNat 8 status && m.payload == payload
      | none => false)
  | _, _ => false

/-! ## Translations (R284 to R299) -/

/-- Warp 0 waits for page 0x200. -/
def wanting : State := { tabled (withWarp ready (fun w => { w with holds := [.xlate [0x200, 0x300]] })) with tlb := [] }
def cached : State := { wanting with tcache := [⟨sliceDie 0x200000, 0, 0, 30, bootLeaf⟩] }
def walking (n : Nat) : State := { wanting with walks := [⟨0, 0x200, (List.range n).map (fun k => k + 1)⟩] }
def refusedOnce (s : State) : State := { s with refused := [⟨0, 0, 0x200, 3⟩] }
def answered (t : State) : Bool := tlbFind t.tlb 0 0 0x200000 == some bootLeaf && (w0 t).holds.isEmpty
def heldUp1 : HeldFault := ⟨sliceDie 0x200000, 0, 1, 0x200000, kLoad, .warp 0 0⟩

/-- R289, R290, R299. -/
theorem witness_ContextsAndTranslations_pages : every [
    wantsPage wanting 0 0 0x200, !(asked wanting 0 0 0x200), !(asked (walking 64) 0 0 0x200),
    next (.tlbMissRequest 0 0 0x200) wanting (fun t => t.walks == [⟨0, 0x200, [0]⟩]),
    next (.tlbMissRequest 0 0 0x200) cached answered,
    next (.tlbMissRequest 0 0 0x200) (walking 63) (fun t => t.walks.any (fun k => k.waiters.contains 0)),
    next (.tlbMissRequest 0 0 0x200) (walking 64) (fun t => t.walks == (walking 64).walks && t.refused == [⟨0, 0, 0x200, 0⟩]),
    next (.translationRefusalRetry 0 0 0x200) (refusedOnce wanting) (fun t => t.walks == [⟨0, 0x200, [0]⟩] && t.refused.isEmpty),
    next (.translationRefusalRetry 0 0 0x200) (refusedOnce (walking 64)) (fun t => t.walks == (walking 64).walks && t.refused == [⟨0, 0, 0x200, 4⟩]),
    next (.pageWalkDone 0 0x200) { wanting with walks := [⟨0, 0x200, [0]⟩] } (fun t => t.walks.isEmpty && answered t),
    next (.faultBufferRetry (sliceDie 0x200000)) { wanting with heldFaults := [heldUp1, heldUp1], faults := [⟨sliceDie 0x200000, 0, 0, 2, 0, 1, []⟩] } (fun t =>
      t.heldFaults == [heldUp1] && match t.faults with
      | [_, y] => y.die == sliceDie 0x200000 && y.slot == 1 && y.ctx == 0 && y.level == 1 && y.kinds == kLoad && y.gran == 0x200000 && y.waiters == [.warp 0 0]
      | _ => false)] = true := by
  decide +kernel

/-! ## Multicasts (R293 to R296, R448, R483, R484) -/

def casting (k : Cast) : State := linked { tabled ready with casts := [k], tlb := [⟨130, 0, 0x200000, 12, bootLeaf⟩, ⟨130, 0, 0x300000, 12, bootLeaf⟩, ⟨0, 0, 0x200000, 12, bootLeaf⟩] }
def inval (reached done acked : List Nat) : Cast := ⟨9, .invalidate 0 0x200000 4096 false 0 5 77, [1, 2], reached, done, acked, false⟩
def tidCast (acked : List Nat) : Cast := ⟨9, .tid 0 0 7 96 (List.replicate 32 1), [1, 2], [0], [0, 3], acked, false⟩
def collapse (reached done acked : List Nat) (c : Bool) : Cast := ⟨9, .collapse 0 0x200000 12 (2 ^ 51 + 0x3000), [], reached, done, acked, c⟩
def seven : List Nat := [1, 2, 3, 4, 5, 6, 7]

/-- A collapse whose leaf is written. -/
def collapsed (pa : Nat) : State := { casting (collapse [] [] [] true) with pages := [⟨0, 0x200000, 12, .collapsing, pa⟩] }

theorem witness_ContextsAndTranslations_casts : every [
    next (.multicastResidualSend 9 [1]) (casting (inval [0] [0] [])) (fun t => t.casts == [{ inval [0, 1] [0] [] with residual := [2] }] &&
      t.tlb == [⟨130, 0, 0x300000, 12, bootLeaf⟩, ⟨0, 0, 0x200000, 12, bootLeaf⟩]),
    next (.multicastResidualSend 9 [2, 1]) (casting (tidCast [])) (fun t => t.casts == [{ tidCast [] with residual := [], reached := [0, 2, 1], done := [0, 3, 2, 1] }]),
    drains (casting (inval [0, 1] [0] [])) 1 0 0x200000 4096 false,
    next (.invalidateDieDone 9 1) (casting (inval [0, 1] [0] [])) (fun t => t.casts == [inval [0, 1] [0, 1] []]),
    next (.multicastAck 9 0) (casting (inval [0] [0] [1, 2, 3, 4, 5, 6])) (fun t => t.casts == [inval [0] [0] [1, 2, 3, 4, 5, 6, 0]]),
    next (.multicastAck 9 0) (casting (inval [0] [0] seven)) (fun t => t.casts.isEmpty && told (casting (inval [0] [0] seven)) t 77 0 []),
    next (.multicastAck 9 0) (withWarp (casting (tidCast seven)) (fun w => { w with holds := [.tid 9] })) (fun t => t.casts.isEmpty && (w0 t).holds.isEmpty),
    next (.collapseNotice 9 1) (casting (collapse [0, 1] [0] [] false)) (fun t => t.casts == [collapse [0, 1] [0, 1] [] false] &&
      t.tlb == [⟨130, 0, 0x300000, 12, bootLeaf⟩, ⟨0, 0, 0x200000, 12, bootLeaf⟩]),
    next (.collapseAck 9 0) (casting (collapse [0] [0] [1] false)) (fun t => t.casts == [collapse [0] [0] [1, 0] false] && memAs (casting (collapse [0] [0] [1] false)) t),
    next (.collapseAck 9 0) { casting (collapse [0] [0] seven false) with mem := memWrite (casting (collapse [0] [0] [] false)).mem (2 ^ 51 + 0x3000) (natLe 8 (bootLeaf ||| 0x2000000000000000#64).toNat) } (fun t =>
      t.casts == [collapse [0] [0] (seven ++ [0]) true] && entryAt t (2 ^ 51 + 0x3000) == bootLeaf && cohBytes t (2 ^ 51 + 0x2FF8) 8 == List.replicate 8 0),
    next (.collapseComplete 9) (collapsed (2 ^ 51 + 0x200000)) (fun t => t.casts.isEmpty && t.pages.isEmpty &&
      memAs (collapsed (2 ^ 51 + 0x200000)) t && t.warps == (collapsed 0).warps && t.tlb == [⟨130, 0, 0x300000, 12, bootLeaf⟩])] = true := by
  decide +kernel

/-! ## Pre-emption, deferred causes, teardown (R306 to R309, R316, R324 to R329) -/

/-- Two contexts: 0 runs with a slice, 1 has a queued task. -/
def sliced : State :=
  { setCtx (withCtx (tasked [] strand0 id) (fun c => { c with ctxcfg := 0x100000000 })) 1 { bootCtx with st := .runnable } with
    tasks := [bootTask, { kid 7 .queued 1 with ctx := 1 }], deques := [(0, [7])] }
def preempting (st : CtxSt) (p : Preempt) : State :=
  linked (withWarp (withBlock (withCtx (tasked [] strand0 id) (fun c => { c with st := st, preempt := some p })) (fun b => { b with saved := true })) (fun w => { w with place := .saved }))
def forcing (f : Warp → Warp) : State := withWarp (withCtx (tasked [] strand0 id) (fun c => { c with preempt := some ⟨false, []⟩ })) f
def deferredOne : State := withWarp (tasked [] strand0 id) (fun w => { w with deferred := [(.ownerLost, 0x1234), (.race, 0)], exited := 1, pc := [8, 4] ++ List.replicate 30 0 })
def tearing : State :=
  { linked (withCtx (tasked [] strand0 id) (fun c => { c with st := .teardown, teardown := [⟨0, 5, 66⟩] })) with
    queues := [{ num := 3, base := 0x4000, cq := 9, st := 1, kind := 1, wr := 2, recs := [⟨55, 1, 66, 88, 1, false⟩] }, { num := 4, st := 1, ctx := 1 }] }

theorem witness_ContextsAndTranslations_ends : every [
    waitsForCores sliced 1,
    next (.slicePreemption 0) sliced (fun t => ctxOf t 0 == { ctxOf sliced 0 with preempt := some ⟨true, []⟩ } && t.warps == sliced.warps),
    next (.preemptForce 0 0) (forcing id) (fun t => w0 t == { w0 (forcing id) with forced := true } && t.ctxs == (forcing id).ctxs),
    allSaved (preempting .running ⟨false, [⟨0, 5, 66⟩]⟩) 0,
    next (.preemptComplete 0) (preempting .running ⟨false, [⟨0, 5, 66⟩]⟩) (fun t => (ctxOf t 0).preempt.isNone && (ctxOf t 0).st == .preempted && t.blocks.all (fun b => b.saved) &&
      told (preempting .running ⟨false, [⟨0, 5, 66⟩]⟩) t 66 0 []),
    next (.preemptComplete 0) (preempting .running ⟨true, []⟩) (fun t => (ctxOf t 0).preempt.isNone && (ctxOf t 0).st == .runnable),
    next (.preemptComplete 0) (preempting .faulted ⟨true, [⟨0, 5, 66⟩]⟩) (fun t => (ctxOf t 0).preempt.isNone && (ctxOf t 0).st == .faulted &&
      told (preempting .running ⟨false, [⟨0, 5, 66⟩]⟩) t 66 19 []),
    mayDeliver deferredOne (w0 deferredOne),
    next (.deferredCauseDelivery 0 0) deferredOne (fun t => let v := { w0 deferredOne with deferred := [(.race, 0)], chain := none }
      t == raiseAt (setWarp deferredOne v) v { cause := .ownerLost, deferred := true, faddr := 0x1234 } 4),
    !(Sys2Proof.Machine.registering tearing 0),
    next (.teardownDone 0) tearing (fun t => ctxOf t 0 == {} && t.warps.isEmpty && t.blocks.isEmpty && t.tasks.isEmpty && t.launches.isEmpty && told tearing t 66 0 [] &&
      t.queues == [{ num := 3, base := 0x4000, cq := 9, st := 0, kind := 1, wr := 2 }, { num := 4, st := 1, ctx := 1 }])] = true := by
  decide +kernel

/-- R318, R325: a warp that may stop, and whose frame can be written. -/
def stopping : State := forcing (fun w => { w with forced := true })
theorem witness_ContextsAndTranslations_stop : every [mustStop stopping (w0 stopping), settled stopping (w0 stopping),
    saves stopping (w0 stopping), (w0 stopping).place == .resident,
    good (writeFrame (flushBbcs (noteHalt (endBbc stopping (w0 stopping)) (w0 stopping)) 0) { w0 stopping with chain := none } none) (fun _ => true)] = true := by
  decide +kernel

end Sys2Proof.Tests
end

