-- ==== Sys2Proof/Tests/WitnessHost.lean ====
section
/-! SUPPORT. For the statements about the messages of hosts: states and messages that meet their hypotheses, and there their
conclusions, by evaluation. -/

namespace Sys2Proof.Tests

open Sys2Proof.Machine Sys2Proof.Claim

set_option maxRecDepth 100000
set_option Elab.async false

/-! ## What the statements say of messages, computed -/

/-- The k of `Arrives`. -/
def arrival (s : State) (m : Msg) : Option Conn :=
  match connFind s m.port m.conn with
  | some k => if (s.dev == .unowned || s.dev == .owned || s.dev == .handover || s.dev == .failed) && (getAt {} s.ports m.port).st == .up &&
      k.peer == m.peer && k.rx == m.seq && k.queue.isEmpty
    then some { k with rx := m.seq + 1, unacked := k.unacked.filter (fun q => decide ((q.seq - m.ack).toNat < 2 ^ 31)) } else none
  | none => none
def arrives (s : State) (m : Msg) (f : Conn → Bool) : Bool := match arrival s m with | some k => f k | none => false

/-- `FromOwner`. -/
def fromOwner (s : State) (m : Msg) (n : Nat) : Bool :=
  arrives s m (fun k => k.owner && k.port == 0) && field m.addr 57 0 == 0 && m.payload.length == n && s.dev != .failed

/-- `Answers`. -/
def answers (s t : State) (m : Msg) (status : Nat) (payload : List Byte) : Bool :=
  arrives s m (fun k => match connFind t m.port m.conn with
    | none => false
    | some k' => k'.tx == k.tx + 1 && k'.rx == k.rx && (match k'.unacked.getLast? with
      | some q => k'.unacked == k.unacked ++ [q] && q.ty == 7 && q.seq == k.tx && q.tag == m.tag && q.op == .ofNat 8 status && q.payload == payload
      | none => false))

/-- `CoresAs`, `PackageAs`, `NothingDone`, `OneContext`. -/
def coresAs (s t : State) : Bool :=
  t.warps == s.warps && t.blocks == s.blocks && t.tasks == s.tasks && t.copies == s.copies && t.mem == s.mem && t.slices == s.slices &&
    t.l1 == s.l1 && t.net == s.net
def packageAs (s t : State) : Bool :=
  t.dev == s.dev && t.ownerKey == s.ownerKey && t.featAccept == s.featAccept && t.islands == s.islands && t.ports == s.ports &&
    t.errLog == s.errLog && t.queues == s.queues && t.graphs == s.graphs && t.insts == s.insts && t.launches == s.launches
def nothingDone (s t : State) : Bool := coresAs s t && packageAs s t && t.ctxs == s.ctxs && t.casts == s.casts
def oneContext (s t : State) (c : Nat) : Bool :=
  coresAs s t && packageAs s t && t.casts == s.casts && (List.range 64).all (fun d => d == c || ctxOf t d == ctxOf s d)

/-- `Refuses`, `SetsContext`. -/
def turnsAway (i : Instr) (s : State) (m : Msg) (status : Nat) : Bool := next i s (fun t => answers s t m status [] && nothingDone s t)
def setsContext (i : Instr) (s : State) (m : Msg) (y : Ctx) : Bool :=
  next i s (fun t => answers s t m 0 [] && oneContext s t (ctxField m) && ctxOf t (ctxField m) == y)

/-- The owner's next message, for a context. -/
def cmd (c : Nat) (payload : List Byte) : Msg :=
  { port := 0, peer := 3, conn := 5, seq := 10, ack := 0, addr := .ofNat 64 (c * 2 ^ 58), len := .ofNat 16 payload.length, op := 0, tag := 77, payload := payload }

/-- Context 0 runs on the package that the owner has connected; another context is EMPTY. -/
def hosted : State := linked { tabled ready with issue := none }
def inState (st : CtxSt) : State := withCtx hosted (fun c => { c with st := st })
def notOwner (s : State) : State := { s with conns := [{ ownerConn with owner := false }] }

/-! ## BUILD to SET_RING (R306 to R311, R449, R497, R508, R519, R522) -/

/-- A build block, and one that names no dies. -/
def buildBlock (lim : Nat) : List Byte :=
  [0x1000, 0x2000, 3, 0x4000, 0x500000, 2 ^ 51 + 0x1000, 0, lim, 0x6000, 2 ^ 48, 0].flatMap (natLe 8)
def goodBlock : List Byte := buildBlock (16 * 2 ^ 32 + 64)
def onPort1 (s : State) : State := { s with ports := s.ports.map (fun p => { p with st := .up }), conns := [{ ownerConn with port := 1, owner := false }] }

theorem witness_ContextCommands_owner : every [
    arrives (notOwner hosted) (cmd 1 goodBlock) (fun k => !k.owner), turnsAway (.build (cmd 1 goodBlock)) (notOwner hosted) (cmd 1 goodBlock) 1,
    turnsAway (.regwrite (cmd 0 [])) (notOwner hosted) (cmd 0 []) 1, turnsAway (.spare (cmd 0 [])) (notOwner hosted) (cmd 0 []) 1,
    arrives (onPort1 hosted) { cmd 0 [] with port := 1 } (fun k => k.port != 0),
    turnsAway (.trigger { cmd 0 [] with port := 1 }) (onPort1 hosted) { cmd 0 [] with port := 1 } 1] = true := by
  decide +kernel

theorem witness_ContextCommands_build : every [fromOwner hosted (cmd 1 goodBlock) 88,
    turnsAway (.build (cmd 1 goodBlock)) { hosted with featWritten := false } (cmd 1 goodBlock) 9,
    hosted.featWritten, buildBad (buildWords (cmd 1 (buildBlock 64))), turnsAway (.build (cmd 1 (buildBlock 64))) hosted (cmd 1 (buildBlock 64)) 16,
    !(buildBad (buildWords (cmd 1 goodBlock))), turnsAway (.build (cmd 0 goodBlock)) hosted (cmd 0 goodBlock) 17,
    next (.build (cmd 1 goodBlock)) hosted (fun t => answers hosted t (cmd 1 goodBlock) 0 [] && oneContext hosted t 1 &&
      (ctxOf t 1).st == .built && (ctxOf t 1).trapvec == 0x2000 && (ctxOf t 1).arena == 0x1000000000000 && (ctxOf t 1).raceEn)] = true := by
  decide +kernel

/-- A queue of the context, one of another. -/
def withQueues : State := { hosted with queues := [{ num := 2, base := 0x201000, st := 1, kind := 1, log2 := 5 }, { num := 3, st := 1, kind := 1, ctx := 1 }] }

theorem witness_ContextCommands_states : every [fromOwner hosted (cmd 0 []) 0,
    setsContext (.run (cmd 0 [])) (inState .built) (cmd 0 []) { ctxOf hosted 0 with st := .runnable },
    turnsAway (.run (cmd 0 [])) hosted (cmd 0 []) 8,
    next (.preempt (cmd 0 [])) hosted (fun t => oneContext hosted t 0 && ctxOf t 0 == { ctxOf hosted 0 with preempt := some ⟨false, [⟨0, 5, 77⟩]⟩ }),
    turnsAway (.preempt (cmd 0 [])) (withCtx hosted (fun c => { c with preempt := some ⟨false, [⟨0, 5, 66⟩]⟩ })) (cmd 0 []) 7,
    turnsAway (.preempt (cmd 0 [])) (inState .halted) (cmd 0 []) 18, turnsAway (.preempt (cmd 0 [])) (inState .built) (cmd 0 []) 8,
    setsContext (.resume (cmd 0 [])) (inState .preempted) (cmd 0 []) { ctxOf hosted 0 with st := .runnable },
    turnsAway (.resume (cmd 0 [])) (inState .faulted) (cmd 0 []) 19, turnsAway (.resume (cmd 0 [])) hosted (cmd 0 []) 8,
    turnsAway (.teardown (cmd 1 [])) hosted (cmd 1 []) 8,
    next (.teardown (cmd 0 [])) hosted (fun t => oneContext hosted t 0 && ctxOf t 0 == { ctxOf hosted 0 with st := .teardown, teardown := [⟨0, 5, 77⟩] } &&
      t.conns == [{ ownerConn with rx := 11 }]),
    next (.teardown (cmd 0 [])) withQueues (fun t => oneContext withQueues { t with queues := withQueues.queues } 0 && t.conns == [{ ownerConn with rx := 11 }] &&
      t.queues.all (fun q => q.ctx != 0 || q.st == 0) && queueFind t 3 == queueFind withQueues 3 && (queueFind t 3).isSome)] = true := by
  decide +kernel

def wide (im : List Byte) : List Byte := im ++ List.replicate 32 0
def tidMsg (c : Nat) (im : List Byte) : Msg := cmd c (natLe 8 7 ++ wide im)
def windowImage (bits : Nat) : List Byte := natLe 8 3 ++ [1, .ofNat 8 bits, 0, 0, 0, 0, 0, 0] ++ natLe 8 0
def listAt (ws : List Nat) : State := { hosted with mem := memWrite hosted.mem (2 ^ 51 + 0x3000000) (ws.flatMap (natLe 4)) }
def listMsg (n : Nat) : Msg := cmd 0 (natLe 8 0x3000000 ++ natLe 8 n)
def broken (n : Nat) (s : State) : State := withCtx s (fun c => { c with bp := setAt 0 c.bp 7 (.ofNat 32 (2 ^ 31 + n)) })
def bbc (v : Nat) : Msg := cmd 0 (natLe 8 v)
def ringMsg (c which period : Nat) : Msg := cmd c ([.ofNat 8 which, 4] ++ natLe 6 0 ++ natLe 8 0x40000 ++ natLe 8 period)

theorem witness_ContextCommands_settings : every [
    fromOwner hosted (tidMsg 0 image) 136, turnsAway (.setTid (tidMsg 1 image)) hosted (tidMsg 1 image) 8,
    turnsAway (.setTid (tidMsg 0 image)) (inState .teardown) (tidMsg 0 image) 8,
    imageBad hosted (wide (layBytes image 80 [1])), turnsAway (.setTid (tidMsg 0 (layBytes image 80 [1]))) hosted (tidMsg 0 (layBytes image 80 [1])) 25,
    !(imageBad hosted (wide image)), next (.setTid (tidMsg 0 (layBytes image 11 [0]))) hosted (fun t =>
      answers hosted t (tidMsg 0 image) 0 [] && oneContext hosted t 0 && getKey 7 (ctxOf t 0).tids == some (wide (layBytes image 11 [0x80]))),
    fromOwner hosted (cmd 1 (windowImage 1)) 24, !(fabwinBad ((windowImage 1).drop 8)), !(fabwinBad ((windowImage 8).drop 8)),
    turnsAway (.setFabwin (cmd 1 (windowImage 1))) hosted (cmd 1 (windowImage 1)) 8,
    setsContext (.setFabwin (cmd 0 (windowImage 8))) hosted (cmd 0 (windowImage 8)) { ctxOf hosted 0 with fabwin := [(3, (windowImage 8).drop 8)] },
    fromOwner hosted (listMsg 2) 16, turnsAway (.setSafept (listMsg 0)) hosted (listMsg 0) 4, turnsAway (.setSafept (listMsg 65537)) hosted (listMsg 65537) 4,
    turnsAway (.setSafept { listMsg 2 with addr := 2 ^ 58 }) hosted { listMsg 2 with addr := 2 ^ 58 } 8,
    !(listOk (listAt [8, 4]) 0 0x3000000 2), turnsAway (.setSafept (listMsg 2)) (listAt [8, 4]) (listMsg 2) 26,
    listOk (listAt [4, 8]) 0 0x3000000 2, turnsAway (.setSafept (listMsg 2)) (broken 2 (listAt [4, 8])) (listMsg 2) 27,
    setsContext (.setSafept (listMsg 2)) (broken 1 (listAt [4, 8])) (listMsg 2) { ctxOf (broken 1 hosted) 0 with safept := some (0x3000000, 2) },
    fromOwner (inState .built) (bbc 0x40) 8, turnsAway (.setBbc (bbc 4)) (inState .built) (bbc 4) 4,
    setsContext (.setBbc (bbc (2 ^ 63 + 8))) (inState .built) (bbc (2 ^ 63 + 8)) { ctxOf (inState .built) 0 with bbcctl := .ofNat 64 (2 ^ 63 + 8) },
    setsContext (.setBbc (bbc 8)) (inState .preempted) (bbc 8) { ctxOf (inState .preempted) 0 with bbcctl := 8 }, turnsAway (.setBbc (bbc 8)) hosted (bbc 8) 8,
    fromOwner hosted (ringMsg 0 0 32) 24,
    setsContext (.setRing (ringMsg 0 0 32)) hosted (ringMsg 0 0 32) { ctxOf hosted 0 with sampleRing := some { base := 0x40000, k := 4, period := 32 } },
    setsContext (.setRing (ringMsg 0 0 0)) hosted (ringMsg 0 0 0) { ctxOf hosted 0 with sampleRing := some { base := 0x40000, k := 4, period := 0 } },
    setsContext (.setRing (ringMsg 0 1 0)) hosted (ringMsg 0 1 0) { ctxOf hosted 0 with stampRing := some { base := 0x40000, k := 4, period := 0 } },
    turnsAway (.setRing (ringMsg 0 0 31)) hosted (ringMsg 0 0 31) 4, turnsAway (.setRing (ringMsg 0 0 16777217)) hosted (ringMsg 0 0 16777217) 4,
    turnsAway (.setRing (ringMsg 1 1 0)) hosted (ringMsg 1 1 0) 8] = true := by
  decide +kernel

end Sys2Proof.Tests
end

