-- ==== Sys2Proof/Tests/WitnessCommands.lean ====
section
/-! SUPPORT. For the statements about the queue, graph and debugger commands: states and messages that meet their hypotheses, and
there their conclusions, by evaluation. -/

namespace Sys2Proof.Tests

open Sys2Proof.Machine Sys2Proof.Claim

set_option maxRecDepth 100000
set_option Elab.async false

/-- The command is answered DONE, and no core, engine or context is touched. -/
def served (i : Instr) (s : State) (m : Msg) (f : State → Bool) : Bool :=
  next i s (fun t => answers s t m 0 [] && coresAs s t && t.ctxs == s.ctxs && f t)

/-! ## Faults and invalidations (R295, R298, R507) -/

def faulted1 : State := { withWarp hosted (fun w => { w with holds := [.fault [(1, 1, 0x200000), (2, 0, 0x400000)]] }) with
  faults := [⟨1, 9, 0, 1, 0x200000, 3, [.warp 0 0]⟩, ⟨1, 8, 0, 1, 0x600000, 3, []⟩] }
def faultMsg (c die slot : Nat) : Msg := cmd c (natLe 2 (die * 4096 + slot) ++ natLe 6 0)
def freedEntry (t : State) : Bool := t.faults == [⟨1, 8, 0, 1, 0x600000, 3, []⟩] &&
  (w0 t).regs == (w0 faulted1).regs && (w0 t).pc == (w0 faulted1).pc && t.mem == faulted1.mem && t.ctxs == faulted1.ctxs
def invalMsg (base len : Nat) : Msg := cmd 0 (natLe 8 base ++ natLe 8 len)

theorem witness_QueueAndGraphCommands_faults : every [fromOwner hosted (invalMsg 0x200000 0) 16,
    next (.invalidate (invalMsg 0x200000 0)) hosted (fun t => coresAs hosted t && packageAs hosted t &&
      t.casts == [⟨hosted.fresh, .invalidate 0 0x200000 0 true 0 5 77, [0, 1, 2, 3, 4, 5, 6, 7], [], [], [], false⟩] &&
      t.conns == [{ ownerConn with rx := 11 }]),
    fromOwner faulted1 (faultMsg 0 1 9) 8, turnsAway (.resolve (faultMsg 0 1 7)) faulted1 (faultMsg 0 1 7) 4,
    turnsAway (.unresolvable (faultMsg 1 1 9)) faulted1 (faultMsg 1 1 9) 4,
    next (.resolve (faultMsg 0 1 9)) faulted1 (fun t => answers faulted1 t (faultMsg 0 1 9) 0 [] && freedEntry t && (w0 t).holds == [.fault [(2, 0, 0x400000)]] && (w0 t).attempt.bad.isEmpty),
    next (.unresolvable (faultMsg 0 1 9)) faulted1 (fun t => answers faulted1 t (faultMsg 0 1 9) 0 [] && freedEntry t && (w0 t).holds.isEmpty && (w0 t).attempt.bad == [(0x200000, granLog 1)])] = true := by
  decide +kernel

/-! ## Queues (R330 to R332, R336) -/

/-- Completion queue 2, trigger queues 1 (with a run) and 3 (stopped), 4 stopping. -/
def queued : State := { hosted with
  queues := [{ num := 2, base := 0x201000, st := 1, kind := 1, log2 := 5 }, { num := 1, base := 0x200000, cq := 2, st := 1, log2 := 4, rd := 0xFFFFFFFC, wr := 3 },
    { num := 3, base := 0x202000, cq := 9, st := 2, log2 := 4, rd := 1, wr := 5 }, { num := 4, base := 0x203000, cq := 9, st := 3, log2 := 4, answer := some (0, 5, 66) }]
  insts := [{ id := 20, ctx := 0, graph := 5, queue := 1, tag := 99, seed := 0, acc := 2, params := [], nodes := [] }] }
def createMsg (c num kind lg cq base : Nat) : Msg := cmd c ([.ofNat 8 num, .ofNat 8 kind, .ofNat 8 lg, .ofNat 8 cq, 0, 0, 0, 0] ++ natLe 8 base)
def resetMsg (num rd : Nat) : Msg := cmd 0 (natLe 4 num ++ natLe 4 rd)
def destroyMsg (num force : Nat) : Msg := cmd 0 (natLe 1 num ++ natLe 1 force ++ natLe 6 0)
def triggerMsg (num wr : Nat) : Msg := { cmd 0 (natLe 4 wr) with addr := .ofNat 64 num }
def others (s t : State) (n : Nat) : Bool := [1, 2, 3, 4, 7].all (fun j => j == n || queueFind t j == queueFind s j)

theorem witness_QueueAndGraphCommands_create : every [fromOwner queued (createMsg 0 7 0 4 2 0x200400) 16,
    turnsAway (.qCreate (createMsg 0 1 0 4 2 0x200400)) queued (createMsg 0 1 0 4 2 0x200400) 21,
    (queueFind queued 7).isNone, (queueFind queued 2).isSome,
    served (.qCreate (createMsg 0 7 0 4 2 0x200400)) queued (createMsg 0 7 0 4 2 0x200400) (fun t =>
      others queued t 7 && queueFind t 7 == some { num := 7, base := 0x200400, cq := 2, st := 1, log2 := 4 }),
    served (.qCreate (createMsg 0 7 1 16 0 0x200000)) queued (createMsg 0 7 1 16 0 0x200000) (fun t =>
      others queued t 7 && queueFind t 7 == some { num := 7, base := 0x200000, st := 1, kind := 1, log2 := 16 })] = true := by
  decide +kernel

theorem witness_QueueAndGraphCommands_queues : every [fromOwner queued (resetMsg 3 0) 8,
    turnsAway (.qReset (resetMsg 7 0)) queued (resetMsg 7 0) 21, turnsAway (.qReset (resetMsg 1 0)) queued (resetMsg 1 0) 8,
    turnsAway (.qReset (resetMsg 3 6)) queued (resetMsg 3 6) 22, turnsAway (.qReset (resetMsg 3 0xFFFFFFF4)) queued (resetMsg 3 0xFFFFFFF4) 22,
    served (.qReset (resetMsg 3 0xFFFFFFF5)) queued (resetMsg 3 0xFFFFFFF5) (fun t => others queued t 3 &&
      queueFind t 3 == some { num := 3, base := 0x202000, cq := 9, st := 1, log2 := 4, rd := 0xFFFFFFF5, wr := 5 }),
    turnsAway (.qDestroy (destroyMsg 4 0)) queued (destroyMsg 4 0) 8,
    queueBusy queued { num := 1, cq := 2, st := 1 }, turnsAway (.qDestroy (destroyMsg 1 0)) queued (destroyMsg 1 0) 7,
    served (.qDestroy (destroyMsg 3 1)) queued (destroyMsg 3 1) (fun t => others queued t 3 && (queueFind t 3).isNone),
    next (.qDestroy (destroyMsg 1 1)) queued (fun t => coresAs queued t && t.ctxs == queued.ctxs && others queued t 1 &&
      t.conns == [{ ownerConn with rx := 11 }] && (queueFind t 1).map (fun q => (q.st, q.answer)) == some (3, some (0, 5, 77))),
    next (.qDestroy (destroyMsg 2 1)) queued (fun t => (queueFind t 2).map (fun q => (q.st, q.answer)) == some (3, some (0, 5, 77)) &&
      (queueFind t 1).map (fun q => q.st) == some 2)] = true := by
  decide +kernel

/-- The host's agent holds a word. -/
def agentOf (st : L1St) : State := { queued with
  l1 := [{ owner := hostOwner, wa := 2 ^ 49 + 0x84000, st := st, val := 0x0A0B0C0D, mask := 15, conn := 5 }]
  slices := [{ wa := 2 ^ 49 + 0x84000, st := .registered, owner := hostOwner }] }

theorem witness_QueueAndGraphCommands_ends : every [queued.warps.all (fun w => (chainNext queued w).isNone),
    next (.queueDestroyDone 4) queued (fun t => (queueFind t 4).isNone && told queued t 66 0 []),
    arrives queued (triggerMsg 1 5) (fun k => k.owner), turnsAway (.trigger (triggerMsg 7 5)) queued (triggerMsg 7 5) 21,
    turnsAway (.trigger (triggerMsg 2 5)) queued (triggerMsg 2 5) 21, turnsAway (.trigger (triggerMsg 4 5)) queued (triggerMsg 4 5) 21,
    turnsAway (.trigger (triggerMsg 1 13)) queued (triggerMsg 1 13) 22, turnsAway (.trigger (triggerMsg 1 2)) queued (triggerMsg 1 2) 22,
    served (.trigger (triggerMsg 1 12)) queued (triggerMsg 1 12) (fun t => others queued t 1 && (queueFind t 1).map (fun q => (q.rd, q.wr)) == some (0xFFFFFFFC, 12)),
    hostPending (agentOf .pending) ownerConn,
    next (.trigger (triggerMsg 1 12)) (agentOf .pending) (fun t => nothingDone (agentOf .pending) t && (connFind t 0 5).map (fun k => k.queue) == some [(5, triggerMsg 1 12)]),
    !(hostPending (agentOf .registered) ownerConn), !((hostWords (agentOf .registered) ownerConn).isEmpty),
    next (.trigger (triggerMsg 1 12)) (agentOf .registered) (fun t => answers queued t (triggerMsg 1 12) 0 [] && (queueFind t 1).map (fun q => q.wr) == some 12 &&
      cohBytes t (2 ^ 51 + 0x210000) 8 == cohBytes (agentOf .registered) (2 ^ 51 + 0x210000) 8 && (sliceGet t (2 ^ 49 + 0x84000)).st == .home)] = true := by
  decide +kernel

/-! ## Graphs (R343, R344) -/

def loadMsg (num n : Nat) : Msg := cmd 0 (natLe 2 num ++ natLe 6 0 ++ natLe 8 0x123456789 ++ natLe 8 n)
def unloadMsg (num : Nat) : Msg := cmd 0 (natLe 2 num ++ natLe 6 0)
def graphed (run : Nat) : State := { hosted with graphs := [⟨5, 0, 64, [nodeA], []⟩], insts := [{ id := 20, ctx := 0, graph := run, queue := 1, tag := 9, seed := 0, acc := 2, params := [], nodes := [] }] }
def asks (i : Instr) (num n : Nat) : Bool :=
  next i (graphed 5) (fun t => nothingDone (graphed 5) t && match connFind t 0 5 with
    | some k => k.tx == 21 && k.reqs == [(20, .graph num 0)] && match k.unacked with
      | [q] => q.ty == 1 && q.seq == 20 && q.tag == 20 && q.addr == 0x123456789 && q.len == min 4096 n
      | _ => false
    | none => false)

theorem witness_QueueAndGraphCommands_graphs : every [fromOwner (graphed 5) (loadMsg 6 5000) 24, graphFits (graphed 5) 6 5000, !(graphBusy (graphed 5) 6),
    asks (.loadGraph (loadMsg 6 5000)) 6 5000, asks (.loadGraph (loadMsg 1023 16)) 1023 16, fromOwner (graphed 5) (unloadMsg 5) 8, turnsAway (.unloadGraph (unloadMsg 6)) (graphed 5) (unloadMsg 6) 24,
    turnsAway (.unloadGraph (unloadMsg 5)) (graphed 5) (unloadMsg 5) 7,
    served (.unloadGraph (unloadMsg 5)) (graphed 4) (unloadMsg 5) (fun t => t.graphs.isEmpty)] = true := by
  decide +kernel

/-! ## The debugger (R513 to R519) -/

def debugged (f : Warp → Warp) : State := withWarp (withCtx hosted (fun c => { c with dbgctl := 1 })) f
def halted1 (w : Warp) : Warp := { w with halted := some 0, exited := 1, pc := List.replicate 31 4 ++ [8] }
def haltMsg (g n : Nat) : Msg := cmd 0 (natLe 4 g ++ natLe 4 n)
def stepMsg (n l mode : Nat) : Msg := cmd 0 (natLe 4 n ++ [.ofNat 8 l, .ofNat 8 mode, 0, 0])
def stopped (f : Warp → Warp) : State := debugged (fun w => f (halted1 w))
def codeAt (w : Nat) (s : State) : State := { s with mem := memWrite s.mem (bootPa + 4) (natLe 4 w) }

theorem witness_DebuggerCommands_halts : every [fromOwner hosted (haltMsg 3 0) 8, turnsAway (.halt (haltMsg 3 0)) hosted (haltMsg 3 0) 28,
    turnsAway (.halt (haltMsg 3 0)) (withCtx (inState .preempted) (fun c => { c with dbgctl := 1 })) (haltMsg 3 0) 8,
    turnsAway (.halt (haltMsg 0 0)) (withCtx (inState .teardown) (fun c => { c with dbgctl := 1 })) (haltMsg 0 0) 8,
    next (.halt (haltMsg 3 0)) (debugged id) (fun t => answers (debugged id) t (haltMsg 3 0) 0 [] && (ctxOf t 0).st == .halted &&
      t.warps == (withWarp (debugged id) (fun w => { w with halted := some 0 })).warps),
    next (.halt (haltMsg 2 0)) (debugged (fun w => { w with place := .saved })) (fun t => answers (debugged id) t (haltMsg 2 0) 0 [] && t.warps == (debugged (fun w => { w with place := .saved })).warps),
    next (.halt (haltMsg 0 0)) (debugged (fun w => { w with place := .saved })) (fun t => (w0 t).halted.isSome && (ctxOf t 0).haltSet == [0] && (ctxOf t 0).st == .running),
    turnsAway (.dresume (haltMsg 3 0)) (inState .teardown) (haltMsg 3 0) 8,
    next (.dresume (haltMsg 3 0)) (withCtx (stopped id) (fun c => { c with st := .halted, haltSet := [0], haltDies := [0] })) (fun t =>
      answers hosted t (haltMsg 3 0) 0 [] && (ctxOf t 0).st != .halted && (ctxOf t 0).haltSet.isEmpty && (ctxOf t 0).haltDies.isEmpty &&
        t.warps == (stopped (fun w => { w with halted := none, bpSkip := true, noPrev := true })).warps),
    next (.dresume (haltMsg 0 1)) (withCtx (stopped id) (fun c => { c with st := .halted })) (fun t => (ctxOf t 0).st == .halted && t.warps == (stopped id).warps)] = true := by
  decide +kernel

theorem witness_DebuggerCommands_steps : every [fromOwner (stopped id) (stepMsg 0 31 0) 8,
    turnsAway (.step (stepMsg 0 31 0)) hosted (stepMsg 0 31 0) 28, turnsAway (.step (stepMsg 1 31 0)) (stopped id) (stepMsg 1 31 0) 29,
    turnsAway (.step (stepMsg 0 31 0)) (debugged id) (stepMsg 0 31 0) 29, turnsAway (.step (stepMsg 0 0 0)) (stopped id) (stepMsg 0 0 0) 30,
    turnsAway (.step (stepMsg 0 1 0)) (codeAt (leNat (encode (.syncw g0 (o26 0)))) (stopped id)) (stepMsg 0 1 0) 31,
    next (.step (stepMsg 0 31 0)) (codeAt 0x20184083 (stopped id)) (fun t => answers (stopped id) t (stepMsg 0 31 0) 0 [] &&
      w0 t == { w0 (stopped id) with halted := none, stepSet := some 0x80000000 }),
    next (.step (stepMsg 0 1 1)) (codeAt 0x20184083 (stopped id)) (fun t => answers (stopped id) t (stepMsg 0 31 0) 0 [] &&
      w0 t == { w0 (stopped id) with halted := none, stepSet := some 0x7FFFFFFE })] = true := by
  decide +kernel

/-- Reads and writes of the warp's image: v4 in lanes, s4. -/
def imaged : State := stopped (fun w => putV 4 (fun l => .ofNat 32 (100 + l)) (putS 4 0x1234567 w))
def lookMsg (off n : Nat) : Msg := cmd 0 (natLe 4 0 ++ natLe 2 off ++ natLe 2 n)
def wimage : List Byte := layBytes (frameHeader (w0 imaged) none true) 200 (natLe 8 0) ++ natLe 8 0 ++ natLe 8 7 ++ List.replicate (8704 - 528) 0
def writeMsg (off last : Nat) (bs : List Byte) : Msg := cmd 0 (natLe 4 0 ++ natLe 2 off ++ natLe 1 last ++ natLe 1 0 ++ bs)
def gathering (im : List Byte) : State := { imaged with conns := [{ ownerConn with ww := some (0, 0, im.take 8000) }] }

theorem witness_DebuggerCommands_reads : every [fromOwner imaged (lookMsg 0 512) 8, turnsAway (.readWarp (lookMsg 0 512)) (debugged id) (lookMsg 0 512) 29,
    next (.readWarp (lookMsg 0 512)) imaged (fun t => answers imaged t (lookMsg 0 512) 0 (frameHeader (w0 imaged) none true) && nothingDone imaged t),
    next (.readWarp (lookMsg 544 8)) imaged (fun t => answers imaged t (lookMsg 544 8) 0 (natLe 8 0x1234567)),
    next (.readWarp (lookMsg 1532 12)) imaged (fun t => answers imaged t (lookMsg 1532 12) 0 (natLe 4 0 ++ natLe 4 100 ++ natLe 4 101)),
    next (.readWarp (lookMsg 8192 0)) imaged (fun t => answers imaged t (lookMsg 8192 0) 0 [])] = true := by
  decide +kernel

theorem witness_DebuggerCommands_writes : every [fromOwner imaged (writeMsg 0 0 (wimage.take 64)) 72,
    turnsAway (.writeWarp (writeMsg 8 0 (wimage.take 64))) imaged (writeMsg 8 0 (wimage.take 64)) 4,
    turnsAway (.writeWarp (writeMsg 0 0 (wimage.take 64))) (debugged id) (writeMsg 0 0 (wimage.take 64)) 29,
    next (.writeWarp (writeMsg 0 0 (wimage.take 64))) imaged (fun t => nothingDone imaged t && answers imaged t (writeMsg 0 0 []) 0 [] &&
      (connFind t 0 5).map (fun k => k.ww) == some (some (0, 0, wimage.take 64))),
    turnsAway (.writeWarp (writeMsg 0 1 (wimage.take 64))) imaged (writeMsg 0 1 (wimage.take 64)) 4,
    frameBad (w0 imaged) (layBytes wimage 8 [3]), turnsAway (.writeWarp (writeMsg 8000 1 (List.replicate 704 0))) (gathering (layBytes wimage 8 [3])) (writeMsg 8000 1 (List.replicate 704 0)) 14,
    !(frameBad (w0 imaged) wimage), fr wimage 200 8 == 0,
    next (.writeWarp (writeMsg 8000 1 (List.replicate 704 0))) (gathering wimage) (fun t => answers (gathering wimage) t (writeMsg 0 0 []) 0 [] && t.mem == imaged.mem && t.ctxs == imaged.ctxs &&
      (w0 t).halted == some 0 && (List.range 56).all (fun r => vEntry (w0 t).regs r == {}) && sAt t 1 == 7 && sAt t 4 == 0 && (w0 t).pc == (w0 imaged).pc)] = true := by
  decide +kernel

def sampled (f : Warp → Warp) : State := withCtx (withWarp hosted f) (fun c => { c with sampleRing := some { base := 0x210000, k := 4, period := 32 } })
def unsampled (f : Warp → Warp) : State := withWarp hosted f
def marked1 (w : Warp) : Warp := { w with marked := true }
def stopSite : State := { sampled marked1 with mem := memWrite (sampled id).mem bootPa (encode (.iadd { g0 with stop := true } ⟨1, 2, 3, false, false⟩)) }

theorem witness_DebuggerCommands_samples : every [
    next (.sampleMark 0 0) (sampled id) (fun t => (w0 t).marked && getKey 0 (ctxOf t 0).marks == some 0 && t.mem == (sampled id).mem),
    (w0 stopSite).marked, running (w0 stopSite), atStopSite stopSite (w0 stopSite),
    next (.sampleRecord 0 0) stopSite (fun t => !(w0 t).marked && cohBytes t (2 ^ 51 + 0x210000) 32 == sampleBytes stopSite (w0 stopSite) &&
      (ctxOf t 0).sampleRing == (ringRecord stopSite 0 (ctxOf stopSite 0).sampleRing (sampleBytes stopSite (w0 stopSite))).2),
    next (.sampleMarkDrop 0 0) (unsampled marked1) (fun t => !(w0 t).marked && t.mem == (unsampled id).mem && t.slices == (unsampled id).slices),
    next (.sampleMarkDrop 0 0) (sampled marked1) (fun t => !(w0 t).marked)] = true := by
  decide +kernel

end Sys2Proof.Tests
end

