-- ==== Sys2Proof/Tests/WitnessAccesses.lean ====
section
/-! SUPPORT. For the statements about a host's accesses to memory: states and messages that meet their hypotheses, and there their
conclusions, by evaluation. -/

namespace Sys2Proof.Tests

open Sys2Proof.Machine Sys2Proof.Claim

set_option maxRecDepth 100000
set_option Elab.async false

/-- `Reaches`, from the host, with a leaf; and from a peer. -/
def reachesHost (s : State) (m : Msg) (n : Nat) (rd wr : Bool) (pa : Nat) (l : BitVec 64) : Bool :=
  arrives s m (fun k => k.port == 0 && k.owner && k.bad.isEmpty) && field m.addr 57 57 == 0 && (ctxOf s (ctxField m)).st != .empty &&
    (walk s (ctxField m) (field m.addr 56 0)).1 == .leaf l && leafKind l == 0 && (!rd || leafR l) && (!wr || leafW l) &&
    decide (field m.addr 56 0 + n ≤ leafBase l (field m.addr 56 0) + 2 ^ leafLog l) && pa == leafPa l (field m.addr 56 0) && isMemory pa
def reachesPeer (s : State) (m : Msg) (n : Nat) (rd wr : Bool) (pa : Nat) : Bool :=
  arrives s m (fun k => k.port != 0) && field m.addr 63 52 == 0 && pa == m.addr.toNat && isMemory pa && isMemory (pa + n - 1) &&
    s.imports.any (fun r => decide (r.base.toNat ≤ pa) && decide (pa + n ≤ r.base.toNat + r.len.toNat) && (!rd || r.r) && (!wr || r.w))

/-- `NoneOut`. -/
def noneOut (s : State) (pa n : Nat) : Bool := s.l1.all (fun x => x.owner != hostOwner || x.st != .pending || (List.range n).all (fun j => x.wa != (pa + j) / 4))

/-- An access at a virtual address of context 0, and one of a peer on port 1, at a physical address. -/
def acc (va : Nat) (bs : List Byte) : Msg := { cmd 0 bs with addr := .ofNat 64 va }
def lookAt (va n : Nat) : Msg := { acc va [] with len := .ofNat 16 n }
def ofPeer (m : Msg) : Msg := { m with port := 1, addr := m.addr + 0x8000000000000 }
def peered : State := { onPort1 hosted with imports := [{ base := 0x8000000200000, len := 0x20000, r := true, w := true }] }
def hdata : State := poke 0x210000 [1, 2, 3, 4, 5, 6, 7, 8] hosted
def dataP : State := { poke 0x210000 [1, 2, 3, 4, 5, 6, 7, 8] peered with tlb := [] }
def pa0 : Nat := 2 ^ 51 + 0x210000

/-! ## READ, and what no access gets past (R21, R493) -/

theorem witness_HostAccesses_reads : every [
    turnsAway (.read (lookAt 0x210000 8)) (notOwner hdata) (lookAt 0x210000 8) 1, turnsAway (.write (acc 0x210000 [1])) (notOwner hdata) (acc 0x210000 [1]) 1,
    turnsAway (.writeRel (acc 0x210000 [1])) (notOwner hdata) (acc 0x210000 [1]) 1, turnsAway (.atomic (acc 0x210000 [1, 0, 0, 0])) (notOwner hdata) (acc 0x210000 [1, 0, 0, 0]) 1,
    turnsAway (.read { lookAt 0x210000 8 with addr := 2 ^ 58 }) hdata { lookAt 0x210000 8 with addr := 2 ^ 58 } 2,
    turnsAway (.atomic { acc 0 (natLe 8 1) with addr := 2 ^ 58, op := 9 }) hdata { acc 0 (natLe 8 1) with addr := 2 ^ 58, op := 9 } 2,
    reachesHost hdata (lookAt 0x210001 4096) 4096 true false (pa0 + 1) bootLeaf, noneOut hdata (pa0 + 1) 4096,
    next (.read (lookAt 0x210001 6)) hdata (fun t => answers hdata t (lookAt 0x210001 6) 0 [2, 3, 4, 5, 6, 7] && nothingDone hdata t),
    next (.read (lookAt 0x210001 0)) hdata (fun t => answers hdata t (lookAt 0x210001 0) 0 [] && nothingDone hdata t),
    reachesPeer dataP (ofPeer (lookAt 0x210002 4)) 4 true false (pa0 + 2),
    next (.read (ofPeer (lookAt 0x210002 4))) dataP (fun t => answers dataP t (ofPeer (lookAt 0x210002 4)) 0 [3, 4, 5, 6] && nothingDone dataP t),
    (match (walk hosted 0 (2 ^ 32)).1 with | .notPresent _ => true | _ => false),
    next (.read (lookAt (2 ^ 32) 4)) hosted (fun t => coresAs hosted t && t.ctxs == hosted.ctxs && (connFind t 0 5).map (fun k => k.queue) == some [(1, lookAt (2 ^ 32) 4)])] = true := by
  decide +kernel

/-! ## WRITE, WRITE_REL, ATOMIC (R494 to R496) -/

/-- The agent has one word for the connection. -/
def agent (owner : Nat) (st : L1St) (c : Nat) : State := { hdata with
  l1 := [{ owner := hostOwner, wa := pa0 / 4, st := st, val := 0x0A0B0C0D, mask := 15, conn := c }, { owner := owner, wa := 7, st := .valid, val := 9 }]
  slices := [{ wa := pa0 / 4, st := .registered, owner := hostOwner }] }
def writes (s : State) (m : Msg) (mine : List L1Word) (now : Bool) (t : State) : Bool :=
  t.warps == s.warps && t.mem == s.mem && t.slices == s.slices && t.ctxs == s.ctxs && t.l1.filter (fun x => x.owner == hostOwner) == mine &&
    t.l1.filter (fun x => x.owner != hostOwner) == s.l1.filter (fun x => x.owner != hostOwner) &&
    (if now then answers s t m 0 [] else t.conns == [{ ownerConn with rx := 11 }] && t.hostOps.map (fun o => o.ans) == [⟨0, 5, 77⟩])

theorem witness_HostAccesses_writes : every [
    reachesHost hdata (acc 0x210002 [0xAA, 0xBB]) 2 false true (pa0 + 2) bootLeaf, noneOut hdata (pa0 + 2) 2,
    next (.write (acc 0x210002 [0xAA, 0xBB, 0xCC])) (agent 3 .registered 5) (fun t => !(t.hostOps.isEmpty) &&
      t.l1.any (fun y => y.owner == hostOwner && y.wa == pa0 / 4 && y.st == .registered && y.val == 0xBBAA0C0D && y.mask == 15) &&
      t.l1.any (fun y => y.owner == hostOwner && y.wa == pa0 / 4 + 1 && y.st == .pending && y.val == 0xCC && y.mask == 1)),
    next (.write (acc 0x210002 [0xAA, 0xBB])) (agent 3 .registered 5)
      (writes (agent 3 .registered 5) (acc 0x210002 []) [{ owner := hostOwner, wa := pa0 / 4, st := .registered, val := 0xBBAA0C0D, mask := 15, conn := 5 }] true),
    next (.write (acc 0x210002 [0xAA, 0xBB])) hdata
      (writes hdata (acc 0x210002 []) [{ owner := hostOwner, wa := pa0 / 4, st := .pending, val := 0xBBAA0000, mask := 12, conn := 5 }] false),
    next (.write (acc 0x210000 [])) hdata (writes hdata (acc 0x210000 []) [] true),
    next (.writeRel (acc 0x210001 [0xEE])) (agent 3 .registered 5) (fun t => answers (agent 3 .registered 5) t (acc 0 []) 0 [] &&
      t.warps == hdata.warps && t.ctxs == hdata.ctxs && cohBytes t pa0 8 == [0x0D, 0xEE, 0x0B, 0x0A, 5, 6, 7, 8] && (sliceGet t (pa0 / 4)).st == .home),
    !(hostPending (agent 3 .registered 5) ownerConn), reachesPeer dataP (ofPeer (acc 0x210001 [0xEE])) 1 false true (pa0 + 1),
    next (.writeRel (ofPeer (acc 0x210001 [0xEE]))) dataP (fun t => answers dataP t (ofPeer (acc 0x210001 [])) 0 [] && cohBytes t pa0 3 == [1, 0xEE, 3])] = true := by
  decide +kernel

def atomic (op : BitVec 8) (va : Nat) (bs : List Byte) : Msg := { acc va bs with op := op }
theorem witness_HostAccesses_atomics : every [reachesHost hdata (atomic 0 0x210004 (natLe 4 1)) 4 true true (pa0 + 4) bootLeaf,
    next (.atomic (atomic 0 0x210004 (natLe 4 1))) hdata (fun t => answers hdata t (atomic 0 0 []) 0 [5, 6, 7, 8] && t.warps == hdata.warps && t.ctxs == hdata.ctxs &&
      cohBytes t pa0 12 == [1, 2, 3, 4] ++ natLe 4 (atomOp 0 0x08070605 1 0).toNat ++ [0, 0, 0, 0]),
    next (.atomic (atomic 9 0x210004 (natLe 4 0x08070605 ++ natLe 4 6))) hdata (fun t => answers hdata t (atomic 0 0 []) 0 [5, 6, 7, 8] &&
      cohWord t (pa0 / 4 + 1) == atomOp 9 0x08070605 0x08070605 6),
    next (.atomic (atomic 11 0x210000 (natLe 4 3))) (agent 3 .registered 5) (fun t => answers hdata t (atomic 0 0 []) 0 [0x0D, 0x0C, 0x0B, 0x0A] &&
      cohWord t (pa0 / 4) == atomOp 11 0x0A0B0C0D 3 0),
    reachesPeer dataP (ofPeer (atomic 0 0x210004 (natLe 4 1))) 4 true true (pa0 + 4),
    next (.atomic (ofPeer (atomic 0 0x210004 (natLe 4 1)))) dataP (fun t => answers dataP t (ofPeer (atomic 0 0 [])) 0 [5, 6, 7, 8])] = true := by
  decide +kernel

/-- A page still to be collapsed holds up a write (R292). -/
def shared1 : State := { hdata with mem := memWrite hdata.mem (2 ^ 51 + 0x3000) (natLe 8 (bootLeaf ||| 0x2000000000000000#64).toNat) }
def sharedLeaf : BitVec 64 := bootLeaf ||| 0x2000000000000000#64
def isHeldUp (i : Instr) (ty : Nat) (m : Msg) (rd : Bool) (n : Nat) : Bool :=
  reachesHost shared1 m n rd true pa0 sharedLeaf && arrives shared1 m (fun k => heldUp (counted shared1 k) m (some sharedLeaf)) && noneOut shared1 pa0 n &&
    !(hostPending shared1 ownerConn) && next i shared1 (fun t => coresAs shared1 t && packageAs shared1 t && t.ctxs == shared1.ctxs &&
      (collapseOf t 0 0).isSome && (connFind t 0 5).map (fun k => k.queue) == some [(ty, m)])

theorem witness_HostAccesses_held : every [isHeldUp (.write (acc 0x210000 [1])) 2 (acc 0x210000 [1]) false 1,
    isHeldUp (.writeRel (acc 0x210000 [1])) 3 (acc 0x210000 [1]) false 1,
    isHeldUp (.atomic (atomic 0 0x210000 (natLe 4 1))) 4 (atomic 0 0x210000 (natLe 4 1)) true 4] = true := by
  decide +kernel

/-! ## COMPLETION (R490, R497) -/

def requestedOf (k : OpKind) (ws : List Nat) (r : DevReq) : State := { withWarp hosted (fun w => { w with pend := [{ outSld with kind := k, words := ws.map (fun a => (a, none)) }], stores := [⟨21, 0x300000, 9, 0⟩, ⟨22, 0x300004, 10, 0⟩] }) with conns := [{ ownerConn with reqs := [(77, r), (78, .event)] }] }
def requested (r : DevReq) : State := requestedOf (.load 1 none) [9] r
def reqLeft (t : State) : Bool := (connFind t 0 5).map (fun k => k.reqs) == some [(78, .event)]
def done (status : BitVec 8) (bs : List Byte) : Msg := { cmd 0 bs with op := status }

theorem witness_HostAccesses_completions : every [
    next (.completion (done 0 [])) (requested .event) (fun t => reqLeft t && nothingDone (requested .event) t),
    next (.completion (done 0 (natLe 4 0x1234))) (requested (.window 0 0 7 9)) (fun t => reqLeft t && (w0 t).regs == (w0 (requested .event)).regs &&
      (w0 t).pend.map (fun p => p.words) == [[(9, some 0x1234)]] && t.mem == hosted.mem && t.ctxs == hosted.ctxs),
    readsPair (requestedOf .sld [9, 10] .event) 0 0 7, !(readsPair (requested .event) 0 0 7),
    next (.completion (done 0 (natLe 4 0x1234 ++ natLe 4 0x5678))) (requestedOf .sld [9, 10] (.window 0 0 7 9)) (fun t => reqLeft t &&
      (w0 t).pend.map (fun p => p.words) == [[(9, some 0x1234), (10, some 0x5678)]]),
    next (.completion (done 2 [])) (requested (.window 0 0 7 9)) (fun t => (ctxOf t 0).st == .faulted && t.mem == hosted.mem &&
      (ctxOf t 0).faultrec.take 3 == [0, .ofNat 8 (causeCode .protection), .ofNat 8 ((causeClass .protection).getD 0xFF)]),
    next (.completion (done 0 [])) (requested (.store 0 0 21)) (fun t => reqLeft t && (w0 t).stores == [⟨22, 0x300004, 10, 0⟩] && t.mem == hosted.mem && t.ctxs == hosted.ctxs),
    next (.completion { done 5 [] with ack := 20 }) { hosted with conns := [{ ownerConn with unacked := [{ ty := 7, seq := 19 }, { ty := 7, seq := 20 }] }] } (fun t => nothingDone hosted t &&
      t.conns == [{ ownerConn with unacked := [{ ty := 7, seq := 20 }] }])] = true := by
  decide +kernel

end Sys2Proof.Tests
end

