-- ==== Sys2Proof/Tests/WitnessControl.lean ====
section
/-! SUPPORT. For the statements about control transfer, causes, traps and refills: states that meet their hypotheses, and there their
conclusions, by evaluation. -/

namespace Sys2Proof.Tests

open Sys2Proof.Machine Sys2Proof.Claim

set_option maxRecDepth 100000
set_option Elab.async false

/-- `Transfers`: registers as they were, every lane at the PC and depth given. -/
def transfers (sh : Shape) (x : Iss) (t : State) (pc : Nat → BitVec 32) (depth : Nat → BitVec 8) : Bool :=
  leaves sh x t [] [] [] 0 && laneIdx.all (fun l => getAt 0 (w0 t).pc l == pc l && getAt 0 (w0 t).depth l == depth l &&
    getAt 0 (w0 t).rep l == (if laneBit x.split l then 0 else getAt 0 x.w.rep l))

/-- Two groups of lanes: lanes 0 to 15 at 0, 16 to 31 at 8, which issue. -/
def upper : State :=
  { withWarp mixed (fun w => { w with pc := (List.range 32).map (fun l => if l < 16 then 0 else 8) }) with issue := some ⟨0, 0, 0xFFFF0000#32, none⟩ }

/-- v4 holds targets: 64 in each lane, but what a function says. -/
def targets (f : Nat → Word) : State := withWarp mixed (putV 4 f)

/-- R125, R126, R128: BRA whose mask holds some lanes, with either sense; BRX; an odd target at lane 3; a bound group that would part. -/
def checks_BranchesTransfer : Bool := every [
    after (.bra g0 ⟨6, true, 16⟩) mixed (fun sh _ x t => (divergeLane x.w x.w.pc x.w.depth).isNone &&
      transfers sh x t (fun l => if laneBit (0x0F0F3355 : LaneMask) l then 32 else 4) (fun _ => 0) && (w0 t).stack.isEmpty),
    after (.bra g0 ⟨6, false, 0xFFFF⟩) upper (fun sh _ x t => transfers sh x t
      (fun l => if l < 16 then 0 else if laneBit (0x0F0F3355 : LaneMask) l then 12 else 6) (fun _ => 0)),
    after (.brx g0 ⟨4, false, 0⟩) (targets (fun l => .ofNat 32 (2 * l))) (fun sh _ x t => transfers sh x t (fun l => .ofNat 32 (2 * l)) (fun _ => 0)),
    raises (.brx g0 ⟨4, false, 0⟩) (targets (fun l => if l < 3 then 64 else 65)) .misaligned (some 3) 65,
    issues (.bra g0 ⟨6, true, 16⟩) bound8 (fun _ _ x => (divergeLane x.w ((List.range 32).map (fun l =>
      if laneBit (0x0F0F3355 : LaneMask) l then 32 else 4)) x.w.depth) == some 0),
    raises (.bra g0 ⟨6, true, 16⟩) bound8 .boundDiverge (some 0) 0]

theorem witness_BranchesTransfer : checks_BranchesTransfer = true := by decide +kernel

/-- The want of a CALL's words, and of a RET's. -/
def callWant : Want := { size := 4, align := 4, rd := false, wr := true, kind := kStore, watch := false }
def retWant : Want := { size := 4, align := 4, rd := true, wr := false, kind := kLoad, watch := false }

/-- Where the words of depth 0 stand. -/
def callWord (x : Iss) (l : Nat) : Nat := (x.w.privbase.toNat + l * 4) % 2 ^ 64

/-- R125 to R128, R133: CALL in some lanes, CALLX in all; CALL in none; a lane at its limit. -/
def checks_CallsAndReturns_call : Bool := every [
    issues (.call g0 ⟨6, true, 16⟩) mixed (fun _ s1 x => match gate s1 x.w callWant ((lanesOf (0x0F0F3355 : LaneMask)).map (fun l => (l, callWord x l))) with
      | .go s2 es => es.all (fun e => leafKind e.2.2 == 0 && inPriv x.w e.2.1) && !(anyPending s2 x.w es) && decide (stackRows x.w.stack + 32 ≤ 32)
      | _ => false),
    after (.call g0 ⟨6, true, 16⟩) mixed (fun sh s1 x t => sameMem s1 t &&
      transfers sh x t (fun l => if laneBit (0x0F0F3355 : LaneMask) l then 32 else 4) (fun l => if laneBit (0x0F0F3355 : LaneMask) l then 1 else 0) &&
      laneIdx.all (fun l => getKey (callWord x l) (w0 t).stack == (if laneBit (0x0F0F3355 : LaneMask) l then some 4 else none))),
    after (.callx g0 ⟨4, false, 0⟩) (targets (fun l => .ofNat 32 (2 * l))) (fun sh _ x t => transfers sh x t (fun l => .ofNat 32 (2 * l)) (fun _ => 1)),
    after (.call g0 ⟨1, true, 16⟩) mixed (fun sh s1 x t => sameMem s1 t && transfers sh x t (fun _ => 4) (fun _ => 0) && (w0 t).stack.isEmpty),
    raises (.call g0 ⟨0, true, 16⟩) (withWarp mixed (fun w => { w with stackLim := 1, depth := setAt 0 w.depth 5 1 })) .stackLimit (some 5)
      (.ofNat 64 ((w0 mixed).privbase.toNat + 37 * 4))]

theorem witness_CallsAndReturns_call : checks_CallsAndReturns_call = true := by decide +kernel

/-- A warp one call deep, its return address in the stack cache. -/
def called : State :=
  withWarp mixed (fun w => { w with depth := List.replicate 32 1, stack := (List.range 32).map (fun l => (w.privbase.toNat + 4 * l, 40)) })

/-- R127: RET where the words stand in the stack cache; at depth 0. -/
def checks_CallsAndReturns_ret : Bool := every [
    issues (.ret g0 ⟨0, false, 0⟩) called (fun _ s1 x => match gate s1 x.w retWant (laneIdx.map (fun l => (l, callWord x l))) with
      | .go s2 es => !(anyPending s2 x.w es) && es.all (fun e => findWord s2 x.w e.2.2 e.2.1 15#4 == .val 40) && es.length == 32
      | _ => false),
    after (.ret g0 ⟨0, false, 0⟩) called (fun sh s1 x t => sameMem s1 t && transfers sh x t (fun _ => 40) (fun _ => 0) && (w0 t).stack == x.w.stack),
    raises (.ret g0 ⟨0, false, 0⟩) mixed .stackLimit (some 0)
      (.ofNat 64 (((w0 mixed).privbase.toNat + (2 ^ 57 - 1) * 32 * 4) % 2 ^ 64))]

theorem witness_CallsAndReturns_ret : checks_CallsAndReturns_ret = true := by decide +kernel

/-- R121, R122, R129, R237, R244. -/
def checks_PlainControl : Bool := every [
    after .nopC mixed (fun sh s1 x t => completes sh x s1 t [] [] [] 0 && keepsRest x t),
    after (.nop g0 ⟨0, false, 0⟩) mixed (fun sh s1 x t => completes sh x s1 t [] [] [] 0 && keepsRest x t),
    after .yieldC mixed (fun sh s1 x t => x.w.stepSet.isNone && completes sh x s1 t [] [] [] 0 && keepsRest x t && (w0 t).yielded),
    after (.yield g0 ⟨0, false, 0⟩) mixed (fun sh s1 x t => completes sh x s1 t [] [] [] 0 && (w0 t).yielded),
    after (.wait 0xFFF) mixed (fun sh s1 x t => completes sh x s1 t [] [] [] 0 && keepsRest x t),
    after (.wait 0x800) (withWarp mixed (fun w => { w with f := setAt 0 w.f 11 1 })) (fun _ s1 x t =>
      t.issue == s1.issue && (w0 t).pc == x.w.pc && (w0 t).regs == x.w.regs),
    after (.exit g0 ⟨0, false, 0⟩) upper (fun sh s1 x t => sameMem s1 t && (w0 t).exited == 0xFFFF0000#32 &&
      transfers sh x t (fun l => if l < 16 then 0 else 8) (fun _ => 0)),
    after (.fuse g0 ⟨0, false, 0⟩) mixed (fun sh s1 x t => !(belowSplit x.w x.split) && completes sh x s1 t [] [] [] 0 && (w0 t).parked.isEmpty),
    after (.fuse g0 ⟨0, false, 0⟩) upper (fun sh _ x t => belowSplit x.w x.split && leaves sh x t [] [] [] 0 && (w0 t).pc == x.w.pc &&
      (w0 t).parked.map (fun p => (p.lanes, p.wait)) == [(0xFFFF0000#32, .fuse)])]

theorem witness_PlainControl : checks_PlainControl = true := by decide +kernel

/-- The group raises a cause with a CODE. -/
def raisesCode (i : Instr) (s : State) (k : Cause) (code : BitVec 8) : Bool :=
  issues i s (fun sh s1 x => is i s (raiseIssue s1 x.w x.split x.act sh x.j x.chained x.pc k none 0 code))

/-- R101, R322. -/
def checks_TrapInstructions : Bool := every [raisesCode (.idiv g0 oA) mixed .unimpl 0, raisesCode (.irem g0 oA) mixed .unimpl 0,
    raisesCode (.trap g0 ⟨0, false, 255⟩) mixed .trap 255, raisesCode (.brk g0 ⟨0, false, 0⟩) mixed .brk 0]

theorem witness_TrapInstructions : checks_TrapInstructions = true := by decide +kernel

/-- A context that stops at the group at offset 0, the only stop site of its list. -/
def breaks : State :=
  poke 0x400 (natLe 4 0) (withCtx (tabled mixed) (fun c => { c with safept := some (0x400, 1), bp := setAt 0 c.bp 3 0x80000000 }))

/-- A group that the decoder refuses, with its stop bit. -/
def badWord : BadGroup := ⟨.reservedMajor, 0x80000001, 0, 4⟩

/-- R99, R100, R510, R524. -/
def checks_FirstCauses (bad : Instr) : Bool :=
  let refused (s : State) (k : Cause) (code : BitVec 8) : Bool :=
    match warpFind s 0 0, s.issue with
    | some w, some p =>
      let x := issOf s p (badShape badWord) (atIssue s p w (badShape badWord))
      (breakAt s 0 x.pc.toNat (ctxOf s 0).bp 0).isSome == (k == .brk) &&
        is bad s (raiseIssue s x.w p.split x.act (badShape badWord) x.j false x.pc k none 0 code)
    | _, _ => false
  every [refused mixed .illegal 0, refused breaks .brk 3,
    firstIs (.iadd ⟨true, 0, none, none⟩ oA) breaks .brk none 3,
    firstIs (.migrate g0 ⟨2, 4, 0, false, false⟩) { mixed with featAccept := 1 } .illegal none 0,
    firstIs (.iadd g0 ⟨2, 56, 6, false, false⟩) mixed .latchChain none 0,
    firstIs (.iadd g0 ⟨2, 40, 6, false, false⟩) (withCtx mixed (fun c => { c with staletrap := true })) .unmappedRead none 0,
    firstIs (.iadd (gm 6 false) oA) bound8 .boundMask (some 0) 0,
    firstIs (.cseal g0 ⟨2, 0, 0, false, false⟩) upper .singularSplit none 0]

theorem witness_FirstCauses : checks_FirstCauses (.illegalEncoding badWord) = true := by decide +kernel

/-- A context that handles every class, its vector's entries at 0x80 × class, and its tables in memory. -/
def handles : State :=
  poke 0x200000 ((List.range 8).flatMap (fun c => natLe 4 (0x80 * c)))
    (withCtx (tabled (withWarp (withWarp ready (fun w => putS 4 9 w)) (fun w => { w with exited := 2, depth := List.replicate 32 1 }))) (fun c => { c with trapctl := 0x7F }))

/-- A TRAP with CODE 5. -/
def aTrap : TrapInfo := { cause := .trap, code := 5, spl := 0xFFFFFFFD, act := 0xFFFFFFFD, insn := 0x2014035D, ginfo := 4, skip := 4 }

/-- R316 to R319: the trap enters the handler of class 6: that it does shows that the frame was written and the vector read. -/
def checks_TrapEntry : Bool :=
  let w := w0 handles
  let s := { handles with issue := none }
  let v := w0 (raiseAt s w aTrap 0)
  every [!w.inHandler, causeClass aTrap.cause == some 6, (ctxOf s 0).trapctl.getLsbD 6, quiet w, w.rupds.isEmpty,
    good (vectorEntry s 0 6) (fun n => n == 0x300), v.inHandler, v.exited == 2,
    laneIdx.all (fun l => l == 1 || getAt 0 v.pc l == 0x300 && getAt 0 v.depth l == 0 && getAt 0 v.rep l == 0),
    (List.range 56).all (fun n => (vEntry v.regs n).st == .unmapped), sGet v.regs 62 == .ofNat 64 (frameAddr s w),
    sGet v.regs 63 == (causeWord aTrap).setWidth 64, (List.range 62).all (fun n => sGet v.regs n == sGet w.regs n),
    (List.range 16).all (fun n => mGet v.regs n == mGet w.regs n), v.regs.flags == 0, v.limbst == 0, v.f.all (fun n => n == 0),
    v.parked.isEmpty]

theorem witness_TrapEntry : checks_TrapEntry = true := by decide +kernel

/-- R316, R321: not handled, without a class, in the handler. -/
def checks_UnhandledCauseFaults : Bool :=
  let s := { mixed with issue := none }
     let faults (w : Warp) (k : Cause) (code : Nat) : Bool :=
       let t := raiseAt s w { cause := k, faddr := 0x123456789 } 0
       (ctxOf t 0).st == .faulted && fr (ctxOf t 0).faultrec 0 1 == 0 && fr (ctxOf t 0).faultrec 1 1 == code && fr (ctxOf t 0).faultrec 4 4 == 0 &&
         fr (ctxOf t 0).faultrec 8 4 == 0 && fr (ctxOf t 0).faultrec 16 8 == 0x123456789 && t.warps == s.warps && sameMem s t
     every [(ctxOf s 0).st == .running, (ctxOf s 0).trapctl == 0, faults (w0 s) .stackLimit 0x0B, faults (w0 s) .strandTable 0x1B,
       faults { w0 s with inHandler := true } .illegal 0x3E,
       (let w := { w0 s with inHandler := true }
        let k : TrapInfo := { cause := .illegal, skip := 8, spl := 5 }
        let t := raiseAt s w k 0
        (ctxOf t 0).st == .faulted && fr (ctxOf t 0).faultrec 1 1 == 0x3E && t.warps == (setWarp s (pastTrap w k)).warps && sameMem s t)]

theorem witness_UnhandledCauseFaults : checks_UnhandledCauseFaults = true := by decide +kernel

/-- R318, R323: what the frame of a warp with four MAPPED registers holds is what a reload of it restores. -/
def checks_FrameRestoresWarp : Bool :=
  let w := w0 bound8
     let bs := frameHeader w none false ++ (List.range 64).flatMap (fun n => natLe 8 (sGet w.regs n).toNat) ++
       (List.range 56).flatMap (fun n => laneBytes (vGet w.regs n))
     let u := loadFrame { w with regs := {}, limbst := 0, carryx := [], pc := [], depth := [], rep := [] } bs
     every [bs.take 1024 == frameHeader w none false ++ (List.range 64).flatMap (fun n => natLe 8 (sGet w.regs n).toNat),
       [2, 4, 5, 6].all (fun n => (bs.drop (1024 + 128 * n)).take 128 == laneBytes (vGet w.regs n)), (w.regs.v.filter (fun r => r.st != .unmapped)).length == 4,
       decide (w.regs.flags.toNat < 64), decide (w.stackLim.toNat ≤ w.stackMax.toNat), u.limbst == 3, u.pc == w.pc, u.regs.s == w.regs.s,
       u.carryx == w.carryx, (List.range 56).all (fun n => (vEntry u.regs n).st == (vEntry w.regs n).st), vGet u.regs 2 == vGet w.regs 2,
       vGet u.regs 6 == vGet w.regs 6]

theorem witness_FrameRestoresWarp : checks_FrameRestoresWarp = true := by decide +kernel

/-- A warp in its handler, lane 1 EXITED; its frame holds PC 64 for lane 0, s1, and v2 as MAPPED. -/
def handling : State :=
  poke 0x10000208 [7] (poke 0x10000000 [64] (poke 0x100000C8 [4] (poke 0x10000500 [9]
    (tabled { withWarp mixed (fun w => { w with inHandler := true, exited := 2 }) with issue := some ⟨0, 0, 0xFFFFFFFD#32, none⟩ }))))

/-- The same with an odd PC. -/
def oddFrame : State := poke 0x10000000 [65] handling

/-- R323: TRET restores what the frame holds; outside a handler; from a smaller split; from a frame that is not in order. -/
def checks_TrapReturn : Bool := every [
  issues (.tret g0 ⟨0, false, 0⟩) handling (fun _ s1 x => x.w.inHandler && x.split == live x.w && quiet x.w && x.w.stores.isEmpty && x.w.relq.isEmpty &&
    good (readFrame s1 x.w) (fun bs => !(frameBad x.w bs) &&
      (match remap (setWarp s1 { x.w with regs := { x.w.regs with v := noRegs, order := [] } }) (loadFrame x.w bs) with | .ok _ _ => true | _ => false))),
  after (.tret g0 ⟨0, false, 0⟩) handling (fun _ _ _ t => t.issue.isNone && !(w0 t).inHandler && (w0 t).exited == 2 &&
    getAt 0 (w0 t).pc 0 == 64 && getAt 0 (w0 t).pc 2 == 0 && sAt t 1 == 7 && sAt t 4 == 0 && (vEntry (w0 t).regs 2).st == .mapped && vAt t 2 0 == 9 &&
    (vEntry (w0 t).regs 4).st == .unmapped),
  raises (.tret g0 ⟨0, false, 0⟩) mixed .illegal none 0,
  issues (.tret g0 ⟨0, false, 0⟩) { handling with issue := some ⟨0, 0, 0xFFFFFFF0#32, none⟩ } (fun _ s1 x => x.w.inHandler && x.split != live x.w &&
    is (.tret g0 ⟨0, false, 0⟩) { handling with issue := some ⟨0, 0, 0xFFFFFFF0#32, none⟩ }
      (ctxFault (setWarp s1 x.w) 0 .doubleTrap (some 0) (some 0) 0)),
  issues (.tret g0 ⟨0, false, 0⟩) oddFrame (fun _ s1 x => good (readFrame s1 x.w) (fun bs => frameBad x.w bs) &&
    is (.tret g0 ⟨0, false, 0⟩) oddFrame (ctxFault (setWarp s1 x.w) 0 .doubleTrap (some 0) (some 0) 0))]

theorem witness_TrapReturn : checks_TrapReturn = true := by decide +kernel

/-- A descheduled warp whose v2 and v9 stand in its backing area. -/
def spilled : State :=
  poke 0x18000480 (natLe 4 77) (withWarp (tabled ready) (fun w =>
    let rs : Regs := { w.regs with v := setAt {} (setAt {} w.regs.v 2 ⟨.spilled, []⟩) 9 ⟨.spilled, []⟩ }
    { w with desched := true, holds := [.refill], regs := rs }))

/-- R147, R149. -/
def checks_RefillReturnsRegisters (i : Instr) : Bool :=
  let w := w0 spilled
  every [w.desched, onCore w.core w, (residents spilled w.core).length == 1, decide (max (spilledCount w.regs + bit (firstWrite spilled w)) w.floor ≤ freeRegs spilled w),
    good (devRead spilled 0 (backAddr spilled w + 128 * 2) 128) (fun _ => true), good (devRead spilled 0 (backAddr spilled w + 128 * 9) 128) (fun _ => true),
    good (refillList spilled w (List.range 56)) (fun v => good (writeMap spilled v false) (fun _ => true)),
    next i spilled (fun t => !(w0 t).desched && (w0 t).holds.isEmpty && (vEntry (w0 t).regs 2).st == .mapped && vAt t 9 0 == 77 &&
      vAt t 2 0 == 0 && (vEntry (w0 t).regs 3).st == .unmapped && (w0 t).pc == w.pc)]

theorem witness_RefillReturnsRegisters : checks_RefillReturnsRegisters (.registerRefill 0 0) = true := by decide +kernel

end Sys2Proof.Tests
end

