-- ==== Sys2Proof/Tests/WitnessOwnership.lean ====
section
/-! SUPPORT. For the statements about connections and ownership: states and messages that meet their hypotheses, and there their
conclusions, by evaluation. The keys and signatures were computed outside Lean for secret keys 0x1234567 and 0x7654321, with the
serial number and the nonce at zero. -/

namespace Sys2Proof.Tests

open Sys2Proof.Machine Sys2Proof.Claim

set_option maxRecDepth 100000
set_option Elab.async false

/-! ## OPEN and CLOSE (R489, R492, R504) -/

def openMsg (port num dst : Nat) : Msg := { cmd 0 (natLe 4 num ++ natLe 2 0 ++ natLe 2 dst ++ natLe 8 0) with port := port, conn := 0, seq := 0 }
def tells (t : State) (port status : Nat) : Bool := match t.sent with
  | [d] => d.port == port && d.peer == 3 && d.conn == 0 && d.msg.ty == 7 && d.msg.op == .ofNat 8 status && d.msg.tag == 77
  | _ => false
def opens (s : State) (m : Msg) : Bool :=
  m.conn == 0 && (getAt {} s.ports m.port).st == .up && m.payload.length == 16 && m.addr == 0 && pl m 0 4 != 0 && pl m 8 8 == 0 &&
    (m.port != 0 || pl m 4 4 == 0) && (m.port == 0 || pl m 6 2 == s.pkgNum.toNat)

theorem witness_OwnershipCommands_connections : every [opens hosted (openMsg 0 6 0), opens { onPort1 hosted with pkgNum := 9 } (openMsg 1 6 9),
    next (.openConn (openMsg 0 6 0)) hosted (fun t => tells t 0 0 && coresAs hosted t && packageAs hosted t && t.ctxs == hosted.ctxs &&
      (match t.conns with | [a, k] => a == ownerConn && k.num == 6 && k.port == 0 && k.peer == 3 && !k.owner && k.rx == 0 && k.tx == 0 && k.unacked.isEmpty && !k.failed | _ => false)),
    next (.openConn (openMsg 0 5 0)) hosted (fun t => tells t 0 0 && nothingDone hosted t && t.conns == hosted.conns),
    next (.openConn (openMsg 0 5 0)) { hosted with conns := [{ ownerConn with peer := 4 }] } (fun t => tells t 0 7 && nothingDone hosted t),
    next (.openConn (openMsg 1 6 9)) { onPort1 hosted with pkgNum := 9 } (fun t => tells t 1 0 && t.conns.length == 2),
    arrives hosted (cmd 0 []) (fun k => k.reqs.isEmpty),
    next (.close (cmd 0 [])) hosted (fun t => (connFind t 0 5).isNone && t.sent.any (fun d => d.port == 0 && d.conn == 5 && d.msg.ty == 7 && d.msg.op == 0 && d.msg.tag == 77) &&
      t.warps == hosted.warps && t.mem == hosted.mem && t.ctxs == hosted.ctxs)] = true := by
  decide +kernel

/-! ## Claims and signed commands (R16, R17, R19 to R23) -/

/-- Two public keys. -/
def keyA : List Byte := 4 ::
  natLe 48 0x7AE9E1DB1160794C70C1EF071BE5191F6C66240F4608FBE8A44ECD36C3ED5DB97500F2E4D84E3FB45850FD6F4303302B ++
  natLe 48 0xD8AC21444CD80D241538D8034B399A0DEE3636EB5CB00B9499D061A571DB0F14BB47ED79453948ED63F3A6CCBBF6E74F
def keyB : List Byte := 4 ::
  natLe 48 0x8568A35A879B0D506132993C6D911D3136A731409AB8C5D26FD7A01E81425281453A6C6ADF4CD2F38C77A5042815EA48 ++
  natLe 48 0xE85AC9CDEED95C699CA799B9C730B120F39454A5373EA1F6C64C4319553A389A28F46B7A4617CE87B26BDE1769573A09
def claimA : List Byte :=
  natLe 48 0x1F60A599909CD916F9BE3C75F83992E16D0C0933214562B608CA0A32D1A12FE8FF79E3854B8488EC01E35ACFFD2A44CE ++
  natLe 48 0x9A455600E003B79A0104F8D5DB034E0EDF5B2B073E70846E19ED3F16B2256AED8AE1612235F97B5178D9689E81079686
def claimB : List Byte :=
  natLe 48 0xCF3945E9C8037E581FC06B8AD062651970CA4E13BB5748E8ECDEAAC68CD78F2F1DE786BFED448D601ABF8A0F86F743BD ++
  natLe 48 0x82529C1FD781941126D01739FD1AC328DB99FA0C56A625FCC6D10AB62B6045E60B3F980677D9BE176BC21B785CCDC7E4
def plainSig : List Byte :=
  natLe 48 0xC6C881E711DD18C3E3F8349159E49124AE9CC6E618F99EED0CCB50B4E61D85A2D1CD58C2F3494D30FDFD09D94C15252B ++
  natLe 48 0x4ADF9C328EA1669080B13BE771005D1969196D5A2E9F36EEF10B1BD34E7C029E70046A4F63CE1CAE725D92A916AA4F9F
def handSig : List Byte :=
  natLe 48 0x663B4F4BADBF674A0160B1E15310B961045DC1DB15054D877E238C248562C7B821D381F306B6216E59BDFBFC38971A67 ++
  natLe 48 0x532EDDBEA8BB0C74FF02DAEBE330E8C90D68754F389CDE3DD2C4582D4DD269213DB8B0537938552BED1930687E54725D
def fwSig : List Byte :=
  natLe 48 0xC4BF75CD9AE846AAA652C001D1A589DEE29A845DB912B58B6095788C167D4189CEE174CBC265F040C3C7C4CB7C2C00F9 ++
  natLe 48 0xEE4EF0B9EEAAFDCF9B2192DE9BCD3F7D397D82B4AB7D6AAF8F7314DF9B0D2868130891A20A004A4C3970EF8BCED47785

/-- The package with an owner key; the claims; the signed commands. -/
def keyed (d : DevState) (k : Option (List Byte)) : State := { linked { tabled ready with issue := none } with dev := d, ownerKey := k }
def claimMsg (key sig : List Byte) : Msg := cmd 0 (key ++ sig)
def goodClaim (s : State) (m : Msg) : Bool := arrives s m (fun k => k.port == 0 && k.nonceOk &&
  ecdsaVerify (m.payload.take 97) (claimDigest s k (m.payload.take 97)) (m.payload.drop 97)) && m.addr == 0 && m.payload.length == 193 && s.allow.isEmpty && s.outbox.isEmpty
def signedBy (s : State) (m : Msg) (n : Nat) : Bool := arrives s m (fun k => k.owner && k.port == 0 && k.nonceOk &&
  ecdsaVerify keyA (commandDigest s k m (m.payload.take n)) (m.payload.drop n)) && s.ownerKey == some keyA && m.addr == 0 && m.payload.length == n + 96
def newNonce (s t : State) : Bool := t.free == s.free + 1 && (connFind t 0 5).map (fun k => k.nonceOk) == some true
def owns (t : State) : Bool := (connFind t 0 5).map (fun k => k.owner) == some true
def accepted (i : Instr) (s : State) (m : Msg) (f : State → Bool) : Bool := next i s (fun t => answers s t m 0 [] && newNonce s t && f t)
def late (s : State) : State := { s with conns := s.conns.map (fun k => { k with nonceOk := false }) }
def plain : Msg := cmd 0 plainSig
def hand : Msg := cmd 0 (sha384 keyB ++ handSig)

theorem witness_OwnershipCommands_claims : every [
    goodClaim (notOwner (keyed .unowned none)) (claimMsg keyA claimA),
    accepted (.claim (claimMsg keyA claimA)) (notOwner (keyed .unowned none)) (claimMsg keyA claimA) (fun t =>
      t.dev == .owned && t.ownerKey == some keyA && owns t && coresAs hosted t && t.ctxs == hosted.ctxs),
    accepted (.claim (claimMsg keyA claimA)) (notOwner (keyed .owned (some keyA))) (claimMsg keyA claimA) (fun t => owns t && nothingDone (keyed .owned (some keyA)) t),
    goodClaim (notOwner (keyed .owned (some keyA))) (claimMsg keyB claimB),
    turnsAway (.claim (claimMsg keyB claimB)) (notOwner (keyed .owned (some keyA))) (claimMsg keyB claimB) 13,
    accepted (.claim (claimMsg keyB claimB)) (notOwner { keyed .handover (some keyA) with successor := some (sha384 keyB) }) (claimMsg keyB claimB) (fun t =>
      t.dev == .owned && t.ownerKey == some keyB && t.successor.isNone && owns t && t.conns.length == 1),
    turnsAway (.claim (claimMsg keyA claimB)) (notOwner (keyed .unowned none)) (claimMsg keyA claimB) 12,
    turnsAway (.claim (claimMsg keyA claimA)) (late (notOwner (keyed .unowned none))) (claimMsg keyA claimA) 12] = true := by
  decide +kernel

theorem witness_OwnershipCommands_refused : every [
    turnsAway (.handover (cmd 0 (sha384 keyA ++ handSig))) (keyed .owned (some keyA)) (cmd 0 (sha384 keyA ++ handSig)) 12,
    turnsAway (.release plain) (late (keyed .owned (some keyA))) plain 12, turnsAway (.cancel plain) (keyed .handover (some keyB)) plain 12,
    turnsAway (.reset plain) (late (keyed .failed (some keyA))) plain 12,
    turnsAway (.fwActivate (cmd 0 (natLe 8 2 ++ plainSig))) (keyed .owned (some keyA)) (cmd 0 (natLe 8 2 ++ plainSig)) 12] = true := by
  decide +kernel

theorem witness_OwnershipCommands_signed : every [signedBy (keyed .owned (some keyA)) hand 48, signedBy (keyed .owned (some keyA)) plain 0,
    accepted (.handover hand) (keyed .owned (some keyA)) hand (fun t => t.dev == .handover && t.successor == some (sha384 keyB) && t.ownerKey == some keyA && coresAs hosted t),
    turnsAway (.handover hand) (keyed .handover (some keyA)) hand 8,
    accepted (.cancel plain) { keyed .handover (some keyA) with successor := some (sha384 keyB) } plain (fun t => t.dev == .owned && t.successor.isNone && coresAs hosted t),
    accepted (.cancel plain) { keyed .handover (some keyB) with successor := some (sha384 keyB), conns := [{ ownerConn with lateKey := some keyA }] } plain (fun t =>
      t.dev == .owned && t.ownerKey == some keyB),
    turnsAway (.cancel plain) (keyed .owned (some keyA)) plain 8, turnsAway (.release plain) (keyed .owned (some keyA)) plain 7,
    accepted (.release plain) { keyed .owned (some keyA) with ctxs := [] } plain (fun t => t.dev == .unowned && t.ownerKey.isNone && t.featAccept == 0 && !t.featWritten &&
      t.conns.all (fun k => !k.owner) && (List.range 8).all (fun p => (getAt ({} : Port) t.ports (p + 1)).st == .disabled)),
    next (.reset plain) (keyed .failed (some keyA)) (fun t => t.dev == .reset && t.mem == hosted.mem && t.ownerKey == some keyA && t.conns.isEmpty && t.warps.isEmpty &&
      t.l1.isEmpty && t.featAccept == 0 && (List.range 64).all (fun c => (ctxOf t c).st == .empty))] = true := by
  decide +kernel

/-! ## Firmware, attestation, sparing (R26 to R29, R36) -/

/-- R29: the report without its signature, which is the part's own. -/
theorem witness_OwnershipCommands_attest : every [arrives hosted (cmd 0 (List.replicate 48 7)) (fun _ => true),
    next (.attest (cmd 0 (List.replicate 48 7))) hosted (fun t => nothingDone hosted t && match (connFind t 0 5).map (fun k => k.unacked) with
      | some [q] => fr q.payload 0 4 == 1 && fr q.payload 4 4 == 4 && (q.payload.drop 24).take 48 == List.replicate 48 7 && (q.payload.drop 280).take 48 == List.replicate 48 0 && q.payload.length == 512
      | _ => false)] = true := by
  decide +kernel

def stageMsg (n off last : Nat) (bs : List Byte) : Msg := cmd 0 ([.ofNat 8 n, .ofNat 8 last, 0, 0] ++ natLe 4 off ++ bs)
def fwMsg : Msg := cmd 0 (natLe 8 2 ++ fwSig)
def slots (active : Bool) (other : List Byte) (minver : Nat) : State := { keyed .owned (some keyA) with
  firmware := [{}, {}, { activeB := active, slotA := { secver := 4, body := other }, slotB := { secver := 4, body := other }, minver := minver }, {}] }
def spareMsg (die core : Nat) : Msg := cmd 0 ([.ofNat 8 die, .ofNat 8 core] ++ natLe 6 0)

theorem witness_OwnershipCommands_firmware : every [fromOwner hosted (stageMsg 2 0 0 [1, 2, 3]) 11,
    turnsAway (.fwStage (stageMsg 2 5 0 [1, 2, 3])) hosted (stageMsg 2 5 0 [1, 2, 3]) 4,
    next (.fwStage (stageMsg 2 0 0 [1, 2, 3])) hosted (fun t => answers hosted t (stageMsg 2 0 0 []) 0 [] && nothingDone hosted t && t.firmware == hosted.firmware &&
      (connFind t 0 5).map (fun k => k.fw) == some (some (2, [1, 2, 3]))),
    signedBy (slots true [9] 5) fwMsg 8,
    turnsAway (.fwActivate fwMsg) { slots true [9] 5 with featAccept := 1 } fwMsg 7, turnsAway (.fwActivate fwMsg) (slots true [] 5) fwMsg 14,
    accepted (.fwActivate fwMsg) (slots true [9] 5) fwMsg (fun t => coresAs hosted t && (getAt ({} : Firmware) t.firmware 2).activeB == false),
    turnsAway (.fwAdvance fwMsg) (slots true [9] 5) fwMsg 11,
    accepted (.fwAdvance fwMsg) (slots true [9] 4) fwMsg (fun t => nothingDone (slots true [9] 4) t && (getAt ({} : Firmware) t.firmware 2).minver == 4),
    fromOwner hosted (spareMsg 1 127) 8, turnsAway (.spare (spareMsg 1 127)) { hosted with sparing := [255] } (spareMsg 1 127) 7,
    turnsAway (.spare (spareMsg 1 127)) { hosted with featAccept := 1 } (spareMsg 1 127) 7, turnsAway (.spare (spareMsg 1 127)) { hosted with spares := [0, 4] } (spareMsg 1 127) 15,
    next (.spare (spareMsg 1 127)) { hosted with spares := [0, 3] } (fun t => answers hosted t (spareMsg 1 127) 0 [] && nothingDone hosted t && t.sparing == [255] && getAt 0 t.spares 1 == 4)] = true := by
  decide +kernel

/-- R26: where an image is accepted, its last chunk goes to the inactive slot; where none is, the slot stays. What an image is made of, and
the key that signs it, are not given (assumption 12), so that the witness is of either case. -/
theorem witness_OwnershipCommands_staged (im : List Byte) :
    fromOwner hosted (stageMsg 2 0 1 im) (im.length + 8) = true := by
  have hp : (stageMsg 2 0 1 im).payload.length = im.length + 8 := by simp [stageMsg, cmd, natLe]
  have ha : arrives hosted (stageMsg 2 0 1 im) (fun k => k.owner && k.port == 0) = arrives hosted (stageMsg 2 0 1 []) (fun k => k.owner && k.port == 0) := rfl
  have hw : (arrives hosted (stageMsg 2 0 1 []) (fun k => k.owner && k.port == 0) && field (stageMsg 2 0 1 []).addr 57 0 == 0 && hosted.dev != .failed) = true := by
    decide +kernel
  simp only [Bool.and_eq_true] at hw
  simp only [fromOwner, hp, ha, hw.1.1, hw.2, show field (stageMsg 2 0 1 im).addr 57 0 = field (stageMsg 2 0 1 []).addr 57 0 from rfl, hw.1.2,
    beq_self_eq_true, Bool.and_true]

end Sys2Proof.Tests
end

