-- ==== Sys2Proof/Tests/WitnessRegisters.lean ====
section
/-! SUPPORT. For the statements about the management registers: states and messages that meet their hypotheses, and there their
conclusions, by evaluation. -/

namespace Sys2Proof.Tests

open Sys2Proof.Machine Sys2Proof.Claim

set_option maxRecDepth 100000
set_option Elab.async false

/-- A REGREAD of n bytes at an address, a REGWRITE of a doubleword at 8n. -/
def regread (c a n : Nat) : Msg := { cmd c (natLe 8 n) with addr := .ofNat 64 (c * 2 ^ 58 + a) }
def regw (c n v : Nat) : Msg := { cmd c (natLe 8 v) with addr := .ofNat 64 (c * 2 ^ 58 + 8 * n) }
def writesReg (s : State) (m : Msg) (n : Nat) : Bool :=
  arrives s m (fun k => k.owner && k.port == 0) && s.dev != .failed && field m.addr 57 32 == 0 && field m.addr 31 0 == 8 * n &&
    (ctxField m == 0 || decide (0x2000 ≤ n)) && m.payload.length == 8

/-- R22, R502: reads of DEVSTATE, the nonce, the error log by any host; of a context's record by the owner; outside the table. -/
theorem witness_RegisterAccesses_reads : every [arrives (notOwner hosted) (regread 0 0 8) (fun k => !(isOwner k)),
    next (.regread (regread 0 0 8)) (notOwner hosted) (fun t => answers (notOwner hosted) t (regread 0 0 8) 0 (natLe 8 4) && nothingDone hosted t),
    next (.regread (regread 0 32 4)) (notOwner hosted) (fun t => answers (notOwner hosted) t (regread 0 32 4) 0 [0, 0, 0, 0]),
    !(anyHost 0x7C8), anyHost 0x7C7, turnsAway (.regread (regread 0 0x7C4 8)) (notOwner hosted) (regread 0 0x7C4 8) 1,
    turnsAway (.regread (regread 0 0x10000 8)) (notOwner hosted) (regread 0 0x10000 8) 1,
    next (.regread (regread 0 0x10040 16)) hosted (fun t => answers hosted t (regread 0 0 0) 0 (natLe 8 bootVa ++ natLe 8 0x200000) && nothingDone hosted t),
    (regByte hosted ownerConn 0 8).isNone, turnsAway (.regread (regread 0 4 8)) hosted (regread 0 4 8) 4,
    writesReg hosted (regw 0 16 250) 16,
    next (.regwrite (regw 0 16 250)) hosted (fun t => answers hosted t (regw 0 0 0) 0 [] && nothingDone hosted t && t.powerCap == 250)] = true := by
  decide +kernel

def feat (v : Nat) : Msg := { cmd 0 (natLe 32 v) with addr := 96 }
def unfeat : State := { hosted with featAccept := 0, featWritten := false }

/-- R24, R25. -/
theorem witness_RegisterAccesses_features : every [arrives unfeat (feat 0x1FF) (fun k => k.owner && k.port == 0),
    turnsAway (.featacceptWrite (feat 1)) hosted (feat 1) 11, turnsAway (.featacceptWrite (feat 0x1FE)) unfeat (feat 0x1FE) 10,
    turnsAway (.featacceptWrite (feat 0x201)) unfeat (feat 0x201) 10, turnsAway (.featacceptWrite (feat (2 ^ 255 + 1))) unfeat (feat (2 ^ 255 + 1)) 10,
    next (.featacceptWrite (feat 0x1FF)) unfeat (fun t => answers unfeat t (feat 0) 0 [] && t.featAccept == 0x1FF && t.featWritten && coresAs unfeat t && t.ports == unfeat.ports)] = true := by
  decide +kernel

/-- GO of an island in its state: to point 5 ON, to OFF. -/
def island (n : Nat) (x : Island) : State := { hosted with islands := setAt {} (List.replicate 40 {}) n x }
def go (n st point : Nat) : Msg := regw 0 (0x20 + n) (1 + 8 * point + 64 * st)
def goes (i : Instr) (n : Nat) (x y : Island) : Bool := next i (island n x) (fun t => answers hosted t (go 0 0 0) 0 [] && coresAs hosted t && t.ctxs == hosted.ctxs &&
  getAt ({} : Island) t.islands n == y && (List.range 40).all (fun j => j == n || getAt ({} : Island) t.islands j == {}))

/-- R32, R33. -/
theorem witness_RegisterAccesses_islands : every [writesReg hosted (go 39 0 5) 0x47,
    goes (.islandGo (go 39 0 5)) 39 {} { reqPoint := 5, busy := true, toPoint := 5 },
    goes (.islandGo (go 0 0 5)) 0 { busy := true } { reqPoint := 5, busy := true, busyGo := true },
    goes (.islandGo (go 36 3 5)) 36 {} { reqSt := 3, reqPoint := 5, result := 3 },
    goes (.islandGo (go 0 3 3)) 0 {} { reqSt := 3, result := 1 }, goes (.islandGo (go 32 3 3)) 32 {} { reqSt := 3, result := 2 }, goes (.islandGo (go 33 3 3)) 33 {} { reqSt := 3, busy := true, toSt := 3 }] = true := by
  decide +kernel

def ports2 (p : Port) : State := { hosted with ports := [getAt {} hosted.ports 0, p] }
def portw (p v : Nat) : Msg := regw 0 (0xE0 + p) v
def portIs (i : Instr) (s : State) (y : Port) : Bool := next i s (fun t => answers s t (portw 1 0) 0 [] && coresAs s t && t.ctxs == s.ctxs &&
  getAt ({} : Port) t.ports 1 == y && getAt ({} : Port) t.ports 0 == getAt {} s.ports 0)

/-- R486, R487. -/
theorem witness_RegisterAccesses_ports : every [writesReg hosted (portw 8 1) 0xE8,
    portIs (.portEnable (portw 1 3)) (ports2 {}) { en := true, maxl := 1, st := .training },
    portIs (.portEnable (portw 1 7)) (ports2 { maxl := 2 }) { en := true, maxl := 2, st := .training },
    portIs (.portEnable (portw 1 1)) { ports2 {} with featAccept := 1 } { en := true },
    portIs (.portEnable (portw 1 1)) (ports2 { st := .up, lanes := 4 }) { en := true, st := .up, lanes := 4 },
    portIs (.portDisable (portw 1 0)) (ports2 { en := true, st := .up, lanes := 4, good := 15 }) { good := 15 },
    next (.portDisable (portw 1 0)) { ports2 { en := true, st := .up } with conns := [ownerConn, { ownerConn with port := 1, owner := false }] } (fun t => t.conns.length == 1),
    next (.portDisable (portw 0 0)) { hosted with ports := hosted.ports.map (fun p => { p with en := true }) } (fun t => t.conns.isEmpty && (getAt ({} : Port) t.ports 0).st == .disabled)] = true := by
  decide +kernel

def dbg (n v : Nat) : Msg := regw 0 n v
def listed (n : Nat) : State := withCtx hosted (fun c => { c with safept := some (0x300000, n) })
def setsBp (i : Instr) (s : State) (m : Msg) (f : Ctx → Ctx) : Bool := setsContext i s m (f (ctxOf s 0))

/-- R509, R330. -/
theorem witness_RegisterAccesses_debug : every [writesReg hosted (dbg 0x2020 0xFF) 0x2020, turnsAway (.debugRegisterWrite (regw 1 0x2020 1)) hosted (regw 1 0x2020 1) 8,
    setsBp (.debugRegisterWrite (dbg 0x2020 0xFFFFFFFF)) hosted (dbg 0x2020 0) (fun c => { c with dbgctl := 0xC1 }),
    setsBp (.debugRegisterWrite (dbg 0x2028 0x8001FFFE)) (listed 65535) (dbg 0 0) (fun c => { c with bp := setAt 0 c.bp 7 0x8000FFFE }),
    turnsAway (.debugRegisterWrite (dbg 0x2021 0x8000FFFF)) (listed 65535) (dbg 0x2021 0) 27, turnsAway (.debugRegisterWrite (dbg 0x2021 0x80000000)) hosted (dbg 0x2021 0) 27,
    setsBp (.debugRegisterWrite (dbg 0x2021 0x00010005)) hosted (dbg 0 0) (fun c => { c with bp := setAt 0 c.bp 0 5 }),
    setsBp (.debugRegisterWrite (dbg 0x2029 0xFFFFFFFFFFFFFFFF)) hosted (dbg 0 0) (fun c => { c with wpbase := setAt 0 c.wpbase 0 0x1FFFFFFFFFFFFFF }),
    setsBp (.debugRegisterWrite (dbg 0x2038 0xFFFFFFFF)) hosted (dbg 0 0) (fun c => { c with wpctl := setAt 0 c.wpctl 7 0xE0FFFFFF }),
    writesReg queued (regw 0 (0x400 + 4 * 2 + 2) 7) 0x40A,
    served (.completionQueueRdWrite (regw 0 0x40A 0x100000007)) queued (regw 0 0x40A 0) (fun t => others queued t 2 && (queueFind t 2).map (fun q => q.rd) == some 7)] = true := by
  decide +kernel

end Sys2Proof.Tests
end

