-- ==== Sys2Proof/Tests/WitnessPackage.lean ====
section
/-! SUPPORT. For the statements about the package, reset, decoding and the step: states that meet their hypotheses, and there their
conclusions, by evaluation. -/

namespace Sys2Proof.Tests

open Sys2Proof.Machine Sys2Proof.Claim

set_option maxRecDepth 100000
set_option Elab.async false

/-! ## The package (R16, R19, R30 to R40, R482, R486, R490, R492, R520) -/

def inDev (d : DevState) : State := { hosted with dev := d }
def port0 (s : State) : Port := getAt {} s.ports 0
def isl (s : State) (n : Nat) : Island := getAt {} s.islands n
def alone : State := { hosted with conns := [] }
def rests (s t : State) : Bool := coresAs s t && t.dev == s.dev && t.ctxs == s.ctxs && t.islands == s.islands

theorem witness_PackageEvents_power : every [
    next .powerInputValid (inDev .powerOff) (fun t => t.dev == .reset && t.conns.isEmpty && t.warps.isEmpty && t.mem.isEmpty && t.ownerKey.isNone && t.errLogWr == 1),
    next .resetRelease State.reset (fun t => t.dev == .selfTest && coresAs State.reset t && (port0 t).st == .training),
    next (.selfTestDone true) (inDev .selfTest) (fun t => t.dev == .unowned && t.ownerKey.isNone && coresAs hosted t && (isl t 39).st == 0 && (isl t 39).point == 3 && t.errLogWr == 1),
    next (.selfTestDone false) (inDev .selfTest) (fun t => t.dev == .failed && coresAs hosted t && t.errLogWr == 2),
    next .powerRemoved (inDev .thermalTrip) (fun t => t.dev == .powerOff && t.warps.isEmpty && t.mem.isEmpty && t.conns.isEmpty),
    next .powerRemoved (inDev .failed) (fun t => t.dev == .powerOff),
    next (.thermalTrip 4) hosted (fun t => t.dev == .thermalTrip && t.warps.isEmpty && t.mem.isEmpty && t.conns.isEmpty && t.errLogWr == 2 && (isl t 0).st == 3 && (isl t 39).st == 3),
    alone.outbox.isEmpty,
    next (.thermalWarning 4 1600) alone (fun t => rests alone t && t.errLogWr == 1 && match t.outbox with
      | [d] => d.op == 0x43 && fr d.payload 0 1 == 4 && fr d.payload 8 4 == 1600
      | _ => false),
    next (.powerCapExceeded 251) { alone with powerCap := 250 } (fun t => rests alone t && match t.outbox with
      | [d] => d.op == 0x44 && fr d.payload 0 4 == 251 && fr d.payload 4 4 == 250
      | _ => false),
    next (.temperatureReport [(0, 900), (12, 17)] 77) hosted (fun t => t.powerIn == 77 && nothingDone hosted t && getAt 0 t.dieTemp 0 == 900 && getAt 0 t.dieTemp 12 == 17),
    next (.energyInterval [⟨39, 5, 7, []⟩]) hosted (fun t => coresAs hosted t && (isl t 39).energy == 12 && (isl t 0).energy == 0 && t.launches == hosted.launches),
    next (.energyInterval [⟨31, 5, 7, [(0, 3, 4)]⟩]) hosted (fun t => coresAs hosted t && t.launches == hosted.launches.map (fun l => { l with energy := 12 }))] = true := by
  decide +kernel

def withConn (k : Conn) : State := { hosted with conns := [k] }
def waiting (n : Nat) : Conn := { ownerConn with unacked := [{ ty := 7, seq := 19 }, { ty := 7, seq := 20, retries := n }] }

theorem witness_PackageEvents_timers : every [
    next (.claimNonceExpiry 0 5) hosted (fun t => nothingDone hosted t && connFind t 0 5 == some { ownerConn with nonceOk := false }),
    next (.retransmitTimeout 0 5) (withConn (waiting 15)) (fun t => nothingDone hosted t &&
      connFind t 0 5 == some { ownerConn with unacked := [{ ty := 7, seq := 19, retries := 1 }, { ty := 7, seq := 20, retries := 16 }] }),
    next (.retransmitTimeout 0 5) (withConn (waiting 16)) (fun t => (connFind t 0 5).isNone),
    next .handoverTimeout { inDev .handover with successor := some [1] } (fun t => t.dev == .owned && t.successor.isNone && coresAs hosted t && t.conns == hosted.conns)] = true := by
  decide +kernel

def turning (n st : Nat) (more : Bool) : State := { island n { busy := true, toSt := st, toPoint := 5, busyGo := more } with
  l1 := [{ owner := 31, wa := 7, st := .valid, val := 9 }, { owner := 32, wa := 7, st := .valid, val := 9 }]
  slices := (List.range 8).map (fun k => { wa := pa0 / 4 + 1024 * k, val := 9, dirty := true })
  views := [{ viewOf 2 1 { word := 6 } with core := some 5 }, { viewOf 2 2 { word := 6 } with core := some 32 }] }

theorem witness_PackageEvents_islands : every [
    next (.islandTransitionDone 39) (turning 39 0 true) (fun t => isl t 39 == { point := 5, toPoint := 5, result := 4 } && coresAs (turning 39 0 true) t),
    next (.islandTransitionDone 0) (turning 0 2 false) (fun t => isl t 0 == { st := 2, point := 5, toSt := 2, toPoint := 5 } && coresAs (turning 0 2 false) t),
    next (.islandTransitionDone 0) (turning 0 3 false) (fun t => (isl t 0).st == 3 && t.mem == hosted.mem && t.ctxs == hosted.ctxs && t.l1.map (fun e => e.owner) == [32] &&
      t.slices == (turning 0 3 false).slices.filter (fun e => sliceOf (turning 0 3 false) (4 * e.wa) / 8 != 0) && t.views.map (fun v => v.val) == [{}, { word := 6 }])] = true := by
  decide +kernel

def trains (i : Instr) (x y : Port) : Bool := next i (ports2 x) (fun t => coresAs hosted t && t.ctxs == hosted.ctxs && t.conns == hosted.conns &&
  getAt ({} : Port) t.ports 1 == y && port0 t == port0 hosted)
def faded (n : Nat) : State := { hosted with piste := [(7, 0, 1, n, false)] }

theorem witness_PackageEvents_ports : every [
    trains (.portTrainingDone 1 0xFE) { st := .training } { st := .up, good := 0xFE, lanes := 4 },
    trains (.portTrainingDone 1 0xFF) { st := .training, maxl := 2 } { st := .up, maxl := 2, good := 0xFF, lanes := 2 },
    trains (.portTrainingTimeout 1) { st := .training, lanes := 4 } { st := .down }, trains (.portRetrain 1) { st := .down } { st := .training },
    trains (.laneRestore 1 0xFF) { st := .up, lanes := 4, good := 0x0F } { st := .up, lanes := 8, good := 0xFF },
    trains (.laneFailure 1 7) { st := .up, lanes := 8, good := 0xFF } { st := .up, lanes := 4, good := 0x7F, degrade := 1 },
    trains (.laneFailure 1 0) { st := .up, lanes := 2, good := 0x03 } { st := .down, good := 0x02 },
    next (.laneRestore 0 0xFF) hosted (fun _ => false) == false,
    neighbours 0 1, next (.pisteBeatCrcFail 7 0 1) hosted (fun t => t.piste.contains (7, 0, 1, 1, false) && coresAs hosted t && t.errLogWr == 0),
    next (.pisteBeatCrcFail 7 0 1) (faded 15) (fun t => t.piste.contains (7, 0, 1, 16, true) && coresAs hosted t && t.errLogWr == 1)] = true := by
  decide +kernel

/-- A word of context 0 in the L1 of core 0; a line dirty in its home's L2. -/
def wordOn0 (st : L1St) : State := { hosted with l1 := [{ owner := 0, wa := pa0 / 4, st := st, val := 9, mask := 15 }], slices := [{ wa := pa0 / 4, st := .registered, owner := 0, ctx := 0 }] }
def dirty (d : Bool) : State := { hosted with slices := [{ wa := pa0 / 4, st := .home, val := 9, dirty := d }] }

/-- Replicas of die 3: of another line, on another die, and two of the line. -/
def replicas : State := { hosted with l1 :=
  [{ owner := l2Owner 3, wa := pa0 / 4 + 16, st := .valid, val := 9 }, { owner := l2Owner 2, wa := pa0 / 4, st := .valid, val := 9 },
   { owner := l2Owner 3, wa := pa0 / 4, st := .valid, val := 9 }, { owner := l2Owner 3, wa := pa0 / 4 + 15, st := .valid, val := 9 }] }

theorem witness_PackageEvents_failures : every [
    next (.coreFailure 0) hosted (fun t => t.fenced.contains 0 && t.warps.all (fun w => !(standsOn 0 w)) && (ctxOf t 0).st == .faulted &&
      fr (ctxOf t 0).faultrec 1 1 == causeCode .hardware),
    next (.uncorrectableSoftError (.l1Word 0 pa0)) (wordOn0 .valid) (fun t => t.l1.isEmpty && t.ctxs == hosted.ctxs && t.slices == (wordOn0 .valid).slices && t.mem == hosted.mem),
    next (.uncorrectableSoftError (.l1Word 0 pa0)) (wordOn0 .registered) (fun t => t.l1.isEmpty && (ctxOf t 0).st == .faulted && fr (ctxOf t 0).faultrec 1 1 == causeCode .ownerLost &&
      cohWord t (pa0 / 4) == memWord hosted.mem (pa0 / 4) && t.errLogWr == 1),
    next (.uncorrectableSoftError (.replica 3 pa0)) replicas (fun t => t.l1 == replicas.l1.take 2 && t.mem == hosted.mem && t.ctxs == hosted.ctxs && t.retired.isEmpty),
    next (.uncorrectableSoftError (.l2Line pa0 3)) (dirty false) (fun t => t.warps == hosted.warps && t.slices.isEmpty && (ctxOf t 0).st == (ctxOf hosted 0).st && t.retired.isEmpty &&
      cohBytes t pa0 4 == cohBytes (dirty false) pa0 4),
    next (.patrolScrub ⟨[(39, 7)], [], []⟩) hosted (fun t => coresAs hosted t && (isl t 39).soft == 7 && (isl t 0).soft == 0),
    next (.patrolScrub ⟨[], [(1, 2, 3), (1, 2, 3)], []⟩) { hosted with rows := [(1, 2, 4)] } (fun t => coresAs hosted t && t.rows == [(1, 2, 3), (1, 2, 4)] && t.errLogWr == 1)] = true := by
  decide +kernel

/-- R39: a dirty line, a registered word's line, a word of an L1 that is PENDING and a line of HBM are lost. What the lost word then reads as is
free, so that of the line the hypotheses are met, and the loss, before the word takes its value. -/
theorem witness_PackageEvents_lost : every [isMemory pa0,
    dirtyWords (dirty true) (pa0 / 64) == [pa0 / 4], dirtyWords (wordOn0 .registered) (pa0 / 64) == [pa0 / 4], (mappers (dirty true) pa0).contains 0,
    (mappers (wordOn0 .registered) pa0).contains 0, (ctxOf hosted 0).st == .running,
    (let t := dataLost (dirty true) 0xFF pa0; t.retired == [pa0 / 4096] && t.warps == hosted.warps && (ctxOf t 0).st == .faulted),
    next (.uncorrectableSoftError (.l1Word 0 pa0)) (wordOn0 .pending) (fun t => t.retired == [pa0 / 4096] && t.warps == hosted.warps && t.mem == hosted.mem &&
      t.slices == (wordOn0 .pending).slices && (ctxOf t 0).st == .faulted && t.l1.map (fun y => { y with val := 9 }) == (wordOn0 .pending).l1),
    next (.uncorrectableSoftError (.hbm pa0)) (wordOn0 .registered) (fun t => t.retired == [pa0 / 4096] && (ctxOf t 0).st == .faulted && t.slices == (wordOn0 .registered).slices),
    next (.uncorrectableSoftError (.hbm pa0)) (dirty true) (fun t => t.retired == [pa0 / 4096] && t.warps == hosted.warps && t.slices == (dirty true).slices && (ctxOf t 0).st == .faulted)] = true := by
  decide +kernel

/-! ## Reset, decoding, the step -/

/-- R72 to R99: instructions of each length with their fields at the ends of their ranges, and one that an encoding cannot say. -/
theorem witness_EncodeDecode : every ([Instr.iadd { g0 with stop := true } ⟨55, 0, 55, false, true⟩, .imad gc ⟨55, 0, 55, false, false⟩, .icmp g1 ⟨15, 0, 55, false, false, 5⟩,
    .iaddC ⟨7, 7, true⟩, .wait 0xFFF, .bra g0 ⟨15, true, 0xFFFF⟩, .smovi g0 ⟨63, 0⟩, .ld (gm 15 true) ⟨55, 0, 55, false, true, 0, 0⟩].map (fun i =>
      wellFormed i && !(encode i).isEmpty) ++ [!(wellFormed (.iadd g0 ⟨57, 0, 0, false, false⟩))]) = true := by
  decide +kernel

/-- A machine whose slot 0 issues the bytes of a group next, in its turn or by the agenda. -/
def runsNext (bs : List Byte) (a : List Act) : State := { booted State.reset bs with agenda := a }
def stepTo (s : State) (f : State → Bool) : Bool := match step s with | .next t => f t | _ => false
def chosen (s s0 : State) (slot : Nat) (i : Instr) (f : State → Warp → LaneMask → State → Warp → Bool) : Bool :=
  let n := nextCycle s0 slot (candidates s0 slot)
  let s1 := { idleTo s0 slot n with slotNow := slot + 1 }
  s.warps.all (fun v => !(inChain s v)) && match choose (idleTo s0 slot n) slot ((candidates s0 slot).filter (fun v => decide (dueAt s0 v ≤ n))) with
  | some w => w.deferred.isEmpty && !w.marked && match chosenSplit s1 w with
    | some p => match fetchBytes s1 w 3 .start (((ctxOf s w.ctx).codebase.toNat / 16 * 16 + (pcOf w p).toNat) % 2 ^ 64) with
      | .ok bs => good (decode bs) (fun j => j == i) && match exec i { s1 with issue := some ⟨w.ctx, w.num, p, none⟩ } with
        | .next t => t.issue.isNone && (warpFind t w.ctx w.num).any (fun v => completed w v && f s1 w p t v)
        | _ => false
      | .error _ => false
    | none => false
  | none => false

def add123 : Instr := .iadd g1 ⟨1, 2, 3, false, false⟩

/-- Half of the warp stands at the first group, half at the second. -/
def halves (a : List Act) : State :=
  withWarp (runsNext [0x83, 0x40, 0x18, 0x20, 0x83, 0x40, 0x18, 0x20] a) (fun w => { w with pc := List.replicate 16 0 ++ List.replicate 16 4 })

def lfree0 : Instr := .lfree g0 ⟨0, false, 0⟩
def readsX : Instr := .iadd g0 ⟨1, 56, 3, false, false⟩

/-- R117, R118: the two splits issue as a pair. -/
theorem witness_StepRunsDecoded_pair : every [
    chosen (halves [.issue 0]) (halves []) 0 add123 (fun s1 w p t v => (overrun s1 w t).isNone && secondOf s1 w p add123 v.now == some (0xFFFF0000, add123) &&
      next add123 { t with issue := some ⟨0, 0, 0xFFFF0000, some (prepared s1 w p add123)⟩ } (fun u => u.issue.isNone)),
    stepTo (halves [.issue 0]) (fun t => (w0 t).pc == List.replicate 16 4 ++ List.replicate 16 8)] = true := by
  decide +kernel

/-- R154: a group that closes its chain, and after it one that reads a latch. -/
def overrunning (a : List Act) : State := runsNext (encode lfree0 ++ encode readsX) a
theorem witness_StepRunsDecoded_overrun : chosen (overrunning [.issue 0]) (overrunning []) 0 lfree0 (fun s1 w _ t _ =>
    (overrun s1 w t).any (fun u => u.issue.isSome && (ctxOf u 0).st == .faulted && fr (ctxOf u 0).faultrec 1 1 == causeCode .latchChain)) = true := by
  decide +kernel

/-- R113, R117: the group issues, by the agenda and in its turn. -/
theorem witness_StepRunsDecoded : every [
    chosen (runsNext [0x83, 0x40, 0x18, 0x20] [.issue 0]) (runsNext [0x83, 0x40, 0x18, 0x20] []) 0 add123
      (fun s1 w p t v => (overrun s1 w t).isNone && (secondOf s1 w p add123 v.now).isNone),
    stepTo (runsNext [0x83, 0x40, 0x18, 0x20] [.issue 0]) (fun t => (w0 t).pc == List.replicate 32 4 && t.tick == 1),
    nextSlot (runsNext [0x83, 0x40, 0x18, 0x20] []) (readySlots (runsNext [0x83, 0x40, 0x18, 0x20] [])) == some 0,
    stepTo (runsNext [0x83, 0x40, 0x18, 0x20] []) (fun t => (w0 t).pc == List.replicate 32 4 && t.turn),
    stepTo { hosted with agenda := [.ev (.claimNonceExpiry 0 5)] } (fun t => (connFind t 0 5).map (fun k => k.nonceOk) == some false && t.agenda.isEmpty),
    stepTo { hosted with agenda := [.ev .handoverTimeout] } (fun t => t.dev == .owned && t.agenda.isEmpty)] = true := by
  decide +kernel

theorem witness_StepKeepsMemoryForm : every [Memory.wf (booted State.reset [1, 2]).mem, (booted State.reset [1, 2]).blocks.all (fun b => Memory.wf b.scr),
    stepTo (booted State.reset [0x83, 0x40, 0x18, 0x20]) (fun t => Memory.wf t.mem)] = true := by
  decide +kernel

end Sys2Proof.Tests
end

section
/-! SUPPORT. FMIN and FMAX (R57): the model compares exact values, the statement compares codes. A binary32 code without its sign
orders as its value does, so both orders are the order of signed codes. -/

namespace Sys2Proof.Machine

open Sys2Proof.Claim

/-! ## Codes and values -/

/-- Bit 31 of a binary32 word: the number is negative. -/
def signBit (a : Word) : Bool := decide (2 ^ 31 ≤ a.toNat)

/-- The code of a binary32 word without its sign. -/
def magCode (a : Word) : Nat := a.toNat % 2 ^ 31

/-- A magnitude with a sign; −0 is 0. -/
def withSign (neg : Bool) (n : Nat) : Int := if neg then -(n : Int) else n

/-- The value of an unsigned binary32 code in units of 2^−149; the code of infinity takes the value that is next in the row. -/
def codeUnits (n : Nat) : Nat :=
  if n / 2 ^ 23 = 0 then n % 2 ^ 23 else (2 ^ 23 + n % 2 ^ 23) * 2 ^ (n / 2 ^ 23 - 1)

theorem toNat_eq_magCode (a : Word) : a.toNat = magCode a + (if signBit a then 2 ^ 31 else 0) := by
  have := a.isLt
  simp only [magCode, signBit, decide_eq_true_eq]
  split <;> omega

theorem isNumber_iff (a : Word) : isNumber a = true ↔ magCode a ≤ 0x7F800000 := decide_eq_true_iff

theorem fval_signBit (a : Word) : (a.toNat / 2 ^ (fp32.eb + fp32.mb) % 2 == 1) = signBit a := by
  have := a.isLt
  simp only [signBit, fp32, Bool.beq_eq_decide_eq]
  exact decide_eq_decide.2 (by omega)

theorem fv_nan {a : Word} (h : 0x7F800000 < magCode a) : fv a = .nan := by
  have h' : 0x7F800000 < a.toNat % 2147483648 := h
  simp [fv, fval, fp32, show 2139095039 < a.toNat % 2147483648 by omega, show a.toNat % 2147483648 ≠ 2139095040 by omega]

theorem fv_inf {a : Word} (h : magCode a = 0x7F800000) : fv a = .inf (signBit a) := by
  have h' : a.toNat % 2147483648 = 2139095040 := h
  rw [← fval_signBit]
  simp [fv, fval, fp32, h']

/-- The value of a finite code: a significand and an exponent at or above that of the subnormals, whose product counts
`codeUnits`. -/
theorem fv_fin {a : Word} (h : magCode a < 0x7F800000) :
    ∃ (m : Nat) (e : Int), fv a = .fin (signBit a) m e ∧ -149 ≤ e ∧ m * 2 ^ (e + 149).toNat = codeUnits (magCode a) := by
  have hm : ¬ fp32.max < a.toNat % 2 ^ (fp32.eb + fp32.mb) := by
    have : a.toNat % 2147483648 < 2139095040 := h
    simp only [fp32]; omega
  by_cases he : magCode a / 2 ^ 23 = 0
  · refine ⟨magCode a % 2 ^ 23, fp32.qmin, ?_, by decide, by rw [codeUnits, if_pos he]; exact Nat.mul_one _⟩
    unfold fv fval
    rw [fval_signBit, if_neg hm]
    exact if_pos he
  · refine ⟨2 ^ 23 + magCode a % 2 ^ 23, fp32.qmin + ((magCode a / 2 ^ 23 : Nat) - 1), ?_, ?_, ?_⟩
    · unfold fv fval
      rw [fval_signBit, if_neg hm]
      exact if_neg he
    · simp only [FFmt.qmin, fp32]; omega
    · rw [codeUnits, if_neg he]
      congr 2
      simp only [FFmt.qmin, fp32]; omega

@[simp] theorem isNan_fv (a : Word) : isNan (fv a) = !isNumber a := by
  rcases Nat.lt_trichotomy (magCode a) 0x7F800000 with h | h | h
  · obtain ⟨m, e, hv, -⟩ := fv_fin h
    rw [hv, (isNumber_iff a).2 h.le]; rfl
  · rw [fv_inf h, (isNumber_iff a).2 h.le]; rfl
  · have : isNumber a = false := by rw [Bool.eq_false_iff, ne_eq, isNumber_iff]; omega
    rw [fv_nan h, this]; rfl

theorem signOf_fv {a : Word} (h : isNumber a = true) : signOf (fv a) = signBit a := by
  rcases ((isNumber_iff a).1 h).lt_or_eq with h | h
  · obtain ⟨m, e, hv, -⟩ := fv_fin h
    rw [hv]; rfl
  · rw [fv_inf h]; rfl

/-! ## The order of codes is the order of values -/

theorem codeUnits_strictMono : StrictMono codeUnits := by
  refine strictMono_nat_of_lt_succ fun n => ?_
  have hn := Nat.div_add_mod n (2 ^ 23)
  by_cases hc : n % 2 ^ 23 + 1 = 2 ^ 23
  · have hd : (n + 1) / 2 ^ 23 = n / 2 ^ 23 + 1 := by omega
    have hr : (n + 1) % 2 ^ 23 = 0 := by omega
    rcases hk : n / 2 ^ 23 with _ | k
    · simp only [codeUnits, hd, hr, hk, if_true, Nat.zero_add, Nat.one_ne_zero, if_false]; omega
    · have : 0 < 2 ^ k := by positivity
      simp only [codeUnits, hd, hr, hk, Nat.add_sub_cancel, Nat.succ_ne_zero, if_false, pow_succ 2 k]
      nlinarith
  · have hd : (n + 1) / 2 ^ 23 = n / 2 ^ 23 := by omega
    have hr : (n + 1) % 2 ^ 23 = n % 2 ^ 23 + 1 := by omega
    simp only [codeUnits, hd, hr]
    split
    · exact Nat.lt_succ_self _
    · exact Nat.mul_lt_mul_of_pos_right (by omega) (by positivity)

theorem codeUnits_zero : codeUnits 0 = 0 := rfl

theorem withSign_codeUnits_lt (p q : Bool) (m n : Nat) :
    withSign p (codeUnits m) < withSign q (codeUnits n) ↔ withSign p m < withSign q n := by
  have hlt := @codeUnits_strictMono.lt_iff_lt
  have hz (k : Nat) : 0 < codeUnits k ↔ 0 < k := by simpa [codeUnits_zero] using hlt (a := 0) (b := k)
  cases p <;> cases q <;> simp only [withSign, Bool.false_eq_true, if_true, if_false]
  · exact_mod_cast hlt
  · omega
  · have := hz m; have := hz n; omega
  · simpa using hlt

theorem toUnits_eq_withSign (neg : Bool) (m : Nat) (e q : Int) : toUnits neg m e q = withSign neg (m * 2 ^ (e - q).toNat) := rfl

theorem withSign_mul_pos (neg : Bool) (n k : Nat) : withSign neg (n * k) = withSign neg n * k := by
  cases neg <;> simp [withSign]

/-- A magnitude in units of 2^−149, from its number of coarser units. -/
theorem toUnits_rescale (neg : Bool) (m : Nat) {e q : Int} (hq : -149 ≤ q) (he : q ≤ e) :
    withSign neg (m * 2 ^ (e + 149).toNat) = toUnits neg m e q * ((2 ^ (q + 149).toNat : Nat) : Int) := by
  rw [toUnits_eq_withSign, ← withSign_mul_pos, Nat.mul_assoc, ← pow_add]
  congr 3
  omega

theorem ltVal_fin (p q : Bool) (m n : Nat) {e g : Int} (he : -149 ≤ e) (hg : -149 ≤ g) :
    ltVal (.fin p m e) (.fin q n g) = decide (withSign p (m * 2 ^ (e + 149).toNat) < withSign q (n * 2 ^ (g + 149).toNat)) := by
  have hmin : -149 ≤ min e g := le_min he hg
  rw [toUnits_rescale p m hmin (min_le_left e g), toUnits_rescale q n hmin (min_le_right e g)]
  have hpos : (0 : Int) < ((2 ^ (min e g + 149).toNat : Nat) : Int) := by positivity
  simp only [ltVal, mul_lt_mul_iff_left₀ hpos]

/-- The model's order of two numbers is the order of their signed codes. -/
theorem ltVal_fv {a b : Word} (ha : isNumber a = true) (hb : isNumber b = true) :
    ltVal (fv a) (fv b) = decide (withSign (signBit a) (magCode a) < withSign (signBit b) (magCode b)) := by
  rcases ((isNumber_iff a).1 ha).lt_or_eq with ha | ha <;> rcases ((isNumber_iff b).1 hb).lt_or_eq with hb | hb
  · obtain ⟨m, e, hva, he, hma⟩ := fv_fin ha
    obtain ⟨n, g, hvb, hg, hnb⟩ := fv_fin hb
    rw [hva, hvb, ltVal_fin _ _ _ _ he hg, hma, hnb]
    simp only [withSign_codeUnits_lt]
  · obtain ⟨m, e, hva, -⟩ := fv_fin ha
    rw [hva, fv_inf hb, hb]
    cases signBit a <;> cases signBit b <;> simp [ltVal, withSign] <;> omega
  · obtain ⟨n, g, hvb, -⟩ := fv_fin hb
    rw [fv_inf ha, hvb, ha]
    cases signBit a <;> cases signBit b <;> simp [ltVal, withSign] <;> omega
  · rw [fv_inf ha, fv_inf hb, ha, hb]
    cases signBit a <;> cases signBit b <;> simp [ltVal, withSign]

/-! ## FMIN and FMAX on words -/

theorem valueKey_eq (a : Word) : valueKey a = withSign (signBit a) (magCode a) - (if signBit a then 1 else 0) := by
  have hn := toNat_eq_magCode a
  have hm : magCode a < 2 ^ 31 := Nat.mod_lt _ (by decide)
  unfold valueKey
  cases h : signBit a <;> simp [h, withSign] at hn ⊢ <;> omega

/-- Two nonnegative words whose signed codes agree are the same word; so are two negative ones. -/
theorem eq_of_withSign_eq {a b : Word} (hs : signBit a = signBit b)
    (h : withSign (signBit a) (magCode a) = withSign (signBit b) (magCode b)) : a = b := by
  apply BitVec.eq_of_toNat_eq
  rw [toNat_eq_magCode a, toNat_eq_magCode b, ← hs]
  rw [← hs] at h
  cases hb : signBit a <;> simp [hb, withSign] at h <;> rw [h]

theorem valueKey_lt_of_withSign_lt {a b : Word} (h : withSign (signBit a) (magCode a) < withSign (signBit b) (magCode b)) :
    valueKey a < valueKey b := by
  rw [valueKey_eq, valueKey_eq]
  cases ha : signBit a <;> cases hb : signBit b <;> simp [ha, hb, withSign] at h ⊢ <;> omega

/-- The model's choice between two results goes by the value order with −0 below +0. -/
theorem ltVal_choice {a b p q : Word} (ha : isNumber a = true) (hb : isNumber b = true) (hpq : a = b → p = q) :
    (if ltVal (fv a) (fv b) then p else if ltVal (fv b) (fv a) then q else if signOf (fv a) then p else q) =
      if valueKey a ≤ valueKey b then p else q := by
  rw [ltVal_fv ha hb, ltVal_fv hb ha, signOf_fv ha]
  rcases lt_trichotomy (withSign (signBit a) (magCode a)) (withSign (signBit b) (magCode b)) with h | h | h
  · simp [h, (valueKey_lt_of_withSign_lt h).le]
  · have hkey : valueKey a ≤ valueKey b ↔ (if signBit b then 1 else 0 : Int) ≤ if signBit a then 1 else 0 := by
      rw [valueKey_eq, valueKey_eq, h]; omega
    by_cases hs : signBit a = signBit b
    · simp [hpq (eq_of_withSign_eq hs h)]
    · have hsb : signBit b = !signBit a := Bool.eq_not.2 (Ne.symm hs)
      simp only [h, lt_irrefl, decide_false, Bool.false_eq_true, if_false, hkey, hsb]
      cases signBit a <;> simp
  · simp [h, h.le, (valueKey_lt_of_withSign_lt h).not_ge]

theorem fminOp_eq (a b : Word) : fminOp a b = numberOr (fun a b => if valueKey a ≤ valueKey b then a else b) a b := by
  unfold fminOp numberOr
  rw [isNan_fv, isNan_fv]
  cases ha : isNumber a <;> cases hb : isNumber b
  case true.true => exact ltVal_choice ha hb id
  all_goals rfl

theorem fmaxOp_eq (a b : Word) : fmaxOp a b = numberOr (fun a b => if valueKey a ≤ valueKey b then b else a) a b := by
  unfold fmaxOp numberOr
  rw [isNan_fv, isNan_fv]
  cases ha : isNumber a <;> cases hb : isNumber b
  case true.true => exact ltVal_choice ha hb Eq.symm
  all_goals rfl

/-! ## The instructions -/

theorem laneOut_isLaneOut (s : State) (x : Iss) (d : BitVec 6) (f : Nat → Word) : LaneOut x s (laneOut s x d f) d f := by
  unfold laneOut
  by_cases h : d = 60
  · rw [if_pos h]
    exact ⟨rfl, rfl, .inl ⟨h, rfl, rfl⟩, ⟨rfl, rfl, rfl⟩, ⟨rfl, rfl⟩⟩
  · rw [if_neg h]
    exact ⟨rfl, rfl, .inr ⟨h, rfl⟩, ⟨rfl, rfl, rfl⟩, ⟨rfl, rfl⟩⟩

theorem laneOut_warp (s : State) (x : Iss) (d : BitVec 6) (f : Nat → Word) :
    (laneOut s x d f).w = x.w ∧ (laneOut s x d f).flags = 0 := by
  unfold laneOut
  split <;> exact ⟨rfl, rfl⟩

/-- A meaning that answers with a lane result completes, sets no flag and keeps the rest of the warp. -/
theorem laneOut_completes {i : Instr} {s s1 : State} {sh : Shape} {x : Iss} {sem : State → Iss → Res} {d : BitVec 6}
    {f : Nat → Word} (h : Issued i s sh s1 x) (ho : sem s1 x = .ok (laneOut s1 x d f)) :
    ∃ t w', issueAs s i sem = .next t ∧ Completes sh x s1 t w' [d.toNat] [] [] 0 ∧ KeepsRest x w' ∧ LaneResult sh x w' d f := by
  have hl := laneOut_isLaneOut s1 x d f
  obtain ⟨hw, hfl⟩ := laneOut_warp s1 x d f
  obtain ⟨t, w', ht, hc, hr, hs⟩ := lane_completes h ho hl
  refine ⟨t, w', ht, hfl ▸ hc, keepsRest_of hs ?_ ?_ hl.stay, hr⟩
  · rw [hw]
  · rw [hw]

/-- A lane instruction of two sources in format A completes with its function of the lanes of a and b (R155). -/
theorem lane2_completes {i : Instr} {s s1 : State} {sh : Shape} {x : Iss} {o : OpsA} (f : Word → Word → Word)
    (h : Issued i s sh s1 x) (hb : x.c.body = .A o) :
    ∃ t w', issueAs s i (lane2 f) = .next t ∧ Completes sh x s1 t w' [o.d.toNat] [] [] 0 ∧ KeepsRest x w' ∧
      LaneResult sh x w' o.d (fun l => f (lane (x.v o.a) l) (lane (x.v o.b) l)) :=
  laneOut_completes h (by simp only [lane2, hb])

/-- FMIN and FMAX, in full and in the short form, issue as lane instructions of R57's function. -/
theorem exec_extremum {i : Instr} {f : Word → Word → Word} (hf : extremum i = some f) (s : State) :
    exec i s = issueAs s i (lane2 f) := by
  have hmin := funext₂ fminOp_eq
  have hmax := funext₂ fmaxOp_eq
  unfold extremum at hf
  split at hf
  case h_1 | h_2 => rw [← Option.some.inj hf, ← hmin]; rfl
  case h_3 | h_4 => rw [← Option.some.inj hf, ← hmax]; rfl
  case h_5 => exact absurd hf (by simp)

/-- Settles O4: the model orders exact values, and a number's signed code orders as its value does, so that the model's choice is
the one of the value order; the completion is that of any lane instruction of two sources. -/
theorem minimumAndMaximum : Obligations.MinimumAndMaximum := by
  intro i f hf s s1 sh x o hi hb
  rw [exec_extremum hf]
  exact lane2_completes f hi hb

end Sys2Proof.Machine
end

section
/-! SUPPORT. A cause that no handler takes (R306, R316, R317, R321, R506): the fields of its fault record, what the context-level
fault leaves of the state, and when a raised cause ends in it. -/

namespace Sys2Proof.Machine

open Sys2Proof.Claim

/-! ## Fields of a record -/

@[simp] theorem length_natLe (k n : Nat) : (natLe k n).length = k := by
  induction k generalizing n with
  | zero => rfl
  | succ k ih => simp [natLe, ih]

theorem leNat_natLe (k n : Nat) : leNat (natLe k n) = n % 256 ^ k := by
  induction k generalizing n with
  | zero => simp [natLe, leNat, Nat.mod_one]
  | succ k ih =>
    have hbyte : (BitVec.ofNat 8 n).toNat = n % 256 := BitVec.toNat_ofNat n 8
    rw [natLe, leNat, ih, hbyte, pow_succ', Nat.mod_mul]

/-- The field at the start of a record. -/
theorem fr_natLe (k n : Nat) (bs : List Byte) : fr (natLe k n ++ bs) 0 k = n % 256 ^ k := by
  rw [fr, List.drop_zero, List.take_left' (length_natLe k n), leNat_natLe]

/-- A field behind another one. -/
theorem fr_natLe_append {j off : Nat} (h : j ≤ off) (m k : Nat) (bs : List Byte) :
    fr (natLe j m ++ bs) off k = fr bs (off - j) k := by
  rw [fr, fr, List.drop_append, List.drop_eq_nil_of_le (by simpa using h), List.nil_append, length_natLe]

theorem fr_cons (b : Byte) (bs : List Byte) (off k : Nat) : fr (b :: bs) (off + 1) k = fr bs off k := rfl

theorem causeCode_lt (k : Cause) : causeCode k < 256 := by cases k <;> decide

section FaultRecord

variable (s : State) (c : Nat) (k : Cause) (core warp : Nat) (addr : DWord)

theorem faultRecord_ctx : fr (faultRecord s c k (some core) (some warp) addr) 0 1 = c % 256 := by
  simp [faultRecord, fr_natLe]

theorem faultRecord_cause : fr (faultRecord s c k (some core) (some warp) addr) 1 1 = causeCode k := by
  simp [faultRecord, fr_natLe_append, fr_natLe, Nat.mod_eq_of_lt (causeCode_lt k)]

theorem faultRecord_core : fr (faultRecord s c k (some core) (some warp) addr) 4 4 = core % 2 ^ 32 := by
  simp [faultRecord, fr_natLe_append, fr_cons, fr_natLe]

theorem faultRecord_warp : fr (faultRecord s c k (some core) (some warp) addr) 8 4 = warp % 2 ^ 32 := by
  simp [faultRecord, fr_natLe_append, fr_cons, fr_natLe]

theorem faultRecord_addr : fr (faultRecord s c k (some core) (some warp) addr) 16 8 = addr.toNat := by
  simp [faultRecord, fr_natLe_append, fr_cons, fr_natLe, Nat.mod_eq_of_lt addr.isLt]

end FaultRecord

/-! ## The context-level fault -/

@[simp] theorem ctxOf_devSend (s : State) (op : BitVec 8) (bs : List Byte) (c : Nat) : ctxOf (devSend s op bs) c = ctxOf s c := by
  obtain ⟨-, -, -, -, -, hctxs, -⟩ := devSend_frame s op bs
  rw [ctxOf, hctxs, ctxOf]

@[simp] theorem warps_devSend (s : State) (op : BitVec 8) (bs : List Byte) : (devSend s op bs).warps = s.warps :=
  (devSend_frame s op bs).1

@[simp] theorem cohByte_devSend (s : State) (op : BitVec 8) (bs : List Byte) (a : Nat) :
    cohByte (devSend s op bs) a = cohByte s a := by
  obtain ⟨-, hmem, hslices, hl1, hnet, -⟩ := devSend_frame s op bs
  exact cohByte_congr hmem hslices hl1 hnet a

@[simp] theorem cohByte_setCtx (s : State) (c : Nat) (x : Ctx) (a : Nat) : cohByte (setCtx s c x) a = cohByte s a :=
  cohByte_congr rfl rfl rfl rfl a

@[simp] theorem cohByte_setWarp (s : State) (w : Warp) (a : Nat) : cohByte (setWarp s w) a = cohByte s a :=
  cohByte_congr rfl rfl rfl rfl a

/-- The first context-level cause of a context that runs or is halted: the state and the record (R306, R506), the warps where they
stand (assumption 104, DEDUCED), memory untouched. -/
theorem ctxFault_first {s : State} {c : Nat} (k : Cause) (core warp : Option Nat) (addr : DWord)
    (h : (ctxOf s c).st = .running ∨ (ctxOf s c).st = .halted) :
    (ctxOf (ctxFault s c k core warp addr) c).st = .faulted ∧
    (ctxOf (ctxFault s c k core warp addr) c).faultrec = faultRecord s c k core warp addr ∧
    (ctxFault s c k core warp addr).warps = s.warps ∧
    ∀ a, cohByte (ctxFault s c k core warp addr) a = cohByte s a := by
  rcases h with h | h <;> simp [ctxFault, h]

/-- A warp's context-level fault: the warps stand as they stood, but for the warp of a cause that is past its group (assumption
109, DEDUCED). -/
theorem faultAt_first {s : State} {w : Warp} (k : Cause) (t : TrapInfo)
    (h : (ctxOf s w.ctx).st = .running ∨ (ctxOf s w.ctx).st = .halted) :
    ∃ s', (ctxOf (faultAt s w k t) w.ctx).st = .faulted ∧
      (ctxOf (faultAt s w k t) w.ctx).faultrec = faultRecord s' w.ctx k (some w.core) (some w.num) t.faddr ∧
      (faultAt s w k t).warps = (if t.skip = 0 then s.warps else (setWarp s (pastTrap w t)).warps) ∧
      ∀ a, cohByte (faultAt s w k t) a = cohByte s a := by
  unfold faultAt
  by_cases hskip : t.skip = 0
  · simp only [if_pos hskip]
    exact ⟨s, ctxFault_first k _ _ _ h⟩
  · simp only [if_neg hskip]
    obtain ⟨hst, hrec, hwarps, hmem⟩ := ctxFault_first k (some w.core) (some w.num) t.faddr (s := setWarp s (pastTrap w t)) h
    exact ⟨_, hst, hrec, hwarps, fun a => (hmem a).trans (cohByte_setWarp s _ a)⟩

/-! ## A cause that no handler takes -/

/-- No handler takes a cause and no debugger halts on it (R316, R317, R321). -/
def NoHandlerTakes (s : State) (w : Warp) (k : Cause) : Prop :=
  w.inHandler = true ∨ causeClass k = none ∨
    ∃ cls, causeClass k = some cls ∧ (cls ≠ 5 ∨ (ctxOf s w.ctx).dbgctl.getLsbD 0 = false) ∧
      (ctxOf s w.ctx).trapctl.getLsbD cls = false

/-- A cause that no handler takes is the warp's context-level fault, as DOUBLE_TRAP in the handler. -/
theorem raiseAt_eq_faultAt {s : State} {w : Warp} {t : TrapInfo} (pc : BitVec 32) (h : NoHandlerTakes s w t.cause) :
    raiseAt s w t pc = faultAt s w (if w.inHandler then .doubleTrap else t.cause) t := by
  unfold raiseAt
  by_cases hin : w.inHandler = true
  · simp only [hin, if_true]
  · rcases h with h | hnone | ⟨cls, hcls, hdbg, htrap⟩
    · exact absurd h hin
    · simp [hin, hnone]
    · have hhalt : ¬ (causeClass t.cause = some 5 ∧ (ctxOf s w.ctx).dbgctl.getLsbD 0 = true) := by
        rintro ⟨h5, hon⟩
        rcases hdbg with hne | hoff
        · exact hne (Option.some.inj (hcls.symm.trans h5))
        · exact Bool.false_ne_true (hoff.symm.trans hon)
      rw [if_neg hin, if_neg hhalt]
      simp [hin, hcls, htrap]

/-- Settles O15: a cause that no handler takes is the warp's context-level fault, the first of its context, and the record of that
fault holds its fields at the offsets of R506. -/
theorem unhandledCauseFaults : Obligations.UnhandledCauseFaults := by
  intro s w t pc hst hcause
  rw [raiseAt_eq_faultAt pc hcause]
  obtain ⟨s', hfaulted, hrec, hwarps, hmem⟩ := faultAt_first (if w.inHandler then .doubleTrap else t.cause) t hst
  rw [hrec, faultRecord_ctx, faultRecord_cause, faultRecord_core, faultRecord_warp, faultRecord_addr]
  exact ⟨hfaulted, rfl, apply_ite causeCode _ _ _, rfl, rfl, rfl, hwarps, hmem⟩

end Sys2Proof.Machine
end
